-- ==== Sys2Proof/Word.lean ====
section
/-! DEFINITION. The link word and the branch word of the GH4210: sixteen bits (spec 00 1.5, R165, R44). -/
namespace Sys2Proof

/-- One word of a link or of a tile branch. -/
abbrev Word := BitVec 16

end Sys2Proof
end

