-- ==== Sys2Proof/Config.lean ====
section
/-! DEFINITION. What the part fixes: the sizes and limits its rules name, and the one value they leave open. -/
namespace Sys2Proof.Config

/-- Cells of the Cell Pool (R1). -/
def poolCells : Nat := 1536
/-- Records the Tag Index holds at most (R6). -/
def maxRecords : Nat := 512
/-- Cells a walk of a record's chain visits at most (R19). -/
def maxChain : Nat := 4
/-- Replacement cells one group may have (R14). -/
def maxReplacements : Nat := 3
/-- Rewrites one settings cell may have (R22). -/
def maxRewrites : Nat := 3
/-- The value of the revision counter that is never given (R8). -/
def counterEnd : Nat := 4294967295
/-- Orders the Chain Order Queue holds at most (R46). -/
def orderPlaces : Nat := 8
/-- Entries the Change Queue holds at most (R121). -/
def changePlaces : Nat := 16
/-- Restore points the History holds at most (R139). -/
def historyPlaces : Nat := 4
/-- Answers of a roll call or gather that are used (R50, R57). -/
def usedAnswers : Nat := 128
/-- Entries a digest lists at most before it is marked OVERFLOW (R133). -/
def digestEntries : Nat := 128
/-- Digest entries in one part (R133). -/
def partEntries : Nat := 16
/-- Entries of a LIST RECORDS or LIST PENDING reply (R27, R116). -/
def listEntries : Nat := 32
/-- Operand words a call frame carries at most (R169). -/
def maxOperands : Nat := 320
/-- The end of the saturating counters (R89, R166). -/
def counterMax : Nat := 65535
/-- The longest ramp, in frames (00 1.5, R123). -/
def maxRamp : Nat := 1023

/-- FREE VALUE (log 14): the epoch after a tick that would count past the end of the 48 bits.
R132 holds the epoch in 48 bits and does not say what follows its end. -/
opaque epochPastEnd : BitVec 48

end Sys2Proof.Config
end

