-- ==== Sys2Proof/Syntax.lean ====
section
/-! DEFINITION. The commands of the GH4210: one constructor for each row of spec/opcode_table.json. -/
namespace Sys2Proof

/-- The three links (00 1.2). -/
inductive Link where
  | pl | dl | sl
  deriving DecidableEq, Repr

/-- A level of the FRAME SYNC line (R117). -/
inductive Level where
  | low | high
  deriving DecidableEq, Repr

/-- A complete call frame less its code: the operand words and the check word, as received in the
port's terms (R169, R183). The operand count word is the number of operand words. With check OFF
the frame has no check word and `check` is not read. -/
structure Frame where
  operands : List Word
  check : Word
  deriving DecidableEq, Repr

/-- One command: an event of the part or a call on one of its links. -/
inductive Instr where
  -- power (01)
  | powerUp
  | powerLoss
  /-- `sync` is the FRAME SYNC level of the filter's first sample (R117); the lists name the cells,
  index entries (by tag) and settings cells whose stored bits fail their check on this scan. -/
  | startUpScanEnd (sync : Level) (badCells : List Nat) (badEntries : List Nat) (badSettings : List Nat)
  -- link wire (10)
  /-- `received` are the words clocked in since the last complete frame. -/
  | idleGap (l : Link) (received : List Word)
  | operandCountOversize (l : Link) (code : Word) (count : Word)
  | replyClockedOut (l : Link)
  /-- The first rising edge of LCK after a reply is staged, and the bits on LDI at it and at the edges of LCK that follow
  before the port's next event; with no bits, nothing is said of what is clocked (log 41). -/
  | readyFalls (l : Link) (bits : List Bool := [])
  | unknownCallFrame (l : Link) (code : Word) (f : Frame)
  -- calls of every link (10)
  | terms (l : Link) (f : Frame)
  | linkReset (l : Link) (f : Frame)
  | senseLink (l : Link) (f : Frame)
  | readNotices (l : Link) (f : Frame)
  | clearNotices (l : Link) (f : Frame)
  | setNoticeMask (l : Link) (f : Frame)
  | senseJob (l : Link) (f : Frame)
  | abandonJob (l : Link) (f : Frame)
  | senseWall (l : Link) (f : Frame)
  -- serving calls (09)
  | fetchDigest (l : Link) (f : Frame)
  | fetchSpan (l : Link) (f : Frame)
  | fetchGlobal (l : Link) (f : Frame)
  -- desk calls (05, 06, 07, 08, 10)
  | setGlobal (l : Link) (f : Frame)
  | override (l : Link) (f : Frame)
  | take (l : Link) (f : Frame)
  | setFrameEdge (l : Link) (f : Frame)
  | revert (l : Link) (f : Frame)
  | holdDrift (l : Link) (f : Frame)
  | releaseDrift (l : Link) (f : Frame)
  | setDriftParameters (l : Link) (f : Frame)
  | setCadence (l : Link) (f : Frame)
  | cadenceRun (l : Link) (f : Frame)
  | cadenceStop (l : Link) (f : Frame)
  | cadenceRestart (l : Link) (f : Frame)
  | senseCadence (l : Link) (f : Frame)
  | showLock (l : Link) (f : Frame)
  | showUnlock (l : Link) (f : Frame)
  | wallReset (l : Link) (f : Frame)
  -- survey calls (01, 02, 06)
  | selectTile (l : Link) (f : Frame)
  | readRecord (l : Link) (f : Frame)
  | listRecords (l : Link) (f : Frame)
  | setWatermark (l : Link) (f : Frame)
  | writeRecord (l : Link) (f : Frame)
  | eraseRecord (l : Link) (f : Frame)
  | auditPool (l : Link) (f : Frame)
  | setBatchDefault (l : Link) (f : Frame)
  | setWhitePoint (l : Link) (f : Frame)
  | setRoute (l : Link) (f : Frame)
  | setGeometry (l : Link) (f : Frame)
  | readTileStatus (l : Link) (f : Frame)
  -- calls of the desk and survey links (01, 03, 04, 06)
  | hang (l : Link) (f : Frame)
  | saveSettings (l : Link) (f : Frame)
  | sweepNow (l : Link) (f : Frame)
  | senseBranches (l : Link) (f : Frame)
  | clearBranch (l : Link) (f : Frame)
  | listPending (l : Link) (f : Frame)
  -- NV Port (01); `good` is the outcome of the verify or of the check read
  | nvRequestBegin
  | indexSwapBegin
  | eraseWriteBegin
  | settingsWriteBegin
  | cellWriteComplete (good : Bool)
  | retiredWriteComplete
  | chainEntryWriteComplete
  | indexSwapComplete
  | eraseWriteComplete
  | auditCheckReadComplete (good : Bool)
  | auditStatusWriteComplete
  | settingsCellWriteComplete (good : Bool)
  -- tile chain (03)
  | transmitterTake
  | owedGatherQueue
  | spaceWaiterQueue
  | echoArrive (branch : Nat) (header : Word)
  | wireFault
  | sweepStartPoint
  | doneReport (branch : Nat) (report : Word)
  | sweepTimeout (branch : Nat)
  | tileAnswer (branch : Nat) (words : List Word)
  | endMarker (branch : Nat)
  | answerStreamBreak
  -- hanging (04)
  | waitingHangToldIdle (l : Link) (branch : Nat)
  | placePost (l : Link)
  -- cadence and frames (05, 07); `pulseFirst`: a FRAME cadence pulse of this tick falls before the commit
  | cadenceCountPulse
  | cadenceExpiry
  | frameTick (pulseFirst : Bool)
  | frameLost
  | filterClockSample (level : Level) (pulseFirst : Bool)
  | sourcePulse
  deriving DecidableEq, Repr

end Sys2Proof
end

