-- ==== Sys2Proof/WellFormed.lean ====
section
/-! DEFINITION. Which commands can be met on the hardware: branches are 0 to 3, a complete frame carries at
most 320 operand words, a hang's link is DL or SL. A meaning does not need these checks to be total; they say
which terms stand for a possible event. -/
namespace Sys2Proof

/-- A complete call frame carries at most 320 operand words (R169). -/
def Frame.wellFormed (f : Frame) : Bool := decide (f.operands.length ≤ Config.maxOperands)

/-- A branch number of the part (00 1.2). -/
def branchOk (b : Nat) : Bool := decide (b < 4)

/-- The calls of the catalogue have codes 0001 to 002E (R184). -/
def knownCode (code : Word) : Bool := decide (1 ≤ code.toNat ∧ code.toNat ≤ 46)

/-- The links a HANG job can run on (R66). -/
def hangLink : Link → Bool
  | .pl => false
  | .dl => true
  | .sl => true

/-- The command stands for an event that can happen. -/
def Instr.wellFormed : Instr → Bool
  | .powerUp => true
  | .powerLoss => true
  | .startUpScanEnd _ cells tags settings =>
      cells.all (fun c => decide (c < Config.poolCells)) && tags.all (fun t => decide (t < 4294967296)) &&
        settings.all (fun c => decide (c < 8))
  | .idleGap _ _ => true
  | .operandCountOversize _ code count => decide (code ≠ 0) && decide (Config.maxOperands < count.toNat)
  | .replyClockedOut _ => true
  | .readyFalls _ _ => true
  | .unknownCallFrame _ code f => decide (code ≠ 0) && !knownCode code && f.wellFormed
  | .terms _ f => f.wellFormed
  | .linkReset _ f => f.wellFormed
  | .senseLink _ f => f.wellFormed
  | .readNotices _ f => f.wellFormed
  | .clearNotices _ f => f.wellFormed
  | .setNoticeMask _ f => f.wellFormed
  | .senseJob _ f => f.wellFormed
  | .abandonJob _ f => f.wellFormed
  | .senseWall _ f => f.wellFormed
  | .fetchDigest _ f => f.wellFormed
  | .fetchSpan _ f => f.wellFormed
  | .fetchGlobal _ f => f.wellFormed
  | .setGlobal _ f => f.wellFormed
  | .override _ f => f.wellFormed
  | .take _ f => f.wellFormed
  | .setFrameEdge _ f => f.wellFormed
  | .revert _ f => f.wellFormed
  | .holdDrift _ f => f.wellFormed
  | .releaseDrift _ f => f.wellFormed
  | .setDriftParameters _ f => f.wellFormed
  | .setCadence _ f => f.wellFormed
  | .cadenceRun _ f => f.wellFormed
  | .cadenceStop _ f => f.wellFormed
  | .cadenceRestart _ f => f.wellFormed
  | .senseCadence _ f => f.wellFormed
  | .showLock _ f => f.wellFormed
  | .showUnlock _ f => f.wellFormed
  | .wallReset _ f => f.wellFormed
  | .selectTile _ f => f.wellFormed
  | .readRecord _ f => f.wellFormed
  | .listRecords _ f => f.wellFormed
  | .setWatermark _ f => f.wellFormed
  | .writeRecord _ f => f.wellFormed
  | .eraseRecord _ f => f.wellFormed
  | .auditPool _ f => f.wellFormed
  | .setBatchDefault _ f => f.wellFormed
  | .setWhitePoint _ f => f.wellFormed
  | .setRoute _ f => f.wellFormed
  | .setGeometry _ f => f.wellFormed
  | .readTileStatus _ f => f.wellFormed
  | .hang _ f => f.wellFormed
  | .saveSettings _ f => f.wellFormed
  | .sweepNow _ f => f.wellFormed
  | .senseBranches _ f => f.wellFormed
  | .clearBranch _ f => f.wellFormed
  | .listPending _ f => f.wellFormed
  | .nvRequestBegin => true
  | .indexSwapBegin => true
  | .eraseWriteBegin => true
  | .settingsWriteBegin => true
  | .cellWriteComplete _ => true
  | .retiredWriteComplete => true
  | .chainEntryWriteComplete => true
  | .indexSwapComplete => true
  | .eraseWriteComplete => true
  | .auditCheckReadComplete _ => true
  | .auditStatusWriteComplete => true
  | .settingsCellWriteComplete _ => true
  | .transmitterTake => true
  | .owedGatherQueue => true
  | .spaceWaiterQueue => true
  | .echoArrive b _ => branchOk b
  | .wireFault => true
  | .sweepStartPoint => true
  | .doneReport b _ => branchOk b
  | .sweepTimeout b => branchOk b
  | .tileAnswer b ws => branchOk b && decide (ws.length = 5 ∨ ws.length = 7) && decide (ws.head? ≠ some 0)
  | .endMarker b => branchOk b
  | .answerStreamBreak => true
  | .waitingHangToldIdle l b => hangLink l && branchOk b
  | .placePost l => hangLink l
  | .cadenceCountPulse => true
  | .cadenceExpiry => true
  | .frameTick _ => true
  | .frameLost => true
  | .filterClockSample _ _ => true
  | .sourcePulse => true

end Sys2Proof
end

