-- ==== Sys2Proof/Decode.lean ====
section
/-! DEFINITION. The commands that a word of the opcode table spells: none, since no row of
spec/opcode_table.json gives bits. And the command that the words of a call frame spell, by the call codes of R184. (The
operands of a frame are read by Machine/Operands.lean.) -/
namespace Sys2Proof

/-- The command whose table bits are `w`: no row has bits, so none. -/
def decodeTableWord (_nbits _w : Nat) : Option Instr := none

/-- The command that a complete frame with this call code is: the call the catalogue gives the code, or a frame whose
code names no call (R184). -/
def Instr.ofCode (l : Link) (code : Word) (f : Frame) : Instr :=
  match code.toNat with
  | 0x01 => .terms l f
  | 0x02 => .linkReset l f
  | 0x03 => .senseLink l f
  | 0x04 => .readNotices l f
  | 0x05 => .clearNotices l f
  | 0x06 => .setNoticeMask l f
  | 0x07 => .senseJob l f
  | 0x08 => .abandonJob l f
  | 0x09 => .senseWall l f
  | 0x0A => .fetchDigest l f
  | 0x0B => .fetchSpan l f
  | 0x0C => .fetchGlobal l f
  | 0x0D => .setGlobal l f
  | 0x0E => .override l f
  | 0x0F => .take l f
  | 0x10 => .setFrameEdge l f
  | 0x11 => .revert l f
  | 0x12 => .holdDrift l f
  | 0x13 => .releaseDrift l f
  | 0x14 => .setDriftParameters l f
  | 0x15 => .setCadence l f
  | 0x16 => .cadenceRun l f
  | 0x17 => .cadenceStop l f
  | 0x18 => .cadenceRestart l f
  | 0x19 => .senseCadence l f
  | 0x1A => .showLock l f
  | 0x1B => .showUnlock l f
  | 0x1C => .wallReset l f
  | 0x1D => .selectTile l f
  | 0x1E => .readRecord l f
  | 0x1F => .listRecords l f
  | 0x20 => .setWatermark l f
  | 0x21 => .writeRecord l f
  | 0x22 => .eraseRecord l f
  | 0x23 => .auditPool l f
  | 0x24 => .setBatchDefault l f
  | 0x25 => .setWhitePoint l f
  | 0x26 => .setRoute l f
  | 0x27 => .setGeometry l f
  | 0x28 => .readTileStatus l f
  | 0x29 => .hang l f
  | 0x2A => .saveSettings l f
  | 0x2B => .sweepNow l f
  | 0x2C => .senseBranches l f
  | 0x2D => .clearBranch l f
  | 0x2E => .listPending l f
  | _ => .unknownCallFrame l code f

/-- The command that the words of one frame spell, its code first: a complete frame of `n` operand words and, with
check on, a check word, or a code and an operand count above 320 (R169). -/
def decodeFrame (l : Link) (checkOn : Bool) : List Word → Option Instr
  | code :: count :: rest =>
    if code = 0 then none
    else if Config.maxOperands < count.toNat then some (.operandCountOversize l code count)
    else if rest.length = count.toNat + (if checkOn then 1 else 0) then
      some (.ofCode l code { operands := rest.take count.toNat, check := (rest.drop count.toNat).headD 0 })
    else none
  | [_] => none
  | [] => none

end Sys2Proof
end

