-- ==== Sys2Proof/Machine/State.lean ====
section
/-! DEFINITION. Everything the spec gives the GH4210, as plain data: the power phase, the three link ports and
their jobs, the Record Store, the Wall Plan, the Chain Engine, the Drift Tracker, the Commit Engine, and the
queue of commands that wait. INVENTORY.md lists each piece with its rule and reset value. -/
namespace Sys2Proof.Machine

/-! ### Link ports (10) -/

/-- Whether the part is powered, and whether its start-up scan still runs (R10, R23, R167). -/
inductive Power where
  | off | starting | on
  deriving DecidableEq, Repr

/-- State of a link port (R166). -/
inductive PortState where
  | starting | down | idle | replyPending
  deriving DecidableEq, Repr

/-- Bit order of a port's terms (R166). -/
inductive BitOrder where
  | msbFirst | lsbFirst
  deriving DecidableEq, Repr

/-- Check setting of a port's terms (R166). -/
inductive CheckSetting where
  | on | off
  deriving DecidableEq, Repr

/-- The terms a frame is received and a reply is formed in (R166, R168). -/
structure Terms where
  order : BitOrder
  check : CheckSetting
  deriving DecidableEq, Repr

/-- The default terms (R166). -/
def Terms.default : Terms := { order := .msbFirst, check := .on }

/-- The statuses a reply can carry (R184). -/
inductive Status where
  | ok | starting | notOpen | badCheck | badLength | unknownCall | notPermitted | locked | jobBusy | badValue
  | queueFull | recordBusy | noHead | indexFull | poolFull | noRecord | tilePlaced | settingsBusy | noSelection
  | wallLive | routeConflict | notPlaced | tooLate | noJob | historyEmpty | stale | badPart
  deriving DecidableEq, Repr

/-- A staged reply: its status, its reply words, the terms it was formed in and how many of its words have
been clocked out (R166, R171). -/
structure Reply where
  status : Status
  words : List Word
  terms : Terms
  clocked : Nat
  deriving DecidableEq, Repr

/-- What the receiver is in the middle of (R166, R169). The expected length is known from the operand count
word on. -/
inductive Receiver where
  | betweenFrames
  | inFrame (received : Nat) (expected : Option Nat)
  | discarding
  deriving DecidableEq, Repr

/-- The six link counters (R166), each 0 to 65535, saturating. -/
structure Counters where
  taken : Nat
  refused : Nat
  badChecks : Nat
  badLengths : Nat
  partialFrames : Nat
  discarded : Nat
  deriving DecidableEq, Repr

/-- All counters 0. -/
def Counters.zero : Counters :=
  { taken := 0, refused := 0, badChecks := 0, badLengths := 0, partialFrames := 0, discarded := 0 }

/-- The sixteen notices, in the bit order of the notice set word (R183). -/
inductive Notice where
  | epochReady | digestMissed | frameLost | settingsLost | jobDone | sweepClash | sweepTimeout | branchFault
  | tileMute | stranger | poolLow | cellRetired | recordDamaged | historyOverrun | historyEmpty | cycleOverrun
  deriving DecidableEq, Repr

/-! ### Records and settings (01, 02, 06) -/

/-- Three gains, 1/2048 each, 0 to 4095 (R4). -/
structure Gains where
  r : Int
  g : Int
  b : Int
  deriving DecidableEq, Repr

/-- The nine terms of a SURVEY group, in its order (R4). -/
structure Matrix where
  gR : Int
  gG : Int
  gB : Int
  xRG : Int
  xRB : Int
  xGR : Int
  xGB : Int
  xBR : Int
  xBG : Int
  deriving DecidableEq, Repr

/-- The seven values of a DRIFT group (R4). -/
structure DriftCoef where
  kR : Int
  kG : Int
  kB : Int
  tref : Int
  aR : Int
  aG : Int
  aB : Int
  deriving DecidableEq, Repr

/-- The four seam trims of a TRIM group (R4). -/
structure Trims where
  tL : Int
  tR : Int
  tT : Int
  tB : Int
  deriving DecidableEq, Repr

/-- Group presence of a head cell (R4). -/
structure Presence where
  survey : Bool
  drift : Bool
  trim : Bool
  deriving DecidableEq, Repr

/-- Kind of a cell (R1). -/
inductive CellKind where
  | head | survey | drift | trim
  deriving DecidableEq, Repr

/-- What one cell carries: its kind and the content of its data words (R1, R4; log 11). -/
inductive Group where
  | head (tag : Nat) (batch : Nat) (base : Gains) (groups : Presence)
  | survey (m : Matrix)
  | drift (d : DriftCoef)
  | trim (t : Trims)
  deriving DecidableEq, Repr

/-- The kind of the cell that carries a group. -/
def Group.kind : Group → CellKind
  | .head _ _ _ _ => .head
  | .survey _ => .survey
  | .drift _ => .drift
  | .trim _ => .trim

/-- An entry of the Chain Table (R3). -/
inductive ChainEntry where
  | free
  | next (cell : Nat)
  | last
  | retired
  deriving DecidableEq, Repr

/-- Status of a record (R5). -/
inductive RecStatus where
  | ok | provisional | damaged
  deriving DecidableEq, Repr

/-- An entry of the non-volatile Tag Index (R6). -/
structure NvEntry where
  tag : Nat
  head : Nat
  revision : Nat
  status : RecStatus
  deriving DecidableEq, Repr

/-- An entry of the volatile Tag Index, with the cells of the record's chain: those its write built, or those
the scan assigned to it (R6, R19, R23). -/
structure IndexEntry where
  tag : Nat
  head : Nat
  revision : Nat
  status : RecStatus
  cells : List Nat
  deriving DecidableEq, Repr

/-- The content of a record, group by group (R4). -/
structure Content where
  batch : Nat
  base : Gains
  survey : Option Matrix
  drift : Option DriftCoef
  trim : Option Trims
  deriving DecidableEq, Repr

/-- A direction of a route (R30). -/
inductive Direction where
  | right | left | up | down
  deriving DecidableEq, Repr

/-- Turn style of a route (R30). -/
inductive TurnStyle where
  | serpentine | return
  deriving DecidableEq, Repr

/-- A present Branch Route (R30). -/
structure Route where
  startCol : Nat
  startRow : Nat
  first : Direction
  advance : Direction
  runLength : Nat
  style : TurnStyle
  expected : Nat
  deriving DecidableEq, Repr

/-- An entry of the Batch Default table (R114). -/
structure BatchDefault where
  base : Gains
  coef : DriftCoef
  deriving DecidableEq, Repr

/-- Source of the Cadence Timer (R82). -/
inductive CadenceSource where
  | base | frame
  deriving DecidableEq, Repr

/-- Edge polarity of FRAME SYNC (R118). -/
inductive Polarity where
  | rising | falling
  deriving DecidableEq, Repr

/-- The settings: the working copies of R21, and what SAVE SETTINGS writes. -/
structure Settings where
  columns : Nat
  rows : Nat
  /-- One entry per branch 0 to 3; none is absent. -/
  routes : List (Option Route)
  /-- Sixteen entries, by batch code. -/
  batch : List BatchDefault
  /-- Sixteen entries, by white point index. -/
  white : List Gains
  source : CadenceSource
  prescaler : Nat
  reload : Nat
  runAtStart : Bool
  depth : Nat
  deadband : Nat
  budget : Nat
  driftRamp : Nat
  watermark : Nat
  polarity : Polarity
  deriving DecidableEq, Repr

/-- Unity gains. -/
def Gains.unity : Gains := { r := 2048, g := 2048, b := 2048 }

/-- The factory entry of the Batch Default table (R21). -/
def BatchDefault.factory : BatchDefault :=
  { base := .unity, coef := { kR := 0, kG := 0, kB := 0, tref := 250, aR := 0, aG := 0, aB := 0 } }

/-- The factory values of the settings (R21). -/
def Settings.factory : Settings :=
  { columns := 32, rows := 16, routes := [none, none, none, none]
    batch := List.replicate 16 .factory, white := List.replicate 16 .unity
    source := .base, prescaler := 4, reload := 1250, runAtStart := true
    depth := 2, deadband := 5, budget := 16, driftRamp := 120, watermark := 32, polarity := .rising }

/-! ### Wall Plan and adopted plane (02, 06) -/

/-- How a tile is hung (00 1.5). -/
inductive Orientation where
  | normal | turned
  deriving DecidableEq, Repr

/-- The tile found at a position: its tag, how it hangs, and where on which branch (R32, R35). -/
structure TileAt where
  tag : Nat
  orientation : Orientation
  branch : Nat
  chainIndex : Nat
  deriving DecidableEq, Repr

/-- Cause of the state UNRECORDED (R35). -/
inductive Cause where
  | noRecord | damaged | noSpace
  deriving DecidableEq, Repr

/-- State of a position with the fields that are present in that state (R32, R33). -/
inductive Hung where
  | empty
  | placed (t : TileAt)
  | unrecorded (t : TileAt) (cause : Cause)
  | duplicate (t : TileAt)
  deriving DecidableEq, Repr

/-- A Correction: the 14 terms of R100. -/
structure Correction where
  gR : Int
  gG : Int
  gB : Int
  xRG : Int
  xRB : Int
  xGR : Int
  xGB : Int
  xBR : Int
  xBG : Int
  tL : Int
  tR : Int
  tT : Int
  tB : Int
  level : Int
  deriving DecidableEq, Repr

/-- The EMPTY target (R100). -/
def Correction.emptyTarget : Correction :=
  { gR := 2048, gG := 2048, gB := 2048, xRG := 0, xRB := 0, xGR := 0, xGB := 0, xBR := 0, xBG := 0
    tL := 0, tR := 0, tT := 0, tB := 0, level := 0 }

/-- Source of an adopted copy (R101). -/
inductive Source where
  | record | default
  deriving DecidableEq, Repr

/-- Drift source of an adopted copy (R101). -/
inductive DriftSource where
  | drift | batch
  deriving DecidableEq, Repr

/-- The adopted copy of a position (R101). -/
structure Adopted where
  tag : Nat
  source : Source
  revision : Nat
  batch : Nat
  base : Gains
  survey : Option Matrix
  coef : DriftCoef
  driftSource : DriftSource
  trim : Option Trims
  deriving DecidableEq, Repr

/-- One wall position: its entry of the live Placement Map (R32) and its part of the live plane (R100, R101,
R129). -/
structure Position where
  hung : Hung
  override : Option Nat
  pending : Bool
  clamped : Bool
  adopted : Option Adopted
  target : Correction
  applied : Correction
  remaining : Nat
  deriving DecidableEq, Repr

/-- A position at rest and EMPTY (R38, R101). -/
def Position.atRest : Position :=
  { hung := .empty, override := none, pending := false, clamped := false, adopted := none
    target := .emptyTarget, applied := .emptyTarget, remaining := 0 }

/-- An entry of the Tile Status table (R39). -/
structure TileStatus where
  tag : Nat
  e : Option Int
  ePosted : Option Int
  h : Option Nat
  hPosted : Option Nat
  miss : Nat
  fresh : Nat
  deriving DecidableEq, Repr

/-! ### Chain Engine (03) -/

/-- State of a branch (R42). -/
inductive BranchState where
  | idle | calling | starting | sweeping | ready | gathering | fault
  deriving DecidableEq, Repr

/-- On whose behalf an order is queued (R47). -/
inductive Originator where
  | hang (l : Link)
  | drift
  | sweepNow
  deriving DecidableEq, Repr

/-- Kind of a chain order (R43, R46). -/
inductive OrderKind where
  | rollCall | sweep | gather
  deriving DecidableEq, Repr

/-- An order of the Chain Order Queue (R46). -/
structure Order where
  kind : OrderKind
  branch : Nat
  orig : Originator
  deriving DecidableEq, Repr

/-- A branch record (R42). -/
structure Branch where
  state : BranchState
  serial : Nat
  orig : Option Originator
  sweepTimer : Bool
  clash : Bool
  timeout : Bool
  excess : Bool
  lastCount : Nat
  deriving DecidableEq, Repr

/-- A branch at power-up (R65). -/
def Branch.atRest : Branch :=
  { state := .idle, serial := 0, orig := none, sweepTimer := false, clash := false, timeout := false
    excess := false, lastCount := 0 }

/-- An answer to a roll call, as it goes into the tile list (R50). -/
structure RollAnswer where
  chainIndex : Nat
  tag : Nat
  batch : Nat
  orientation : Orientation
  deriving DecidableEq, Repr

/-- A good answer of a gather (R57, R58). -/
structure Sample where
  tag : Nat
  temp : Int
  hours : Nat
  fresh : Bool
  deriving DecidableEq, Repr

/-- The order on the wire (R42) and what has come back: the echo, whether the 1 ms point of a SWEEP has
passed, a held done report (R53), the number of answers, whether one was bad, and the answers kept. -/
structure Wire where
  order : Order
  echoed : Bool
  startPassed : Bool
  doneHeld : Bool
  count : Nat
  bad : Bool
  /-- The hang job that sent the order has ended, and its report will be discarded (R61). -/
  dropped : Bool
  rolls : List RollAnswer
  samples : List Sample
  deriving DecidableEq, Repr

/-! ### Jobs (01, 04, 10) -/

/-- Phase of a record write (R173). -/
inductive WritePhase where
  | cells | chain | swap
  deriving DecidableEq, Repr

/-- A record write on behalf of WRITE RECORD or of a hang (R12 to R17). Its claim is `written ++ unwritten`. -/
structure RecWrite where
  tag : Nat
  /-- The groups of the new record, in chain order. -/
  groups : List Group
  /-- The cells written with a good verify, in chain order. -/
  written : List Nat
  /-- The cells claimed for the groups not yet written, in chain order. -/
  unwritten : List Nat
  phase : WritePhase
  /-- Chain entries written. -/
  chained : Nat
  /-- Replacement cells the group now being written has had (R14). -/
  replacements : Nat
  /-- Cells retired by this write. -/
  retired : Nat
  /-- An index slot is reserved (R6). -/
  reserved : Bool
  /-- The write is a hang's provisional write (R17). -/
  provisional : Bool
  /-- The revision taken when the swap began (R8). -/
  revision : Option Nat
  deriving DecidableEq, Repr

/-- The record an audit is reading: its tag, the cell whose check read is asked for, the cells already
visited, the kinds still expected, and whether its status write is queued (R19, R20). -/
structure AuditRead where
  tag : Nat
  cell : Nat
  visited : List Nat
  expected : List CellKind
  damaging : Bool
  deriving DecidableEq, Repr

/-- A running AUDIT POOL (R20). -/
structure AuditWork where
  last : Nat
  checked : Nat
  damaged : Nat
  skipped : Nat
  reading : Option AuditRead
  deriving DecidableEq, Repr

/-- Phase of a hang (R66). -/
inductive HangPhase where
  | calling | recording | posting | posted
  deriving DecidableEq, Repr

/-- Cause of a failed branch outcome (R66). -/
inductive FailCause where
  | badAnswer | broken | branchFault
  deriving DecidableEq, Repr

/-- Outcome of a masked branch (R66). -/
inductive CallOutcome where
  | toQueue | queued | waitingIdle | reported
  | failed (c : FailCause)
  deriving DecidableEq, Repr

/-- Stranger policy of a hang (R66). -/
inductive Policy where
  | record | default
  deriving DecidableEq, Repr

/-- One masked branch of a hang: its route copy, outcome, kept tile list and over-128 mark (R66). -/
structure HangBranch where
  branch : Nat
  route : Route
  outcome : CallOutcome
  list : List RollAnswer
  excess : Bool
  over128 : Bool
  deriving DecidableEq, Repr

/-- The counts of a hang (R66). -/
structure HangCounts where
  placed : Nat
  moved : Nat
  strangers : Nat
  provisional : Nat
  unrecorded : Nat
  duplicates : Nat
  excess : Nat
  short : Nat
  deriving DecidableEq, Repr

/-- All counts 0. -/
def HangCounts.zero : HangCounts :=
  { placed := 0, moved := 0, strangers := 0, provisional := 0, unrecorded := 0, duplicates := 0, excess := 0
    short := 0 }

/-- The batch code and orientation a placed tag's tile reported (R66). -/
structure TileSeen where
  tag : Nat
  batch : Nat
  orientation : Orientation
  deriving DecidableEq, Repr

/-- A running HANG (R66). The staged map's decided entries are (position, state) pairs, positions rising
(R68; log 34). -/
structure HangWork where
  ramp : Nat
  policy : Policy
  phase : HangPhase
  branches : List HangBranch
  staged : List (Nat × Hung)
  seen : List TileSeen
  strangers : List Nat
  counts : HangCounts
  prov : Option RecWrite
  deriving DecidableEq, Repr

/-- A running SAVE SETTINGS: its save image, the settings cell being written, cells written, rewrites of this
cell and rewrites in all (R22). -/
structure SaveWork where
  image : Settings
  cell : Nat
  written : Nat
  cellRewrites : Nat
  rewrites : Nat
  deriving DecidableEq, Repr

/-- What a running job holds. -/
inductive JobWork where
  | write (w : RecWrite)
  | erase (tag : Nat)
  | audit (a : AuditWork)
  | hang (h : HangWork)
  | save (v : SaveWork)
  deriving DecidableEq, Repr

/-- A running job: it occupies its link's slot until it ends (R172, R179). -/
structure Job where
  detached : Bool
  committed : Bool
  work : JobWork
  deriving DecidableEq, Repr

/-- State of a job record (R172). -/
inductive JobState where
  | none | running | done | donePartial | failed | abandoned
  deriving DecidableEq, Repr

/-- Result code of a job record (R172). -/
inductive ResultCode where
  | none | verifyFailed | poolFull | revisionExhausted
  deriving DecidableEq, Repr

/-- One masked branch in a HANG's job record (R173). -/
structure BranchReport where
  branch : Nat
  outcome : CallOutcome
  over128 : Bool
  deriving DecidableEq, Repr

/-- The kind-specific fields of a job record; the constructor is the kind (R172, R173). -/
inductive JobFields where
  | none
  /-- `good` counts the cells with a good verify; the record shows `good + retired` cells written (R173). -/
  | write (tag : Nat) (phase : WritePhase) (good retired : Nat) (revision : Option Nat)
  | erase (tag : Nat) (freed : Option Nat)
  | audit (last checked damaged skipped : Nat) (retired : Option Nat)
  | hang (ramp : Nat) (policy : Policy) (phase : HangPhase) (branches : List BranchReport) (counts : HangCounts)
  | save (written rewrites : Nat)
  deriving DecidableEq, Repr

/-- A job record (R172). -/
structure JobRecord where
  state : JobState
  result : ResultCode
  committed : Bool
  fields : JobFields
  deriving DecidableEq, Repr

/-- The record with kind NONE and state NONE (R172). -/
def JobRecord.none : JobRecord := { state := .none, result := .none, committed := false, fields := .none }

/-- A link port (R166, R172, R176). While a job that is not detached runs, the link's job record is read from
`job`; `record` is the record otherwise. `wordBits` are the bits clocked in of an incomplete word, in the order clocked,
none at a word boundary (R165; log 41). -/
structure Port where
  state : PortState
  terms : Terms
  slot : Option Reply
  ready : Bool
  receiver : Receiver
  wordBits : List Bool
  discardedMark : Bool
  counters : Counters
  selection : Option Nat
  job : Option Job
  record : JobRecord
  flags : BitVec 16
  mask : BitVec 16
  deriving DecidableEq, Repr

/-- A port at power-up (R166, R172, R176). -/
def Port.powerUp : Port :=
  { state := .starting, terms := .default, slot := none, ready := false, receiver := .betweenFrames
    wordBits := [], discardedMark := false, counters := .zero, selection := none, job := none, record := .none
    flags := 0, mask := BitVec.allOnes 16 }

/-! ### Record Store and NV Port (01) -/

/-- The non-volatile memory. `cells` and `chain` list, keys rising, the cells that check correctly and the
Chain Table entries that are not FREE; `index` is in ascending tag order; `settings` has one entry for each
settings cell, none for a torn one (R1, R3, R6, R8, R21). -/
structure NvMemory where
  cells : List (Nat × Group)
  chain : List (Nat × ChainEntry)
  index : List NvEntry
  counter : Nat
  settings : List (Option Settings)
  deriving DecidableEq, Repr

/-- The volatile side of the Record Store (R1 to R8, R11). -/
structure Pool where
  free : List Nat
  retired : List Nat
  chain : List (Nat × ChainEntry)
  image : List (Nat × Group)
  index : List IndexEntry
  counter : Nat
  low : Bool
  deriving DecidableEq, Repr

/-- A request at the NV Port (R9). -/
inductive NvOp where
  | cellWrite (cell : Nat) (g : Group)
  | retire (cell : Nat)
  | chainEntry (cell : Nat) (e : ChainEntry)
  | swap
  | remove (tag : Nat)
  | damage (tag : Nat)
  | checkRead (cell : Nat)
  | settings (cell : Nat) (image : Settings)
  deriving DecidableEq, Repr

/-- A request with the link whose job issued it. -/
structure NvRequest where
  link : Link
  op : NvOp
  deriving DecidableEq, Repr

/-- The request in progress; `live` is clear when its job has ended in the meantime (R9). -/
structure NvCurrent where
  req : NvRequest
  live : Bool
  deriving DecidableEq, Repr

/-- The NV Port (R9). `orphan` is a provisional write whose swap has begun and whose hang has ended (R79). -/
structure NvPort where
  waiting : List NvRequest
  current : Option NvCurrent
  orphan : Option RecWrite
  deriving DecidableEq, Repr

/-! ### Drift Tracker (05) -/

/-- State of the Cadence Timer (R82). -/
inductive TimerState where
  | stopped | running | stopping
  deriving DecidableEq, Repr

/-- The Cadence Timer's own fields (R82); its settings are in `Settings`. -/
structure Timer where
  state : TimerState
  counter : Nat
  stage : Nat
  deriving DecidableEq, Repr

/-! ### Commit Engine (07, 08) -/

/-- Frame state (R119). -/
inductive FrameState where
  | running | lost
  deriving DecidableEq, Repr

/-- The frame tick filter and the frame-lost timer (R117, R119). -/
structure FrameSync where
  state : FrameState
  timerRunning : Bool
  settled : Level
  candidate : Nat
  deriving DecidableEq, Repr

/-- The intent operands of SET GLOBAL, each given or omitted (R112). -/
structure IntentOps where
  master : Option Nat
  white : Option Nat
  trimR : Option Int
  trimG : Option Int
  trimB : Option Int
  deriving DecidableEq, Repr

/-- An entry of the Change Queue (R121). -/
inductive Change where
  | global (ramp : Nat) (ops : IntentOps)
  | take (ramp : Nat)
  | revert (ramp : Nat)
  | override (position : Nat) (level : Option Nat) (ramp : Nat)
  | place (owner : Link) (ramp : Nat) (staged : List (Nat × Hung)) (seen : List TileSeen)
  deriving DecidableEq, Repr

/-- The global intent (R111). -/
structure Intent where
  master : Nat
  white : Nat
  trimR : Int
  trimG : Int
  trimB : Int
  deriving DecidableEq, Repr

/-- The intent at power-up and after WALL RESET (R111). -/
def Intent.reset : Intent := { master := 1000, white := 0, trimR := 0, trimG := 0, trimB := 0 }

/-- The global vector (R100). -/
structure GlobalVector where
  level : Int
  r : Int
  g : Int
  b : Int
  deriving DecidableEq, Repr

/-- Global intent, target vector, applied vector and ramp remaining (R111). -/
structure Global where
  intent : Intent
  target : GlobalVector
  applied : GlobalVector
  remaining : Nat
  deriving DecidableEq, Repr

/-- The three flags of a position as a digest entry records them (R133). -/
structure PosFlags where
  pending : Bool
  mute : Bool
  clamped : Bool
  deriving DecidableEq, Repr

/-- The four states of a position (R32), in the order of the state-and-flags word (R183). -/
inductive PosState where
  | empty | placed | unrecorded | duplicate
  deriving DecidableEq, Repr

/-- A digest entry (R133). -/
structure DigestEntry where
  position : Nat
  applied : Correction
  state : PosState
  flags : PosFlags
  deriving DecidableEq, Repr

/-- The current digest (R133). `fetched` holds one mark per part, so its length is the part count (R134). -/
structure Digest where
  epoch : BitVec 48
  previous : BitVec 48
  changed : Nat
  globalChanged : Bool
  overflow : Bool
  entries : List DigestEntry
  fetched : List Bool
  deriving DecidableEq, Repr

/-- The digest after power-up and WALL RESET (R134). -/
def Digest.reset : Digest :=
  { epoch := 0, previous := 0, changed := 0, globalChanged := false, overflow := false, entries := []
    fetched := [true] }

/-- A position record of a restore point (R140). -/
structure PosRecord where
  position : Nat
  tag : Nat
  copy : Adopted
  cause : Option Cause
  deriving DecidableEq, Repr

/-! ### The machine -/

/-- The state of the GH4210. -/
structure State where
  power : Power
  pl : Port
  dl : Port
  sl : Port
  showLock : Bool
  nv : NvMemory
  pool : Pool
  nvPort : NvPort
  settings : Settings
  positions : List Position
  tiles : List TileStatus
  branches : List Branch
  wire : Option Wire
  orders : List Order
  owed : List Nat
  spaceWaiters : List Link
  /-- (branch, link): the HANG of that link waits for that branch to be IDLE (R60). -/
  idleWaits : List (Nat × Link)
  timer : Timer
  awaiting : List Nat
  cyclesStarted : Nat
  cyclesSkipped : Nat
  overruns : Nat
  resultsDiscarded : Nat
  hold : Bool
  frame : FrameSync
  changes : List Change
  postWaiters : List Link
  dirty : List Nat
  cursor : Nat
  global : Global
  epoch : BitVec 48
  digest : Digest
  /-- Restore points, the top (newest) first (R139). -/
  history : List (List PosRecord)
  lastSkipped : Nat
  /-- The commands that wait, first in, first out. The model's own. -/
  pending : List Instr
  deriving DecidableEq, Repr

/-- Why the machine stops. No rule of the spec stops the part: every command is answered by a status, a
notice, a job result, or is disregarded. So there is no constructor. -/
inductive Fault where
  deriving DecidableEq, Repr

/-- Why a command has no meaning. -/
inductive Refusal where
  /-- Raised by Dispatch for a command not modelled yet; safe, since no claim about the command can be proved. -/
  | notModelled (mnemonic : String)
  deriving DecidableEq, Repr

/-- The factory-fresh non-volatile memory (log 8): an initialised Chain Table (R3), no records, a stored
counter of 1, and the factory settings. -/
def NvMemory.factory : NvMemory :=
  { cells := [], chain := [], index := [], counter := 1, settings := List.replicate 8 (some .factory) }

/-- The part just after power is applied over the non-volatile memory `nv`, its start-up scan running:
R65, R99, R136, R139, R166 and the other power-up values. What the scan builds or loads is empty or at its
factory value until START_UP_SCAN_END (log 30). -/
def State.powerUp (nv : NvMemory) (pending : List Instr) : State :=
  { power := .starting
    pl := .powerUp, dl := .powerUp, sl := .powerUp
    showLock := false
    nv := nv
    pool := { free := [], retired := [], chain := [], image := [], index := [], counter := 1, low := false }
    nvPort := { waiting := [], current := none, orphan := none }
    settings := .factory
    positions := List.replicate 512 .atRest
    tiles := []
    branches := List.replicate 4 .atRest
    wire := none, orders := [], owed := [], spaceWaiters := [], idleWaits := []
    timer := { state := .stopped, counter := 1250, stage := 0 }
    awaiting := [], cyclesStarted := 0, cyclesSkipped := 0, overruns := 0, resultsDiscarded := 0
    hold := false
    frame := { state := .lost, timerRunning := false, settled := .low, candidate := 0 }
    changes := [], postWaiters := [], dirty := [], cursor := 0
    global := { intent := .reset, target := { level := 1000, r := 2048, g := 2048, b := 2048 }
                applied := { level := 1000, r := 2048, g := 2048, b := 2048 }, remaining := 0 }
    epoch := 0, digest := .reset, history := [], lastSkipped := 0
    pending := pending }

/-- The machine right after reset: power has just been applied to a factory-fresh part (log 8). -/
def State.reset : State := .powerUp .factory []

end Sys2Proof.Machine
end

