-- ==== Sys2Proof/Machine/Operands.lean ====
section
/-! DEFINITION. How operands, replies and tile answers are laid out in words (R43, R44, R183, R184): numbers,
tags, sets, named values, optional values, and the operand forms of each call. -/
namespace Sys2Proof.Machine

/-! ### Words -/

/-- A quantity as one word (R183). -/
def wordOfNat (n : Nat) : Word := BitVec.ofNat 16 n

/-- A signed quantity as one word, in two's complement (R183). -/
def wordOfInt (i : Int) : Word := BitVec.ofInt 16 i

/-- A 32-bit quantity as two words, high word first (R183). -/
def words32 (n : Nat) : List Word := [wordOfNat (n / 65536), wordOfNat n]

/-- The 32-bit quantity of two words, high word first (R183). -/
def nat32 (hi lo : Word) : Nat := hi.toNat * 65536 + lo.toNat

/-- An epoch as three words, high word first (R183). -/
def words48 (e : BitVec 48) : List Word :=
  [wordOfNat (e.toNat / 4294967296), wordOfNat (e.toNat / 65536), wordOfNat e.toNat]

/-- The epoch of three words, high word first (R183). -/
def epochOf (a b c : Word) : BitVec 48 := BitVec.ofNat 48 ((a.toNat * 65536 + b.toNat) * 65536 + c.toNat)

/-- A mark as one word, 1 when set (log 15). -/
def markWord (b : Bool) : Word := if b then 1 else 0

/-- An optional one-word value: a presence word, then the value or 0 (R183). -/
def optWords : Option Nat → List Word
  | none => [0, 0]
  | some n => [1, wordOfNat n]

/-- An optional signed value (R183). -/
def optIntWords : Option Int → List Word
  | none => [0, 0]
  | some i => [1, wordOfInt i]

/-- An optional 32-bit value (R183). -/
def opt32Words : Option Nat → List Word
  | none => [0, 0, 0]
  | some n => 1 :: words32 n

/-- The sum of words modulo 65536, the check of a frame or of an answer (R43, R169, R171). -/
def checkSum (ws : List Word) : Word := ws.foldl (· + ·) 0

/-- The check word of a call frame agrees with its preceding words (R170). -/
def frameCheckOk (f : Frame) (code : Word) : Bool :=
  decide (f.check = checkSum (code :: wordOfNat f.operands.length :: f.operands))

/-- A presence word: 0 absent, 1 present, else no presence word (R183). -/
def presenceOf (w : Word) : Option Bool :=
  if w = 0 then some false else if w = 1 then some true else none

/-- The members below `n` of a set word (R183). -/
def setMembers (n : Nat) (w : Word) : List Nat := (List.range n).filter (fun b => w.getLsbD b)

/-- A set word with no bits beyond its `n` members (R183). -/
def setOk (n : Nat) (w : Word) : Bool := decide (w.toNat < 2 ^ n)

/-- The set word of members (R183). -/
def setWord (ms : List Nat) : Word := ms.foldl (fun w b => w ||| ((1 : Word) <<< b)) 0

/-! ### Named values, by their place in their field's list (R183) -/

def Status.word : Status → Word
  | .ok => 0x0001
  | .starting => 0x0002
  | .notOpen => 0x0003
  | .badCheck => 0x0004
  | .badLength => 0x0005
  | .unknownCall => 0x0006
  | .notPermitted => 0x0007
  | .locked => 0x0008
  | .jobBusy => 0x0009
  | .badValue => 0x000A
  | .queueFull => 0x000B
  | .recordBusy => 0x000C
  | .noHead => 0x000D
  | .indexFull => 0x000E
  | .poolFull => 0x000F
  | .noRecord => 0x0010
  | .tilePlaced => 0x0011
  | .settingsBusy => 0x0012
  | .noSelection => 0x0013
  | .wallLive => 0x0014
  | .routeConflict => 0x0015
  | .notPlaced => 0x0016
  | .tooLate => 0x0017
  | .noJob => 0x0018
  | .historyEmpty => 0x0019
  | .stale => 0x001A
  | .badPart => 0x001B

def linkWord : Link → Word
  | .pl => 0
  | .dl => 1
  | .sl => 2

def BitOrder.word : BitOrder → Word
  | .msbFirst => 0
  | .lsbFirst => 1

def BitOrder.ofWord (w : Word) : Option BitOrder :=
  if w = 0 then some .msbFirst else if w = 1 then some .lsbFirst else none

def CheckSetting.word : CheckSetting → Word
  | .on => 0
  | .off => 1

def CheckSetting.ofWord (w : Word) : Option CheckSetting :=
  if w = 0 then some .on else if w = 1 then some .off else none

def RecStatus.word : RecStatus → Word
  | .ok => 0
  | .provisional => 1
  | .damaged => 2

def Presence.word (p : Presence) : Word :=
  setWord ((if p.survey then [0] else []) ++ (if p.drift then [1] else []) ++ (if p.trim then [2] else []))

def Direction.word : Direction → Word
  | .right => 0
  | .left => 1
  | .up => 2
  | .down => 3

def Direction.ofWord (w : Word) : Option Direction :=
  match w.toNat with
  | 0 => some .right
  | 1 => some .left
  | 2 => some .up
  | 3 => some .down
  | _ => none

def TurnStyle.ofWord (w : Word) : Option TurnStyle :=
  if w = 0 then some .serpentine else if w = 1 then some .return else none

def CadenceSource.word : CadenceSource → Word
  | .base => 0
  | .frame => 1

def CadenceSource.ofWord (w : Word) : Option CadenceSource :=
  if w = 0 then some .base else if w = 1 then some .frame else none

/-- Run-at-start, "yes or no" (R82): yes 0, no 1. -/
def yesNoWord (b : Bool) : Word := if b then 0 else 1

def yesNoOf (w : Word) : Option Bool :=
  if w = 0 then some true else if w = 1 then some false else none

def Polarity.word : Polarity → Word
  | .rising => 0
  | .falling => 1

def Polarity.ofWord (w : Word) : Option Polarity :=
  if w = 0 then some .rising else if w = 1 then some .falling else none

def Orientation.word : Orientation → Word
  | .normal => 0
  | .turned => 1

def Cause.place : Cause → Nat
  | .noRecord => 0
  | .damaged => 1
  | .noSpace => 2

def PosState.place : PosState → Nat
  | .empty => 0
  | .placed => 1
  | .unrecorded => 2
  | .duplicate => 3

def Source.word : Source → Word
  | .record => 0
  | .default => 1

def BranchState.word : BranchState → Word
  | .idle => 0
  | .calling => 1
  | .starting => 2
  | .sweeping => 3
  | .ready => 4
  | .gathering => 5
  | .fault => 6

def OrderKind.word : OrderKind → Word
  | .rollCall => 0
  | .sweep => 1
  | .gather => 2

def Originator.place : Originator → Nat
  | .hang .pl => 0
  | .hang .dl => 0
  | .hang .sl => 1
  | .drift => 2
  | .sweepNow => 3

def TimerState.word : TimerState → Word
  | .stopped => 0
  | .running => 1
  | .stopping => 2

def FrameState.word : FrameState → Word
  | .running => 0
  | .lost => 1

def Policy.word : Policy → Word
  | .record => 0
  | .default => 1

def Policy.ofWord (w : Word) : Option Policy :=
  if w = 0 then some .record else if w = 1 then some .default else none

def JobFields.kindWord : JobFields → Word
  | .none => 0
  | .write _ _ _ _ _ => 1
  | .erase _ _ => 2
  | .audit _ _ _ _ _ => 3
  | .hang _ _ _ _ _ => 4
  | .save _ _ => 5

def JobState.word : JobState → Word
  | .none => 0
  | .running => 1
  | .done => 2
  | .donePartial => 3
  | .failed => 4
  | .abandoned => 5

def ResultCode.word : ResultCode → Word
  | .none => 0
  | .verifyFailed => 1
  | .poolFull => 2
  | .revisionExhausted => 3

def WritePhase.word : WritePhase → Word
  | .cells => 0
  | .chain => 1
  | .swap => 2

def HangPhase.word : HangPhase → Word
  | .calling => 0
  | .recording => 1
  | .posting => 2
  | .posted => 3

def CallOutcome.word : CallOutcome → Word
  | .toQueue => 0
  | .queued => 1
  | .waitingIdle => 2
  | .reported => 3
  | .failed _ => 4

def FailCause.place : FailCause → Nat
  | .badAnswer => 0
  | .broken => 1
  | .branchFault => 2

def CallOutcome.cause : CallOutcome → Option Nat
  | .failed c => some c.place
  | .toQueue => none
  | .queued => none
  | .waitingIdle => none
  | .reported => none

/-! ### Blocks of reply words (R183) -/

/-- Correction block, 14 words. -/
def Correction.words (c : Correction) : List Word :=
  [c.gR, c.gG, c.gB, c.xRG, c.xRB, c.xGR, c.xGB, c.xBR, c.xBG, c.tL, c.tR, c.tT, c.tB, c.level].map wordOfInt

/-- Global vector block, 4 words. -/
def GlobalVector.words (v : GlobalVector) : List Word := [v.level, v.r, v.g, v.b].map wordOfInt

/-- State-and-flags word. -/
def stateFlagsWord (st : PosState) (f : PosFlags) : Word :=
  wordOfNat (st.place + (if f.pending then 4 else 0) + (if f.mute then 8 else 0) + (if f.clamped then 16 else 0))

/-- Digest or span entry, 16 words. -/
def DigestEntry.words (e : DigestEntry) : List Word :=
  wordOfNat e.position :: stateFlagsWord e.state e.flags :: e.applied.words

def Gains.words (g : Gains) : List Word := [g.r, g.g, g.b].map wordOfInt

def Matrix.words (m : Matrix) : List Word :=
  [m.gR, m.gG, m.gB, m.xRG, m.xRB, m.xGR, m.xGB, m.xBR, m.xBG].map wordOfInt

def DriftCoef.words (d : DriftCoef) : List Word := [d.kR, d.kG, d.kB, d.tref, d.aR, d.aG, d.aB].map wordOfInt

def Trims.words (t : Trims) : List Word := [t.tL, t.tR, t.tT, t.tB].map wordOfInt

def HangCounts.words (c : HangCounts) : List Word :=
  [c.placed, c.moved, c.strangers, c.provisional, c.unrecorded, c.duplicates, c.excess, c.short].map wordOfNat

/-- The words of one masked branch in a HANG's fields: outcome, cause or none, over-128 mark (R173; log 15). -/
def BranchReport.words (b : BranchReport) : List Word :=
  b.outcome.word :: (optWords b.outcome.cause ++ [markWord b.over128])

/-- The kind-specific fields of a job record (R173; log 15). Cells written are those of a good verify and those retired:
every cell write that has completed (01, the worked write of a record). -/
def JobFields.words : JobFields → List Word
  | .none => []
  | .write tag phase good retired revision =>
    words32 tag ++ [phase.word, wordOfNat (good + retired), wordOfNat retired] ++ opt32Words revision
  | .erase tag freed => words32 tag ++ optWords freed
  | .audit last checked damaged skipped retired =>
    words32 last ++ [wordOfNat checked, wordOfNat damaged, wordOfNat skipped] ++ optWords retired
  | .hang ramp policy phase branches counts =>
    [setWord (branches.map BranchReport.branch), wordOfNat ramp, policy.word, phase.word] ++
      branches.flatMap BranchReport.words ++ counts.words
  | .save written rewrites => [wordOfNat written, wordOfNat rewrites]

/-- A job record: kind, state, result code, committed mark, fields (R172, R173). -/
def JobRecord.words (r : JobRecord) : List Word :=
  [r.fields.kindWord, r.state.word, r.result.word, markWord r.committed] ++ r.fields.words

/-- A named value of two, off 0 and on 1, as "off or on" lists them (R183). -/
def onWord (b : Bool) : Word := if b then 1 else 0

/-- The words of a whole reply frame (R171): status, word count, words, and the check when it is on. -/
def Reply.frame (r : Reply) : List Word :=
  let body := r.status.word :: wordOfNat r.words.length :: r.words
  match r.terms.check with
  | .on => body ++ [checkSum body]
  | .off => body

/-! ### Bits on the wire (R165) -/

/-- The number of the bit of a word that goes over the wire as its `k`-th, from 0: bit 15 or bit 0 first (R165). -/
def BitOrder.place : BitOrder → Nat → Nat
  | .msbFirst, k => 15 - k
  | .lsbFirst, k => k

/-- The sixteen bits of a word in the order they are clocked (R165). -/
def wireBits (o : BitOrder) (w : Word) : List Bool := (List.range 16).map (fun k => w.getLsbD (o.place k))

/-- The word whose sixteen bits were clocked in this order (R165). -/
def wireWord (o : BitOrder) (bits : List Bool) : Word :=
  setWord (((List.range 16).filter (fun k => bits.getD k false)).map o.place)

/-- What LDO carries in the current word: the word of the staged reply that is due, in the bit order of the terms it was
formed in, else 0000 (R165, R171). -/
def Port.ldo (p : Port) : List Bool :=
  match p.slot with
  | none => wireBits p.terms.order 0
  | some r => wireBits r.terms.order (r.frame.getD r.clocked 0)

/-! ### Ranges (00 1.5, R4) -/

/-- The value lies in its range. -/
def inRange (lo hi i : Int) : Bool := decide (lo ≤ i ∧ i ≤ hi)

def Gains.ok (g : Gains) : Bool := inRange 0 4095 g.r && inRange 0 4095 g.g && inRange 0 4095 g.b

def DriftCoef.ok (d : DriftCoef) : Bool :=
  inRange (-300) 300 d.kR && inRange (-300) 300 d.kG && inRange (-300) 300 d.kB && inRange (-400) 1250 d.tref &&
    inRange (-500) 500 d.aR && inRange (-500) 500 d.aG && inRange (-500) 500 d.aB

def Trims.ok (t : Trims) : Bool :=
  inRange (-128) 127 t.tL && inRange (-128) 127 t.tR && inRange (-128) 127 t.tT && inRange (-128) 127 t.tB

/-! ### Operand forms of the calls (R183). `none` is an operand word that is no value of its field: BAD_VALUE
before every other check of the call. -/

/-- Three gains from words. -/
def gainsOf (r g b : Word) : Gains := { r := (r.toNat : Int), g := (g.toNat : Int), b := (b.toNat : Int) }

/-- TERMS: bit order, check setting (R168). -/
def parseTerms : List Word → Option Terms
  | [o, c] => match BitOrder.ofWord o, CheckSetting.ofWord c with
    | some o, some c => some { order := o, check := c }
    | _, _ => none
  | _ => none

/-- An optional unsigned operand. After presence 0 the value word is not looked at, 0 or not and in its range or not:
the model's choice (log 46). -/
def optNatOf (p v : Word) : Option (Option Nat) :=
  match presenceOf p with
  | some true => some (some v.toNat)
  | some false => some none
  | none => none

/-- An optional signed operand. After presence 0 the value word is not looked at: the model's choice (log 46). -/
def optIntOf (p v : Word) : Option (Option Int) :=
  match presenceOf p with
  | some true => some (some v.toInt)
  | some false => some none
  | none => none

/-- SET GLOBAL: ramp, then master level, white point index, scene trims R, G, B, each optional (R112). -/
def parseSetGlobal : List Word → Option (Nat × IntentOps)
  | [ramp, pm, m, pw, w, pr, r, pg, g, pb, b] =>
    match optNatOf pm m, optNatOf pw w, optIntOf pr r, optIntOf pg g, optIntOf pb b with
    | some m, some w, some r, some g, some b =>
      some (ramp.toNat, { master := m, white := w, trimR := r, trimG := g, trimB := b })
    | _, _, _, _, _ => none
  | _ => none

/-- OVERRIDE: position index, level or CLEAR, ramp (R115). That CLEAR is presence word 0 before the level's word, so that
n is 4 either way, is the model's choice (log 45). -/
def parseOverride : List Word → Option (Nat × Option Nat × Nat)
  | [i, p, v, ramp] => match optNatOf p v with
    | some level => some (i.toNat, level, ramp.toNat)
    | none => none
  | _ => none

/-- SET DRIFT PARAMETERS: depth, deadband, budget, drift ramp, each optional (R98). -/
def parseDriftParameters : List Word → Option (Option Nat × Option Nat × Option Nat × Option Nat)
  | [pk, k, pd, d, pb, b, pr, r] =>
    match optNatOf pk k, optNatOf pd d, optNatOf pb b, optNatOf pr r with
    | some k, some d, some b, some r => some (k, d, b, r)
    | _, _, _, _ => none
  | _ => none

/-- SET CADENCE: source, prescaler, reload, run-at-start (R87). -/
def parseCadence : List Word → Option (CadenceSource × Nat × Nat × Bool)
  | [s, p, r, y] => match CadenceSource.ofWord s, yesNoOf y with
    | some s, some y => some (s, p.toNat, r.toNat, y)
    | _, _ => none
  | _ => none

/-- SET ROUTE: branch, then a route or CLEAR (R31). That CLEAR is presence word 0 before the route's seven words, so that
n is 9 either way, is the model's choice (log 45), and so is that those words are then not looked at (log 46). -/
def parseRoute : List Word → Option (Nat × Option Route)
  | [b, p, sc, sr, f, a, l, t, n] => match presenceOf p with
    | some false => some (b.toNat, none)
    | some true => match Direction.ofWord f, Direction.ofWord a, TurnStyle.ofWord t with
      | some f, some a, some t =>
        some (b.toNat, some { startCol := sc.toNat, startRow := sr.toNat, first := f, advance := a
                              runLength := l.toNat, style := t, expected := n.toNat })
      | _, _, _ => none
    | none => none
  | _ => none

/-- SET BATCH DEFAULT: batch code, base gains, kR, kG, kB, Tref, aR, aG, aB (R114). -/
def parseBatch : List Word → Option (Nat × BatchDefault)
  | [c, gr, gg, gb, kr, kg, kb, t, ar, ag, ab] =>
    some (c.toNat, { base := gainsOf gr gg gb
                     coef := { kR := kr.toInt, kG := kg.toInt, kB := kb.toInt, tref := t.toInt
                               aR := ar.toInt, aG := ag.toInt, aB := ab.toInt } })
  | _ => none

/-- HANG: branch mask, hang ramp, stranger policy (R67). -/
def parseHang : List Word → Option (List Nat × Nat × Policy)
  | [m, r, p] => match setOk 4 m, Policy.ofWord p with
    | true, some p => some (setMembers 4 m, r.toNat, p)
    | _, _ => none
  | _ => none

/-- A tag operand (R183). -/
def parseTag : List Word → Option Nat
  | [hi, lo] => some (nat32 hi lo)
  | _ => none

/-! ### WRITE RECORD's lists (R12, R183) -/

/-- A group of the set list, as the words give it. -/
inductive SetItem where
  | head (batch : Nat) (base : Gains)
  | survey (count : Nat) (terms : List Word)
  | drift (d : DriftCoef)
  | trim (t : Trims)
  deriving DecidableEq, Repr

def SetItem.kind : SetItem → CellKind
  | .head _ _ => .head
  | .survey _ _ => .survey
  | .drift _ => .drift
  | .trim _ => .trim

/-- Reading lists of words: they run out, or meet a group word outside its list, or give a value and a rest. -/
inductive Parse (α : Type) where
  | short
  | outside
  | ok (a : α) (rest : List Word)
  deriving DecidableEq, Repr

/-- The content of one set-list group after its group word. -/
def parseItem (group : Word) (ws : List Word) : Parse SetItem :=
  match group.toNat, ws with
  | 0, b :: r :: g :: l :: rest => .ok (.head b.toNat (gainsOf r g l)) rest
  | 1, c :: rest =>
    if rest.length < c.toNat then .short else .ok (.survey c.toNat (rest.take c.toNat)) (rest.drop c.toNat)
  | 2, kr :: kg :: kb :: t :: ar :: ag :: ab :: rest =>
    .ok (.drift { kR := kr.toInt, kG := kg.toInt, kB := kb.toInt, tref := t.toInt
                  aR := ar.toInt, aG := ag.toInt, aB := ab.toInt }) rest
  | 3, l :: r :: t :: b :: rest =>
    .ok (.trim { tL := l.toInt, tR := r.toInt, tT := t.toInt, tB := b.toInt }) rest
  | n, _ => if n < 4 then .short else .outside

/-- The set list: `n` groups, each preceded by its group word. -/
def parseSetList : Nat → List Word → Parse (List SetItem)
  | 0, ws => .ok [] ws
  | _ + 1, [] => .short
  | n + 1, g :: ws =>
    match parseItem g ws with
    | .short => .short
    | .outside => .outside
    | .ok item rest =>
      match parseSetList n rest with
      | .short => .short
      | .outside => .outside
      | .ok items rest' => .ok (item :: items) rest'

/-- A group word of the remove list: SURVEY, DRIFT or TRIM. -/
def removeKind (w : Word) : Option CellKind :=
  match w.toNat with
  | 1 => some .survey
  | 2 => some .drift
  | 3 => some .trim
  | _ => none

/-- The remove list: `n` group words. -/
def parseRemoveList : Nat → List Word → Parse (List CellKind)
  | 0, ws => .ok [] ws
  | _ + 1, [] => .short
  | n + 1, w :: ws =>
    match removeKind w with
    | none => .outside
    | some k =>
      match parseRemoveList n ws with
      | .short => .short
      | .outside => .outside
      | .ok ks rest => .ok (k :: ks) rest

/-- WRITE RECORD's operands (R12). -/
structure WriteOps where
  tag : Nat
  sets : List SetItem
  removes : List CellKind
  deriving DecidableEq, Repr

/-- WRITE RECORD: tag, set list, remove list; `ok` holds the words left over. -/
def parseWrite : List Word → Parse WriteOps
  | hi :: lo :: n :: ws =>
    match parseSetList n.toNat ws with
    | .short => .short
    | .outside => .outside
    | .ok _ [] => .short
    | .ok items (m :: rest) =>
      match parseRemoveList m.toNat rest with
      | .short => .short
      | .outside => .outside
      | .ok ks rest' => .ok { tag := nat32 hi lo, sets := items, removes := ks } rest'
  | _ => .short

/-- The length step of R170 for WRITE RECORD: the lists take exactly the operand words; a group word outside
its list lets the step pass. -/
def writeLengthOk (ws : List Word) : Bool :=
  match parseWrite ws with
  | .short => false
  | .outside => true
  | .ok _ rest => rest.isEmpty

/-! ### Branch words (R43, R44) -/

/-- The header word of an order and of its echo (R44). -/
def headerWord (k : OrderKind) (serial : Nat) : Word :=
  match k with
  | .rollCall => 0
  | .sweep => wordOfNat (1 + 4 * serial)
  | .gather => wordOfNat (2 + 4 * serial)

/-- The word of a done report (R44). -/
def doneWord (serial : Nat) : Word := wordOfNat (3 + 4 * serial)

/-- A roll call answer that is good (R44, R51), less its chain index: tag, batch code, orientation. -/
def rollAnswerOf : List Word → Option (Nat × Nat × Orientation)
  | [lead, hi, lo, bw, check] =>
    let tag := nat32 hi lo
    let batch := bw.toNat % 256
    let orient := bw.toNat / 256 % 4
    if lead = 1 ∧ check = checkSum [lead, hi, lo, bw] ∧ tag ≠ 0 ∧ batch ≤ 15 ∧ orient ≤ 1 then
      some (tag, batch, if orient = 0 then .normal else .turned)
    else none
  | _ => none

/-- A gather answer that is good (R44, R57). -/
def sampleOf : List Word → Option Sample
  | [lead, hi, lo, t, h, m, check] =>
    let tag := nat32 hi lo
    if lead = 1 ∧ check = checkSum [lead, hi, lo, t, h, m] ∧ tag ≠ 0 ∧ inRange (-400) 1250 t.toInt then
      some { tag := tag, temp := t.toInt, hours := h.toNat, fresh := m.getLsbD 0 }
    else none
  | _ => none

end Sys2Proof.Machine
end

