-- ==== Sys2Proof/Machine/Flags.lean ====
section
/-! DEFINITION. Flags: the notice flags and the NOTICE line of a port (R175 to R177), the port's own marks and
counters, and the flags of a wall position (R37). -/
namespace Sys2Proof.Machine

/-- The bit of a notice in the notice set word (R183). -/
def Notice.bit : Notice → Nat
  | .epochReady => 0
  | .digestMissed => 1
  | .frameLost => 2
  | .settingsLost => 3
  | .jobDone => 4
  | .sweepClash => 5
  | .sweepTimeout => 6
  | .branchFault => 7
  | .tileMute => 8
  | .stranger => 9
  | .poolLow => 10
  | .cellRetired => 11
  | .recordDamaged => 12
  | .historyOverrun => 13
  | .historyEmpty => 14
  | .cycleOverrun => 15

/-- The set word that names one notice. -/
def Notice.word (n : Notice) : BitVec 16 := (1 : BitVec 16) <<< n.bit

/-- The port with a notice flag set (R175). -/
def Port.raise (n : Notice) (p : Port) : Port := { p with flags := p.flags ||| n.word }

/-- The NOTICE line: high while a set flag is unmasked (R177). -/
def Port.noticeLine (p : Port) : Bool := decide (p.flags &&& ~~~p.mask ≠ 0)

/-- A counter's next value, saturating at 65535 (R89, R166). -/
def satSucc (n : Nat) : Nat := if n < Config.counterMax then n + 1 else Config.counterMax

/-- The port is open: IDLE or REPLY_PENDING (R166). -/
def PortState.isOpen : PortState → Bool
  | .starting => false
  | .down => false
  | .idle => true
  | .replyPending => true

/-- The state of a position (R32). -/
def Hung.state : Hung → PosState
  | .empty => .empty
  | .placed _ => .placed
  | .unrecorded _ _ => .unrecorded
  | .duplicate _ => .duplicate

/-- The tile a position shows, whether or not it occupies it (R34). -/
def Hung.tile : Hung → Option TileAt
  | .empty => none
  | .placed t => some t
  | .unrecorded t _ => some t
  | .duplicate t => some t

/-- The tile that occupies a position (R34). -/
def Hung.occupant : Hung → Option TileAt
  | .empty => none
  | .placed t => some t
  | .unrecorded t _ => some t
  | .duplicate _ => none

/-- The cause of UNRECORDED (R35). -/
def Hung.cause : Hung → Option Cause
  | .empty => none
  | .placed _ => none
  | .unrecorded _ c => some c
  | .duplicate _ => none

/-- The tag that occupies a position. -/
def Hung.tag (h : Hung) : Option Nat := h.occupant.map TileAt.tag

/-- The tag a position shows, whether or not it occupies it (R32, R34). -/
def Hung.shown (h : Hung) : Option Nat := h.tile.map TileAt.tag

/-- The Tile Status entry of a tag (R39). -/
def statusOf (tiles : List TileStatus) (tag : Nat) : Option TileStatus := tiles.find? (fun t => t.tag == tag)

/-- The MUTE flag of a position: the occupying tag's miss count is 3 (R37; log 23). -/
def muteFlag (tiles : List TileStatus) (h : Hung) : Bool :=
  match h.tag with
  | none => false
  | some tag => match statusOf tiles tag with
    | none => false
    | some st => decide (st.miss = 3)

/-- The flags of a position as spans and digest entries show them (R157). -/
def Position.flags (tiles : List TileStatus) (p : Position) : PosFlags :=
  { pending := p.pending, mute := muteFlag tiles p.hung, clamped := p.clamped }

/-- A position as a digest or span entry shows it (R133, R157). -/
def Position.entry (tiles : List TileStatus) (i : Nat) (p : Position) : DigestEntry :=
  { position := i, applied := p.applied, state := p.hung.state, flags := p.flags tiles }

end Sys2Proof.Machine
end

