-- ==== Sys2Proof/Machine/Ops.lean ====
section
/-! DEFINITION. The named operations every meaning is built from: ports and replies (R170, R171), notices, sorted
tables, the Cell Pool (R1, R2, R11), the Tag Index (R6), tag locks (R7), the NV Port's queue (R9), positions and
tags (R34), adoption (R102, R103), the pending test (R105), target computation (R107 to R110). -/
namespace Sys2Proof.Machine

/-! ### Ports and notices -/

/-- The port of a link. -/
def State.port (s : State) : Link → Port
  | .pl => s.pl
  | .dl => s.dl
  | .sl => s.sl

/-- The state with one port replaced. -/
def State.setPort (s : State) (l : Link) (p : Port) : State :=
  match l with
  | .pl => { s with pl := p }
  | .dl => { s with dl := p }
  | .sl => { s with sl := p }

/-- A notice raised on one link, in every port state and whatever the mask (R175). -/
def State.raise (s : State) (l : Link) (n : Notice) : State := s.setPort l ((s.port l).raise n)

/-- A notice raised on DL and SL. -/
def State.raiseDlSl (s : State) (n : Notice) : State := (s.raise .dl n).raise .sl n

/-- A notice raised on PL, DL and SL. -/
def State.raiseAll (s : State) (n : Notice) : State := (s.raiseDlSl n).raise .pl n

/-- A reply still in the slot is discarded at the event the next call is taken (R171). -/
def Port.discardOld (p : Port) : Port :=
  match p.slot with
  | none => p
  | some _ =>
    { p with slot := none, discardedMark := true
             counters := { p.counters with discarded := satSucc p.counters.discarded } }

/-- A reply staged in the terms in force: READY rises, and an open port is REPLY_PENDING (R171). -/
def Port.stage (p : Port) (st : Status) (ws : List Word) : Port :=
  { p with slot := some { status := st, words := ws, terms := p.terms, clocked := 0 }
           ready := true
           state := if p.state.isOpen then .replyPending else p.state }

/-- A call accepted: the calls taken counter (R170). -/
def Port.countTaken (p : Port) : Port :=
  { p with counters := { p.counters with taken := satSucc p.counters.taken } }

/-- A call refused at one of the steps 1 to 6 of R170. -/
def Port.countRefused (p : Port) : Port :=
  { p with counters := { p.counters with refused := satSucc p.counters.refused } }

def Port.countBadCheck (p : Port) : Port :=
  { p with counters := { p.counters with badChecks := satSucc p.counters.badChecks } }

def Port.countBadLength (p : Port) : Port :=
  { p with counters := { p.counters with badLengths := satSucc p.counters.badLengths } }

def Port.countPartial (p : Port) : Port :=
  { p with counters := { p.counters with partialFrames := satSucc p.counters.partialFrames } }

/-- A reply staged on a link. -/
def State.reply (s : State) (l : Link) (st : Status) (ws : List Word) : State :=
  s.setPort l ((s.port l).stage st ws)

/-! ### Calls -/

/-- What the catalogue says of a call: its code (R184), the links that may send it, whether it starts a job and
whether the show lock refuses it on SL (10.5). -/
structure CallRow where
  code : Word
  pl : Bool
  dl : Bool
  sl : Bool
  job : Bool
  locked : Bool
  deriving DecidableEq, Repr

/-- The links a call is permitted on. -/
def CallRow.permits (c : CallRow) : Link → Bool
  | .pl => c.pl
  | .dl => c.dl
  | .sl => c.sl

/-- How a call's own checks end: a refusal, an acceptance with its reply and the state after its effect, or an
acceptance whose effect has staged the reply itself (LINK RESET, R179). -/
inductive Answer where
  | refuse (st : Status) (ws : List Word)
  | accept (st : Status) (ws : List Word) (s : State)
  | staged (s : State)

/-- The refusal of steps 1 to 6 of R170, if any. -/
def linkRefusal (c : CallRow) (lengthOk : List Word → Bool) (l : Link) (f : Frame) (s : State) : Option Status :=
  let p := s.port l
  if p.terms.check = .on ∧ frameCheckOk f c.code = false then some .badCheck
  else if lengthOk f.operands = false then some .badLength
  else if c.permits l = false then some .notPermitted
  else if l = .sl ∧ s.showLock = true ∧ c.locked = true then some .locked
  else if c.job = true ∧ p.job.isSome = true then some .jobBusy
  else none

/-- A port after a refusal by the link checks: the counters of R170 and the reply, of word count 0. -/
def Port.refuseLink (p : Port) (st : Status) : Port :=
  let p := match st with
    | .badCheck => p.countBadCheck
    | .badLength => p.countBadLength
    | _ => p
  p.countRefused.stage st []

/-- A call judged in an open state, or TERMS in DOWN: link checks, then its own (R170). The reply is formed
after the call's effect on the port, so that TERMS answers in its new terms (R168). -/
def judge (c : CallRow) (lengthOk : List Word → Bool) (own : State → Answer) (l : Link) (f : Frame) (s : State) :
    State :=
  match linkRefusal c lengthOk l f s with
  | some st => s.setPort l ((s.port l).refuseLink st)
  | none =>
    match own (s.setPort l (s.port l).countTaken) with
    | .refuse st ws => s.reply l st ws
    | .accept st ws s' => s'.reply l st ws
    | .staged s' => s'

/-- The receiver meets an operand count above 320 (R169): BAD_LENGTH is staged, and words are discarded until the
next idle gap. -/
def oversize (l : Link) (s : State) : State :=
  let p := (s.port l).discardOld.countBadLength
  s.setPort l { p.stage .badLength [] with receiver := .discarding, wordBits := [] }

/-- A complete call frame with this code taken on a link (R167, R169, R170, R171): in STARTING it is answered
STARTING, in DOWN NOT_OPEN or BAD_CHECK, and in an open state `judged` judges it; TERMS (`opensDown`) is judged in
DOWN too. An unpowered or discarding port takes nothing. -/
def takeFrame (code : Word) (opensDown : Bool) (judged : State → State) (l : Link) (f : Frame) (s : State) : State :=
  if s.power = .off ∨ (s.port l).receiver = .discarding then s
  else if Config.maxOperands < f.operands.length then oversize l s
  else
    let s := s.setPort l { (s.port l).discardOld with receiver := .betweenFrames, wordBits := [] }
    match (s.port l).state with
    | .starting => s.reply l .starting []
    | .down =>
      if opensDown then judged s
      else if frameCheckOk f code then s.reply l .notOpen []
      else s.setPort l ((s.port l).refuseLink .badCheck)
    | .idle => judged s
    | .replyPending => judged s

/-- A complete frame of a catalogue call taken on a link. -/
def takeCall (c : CallRow) (opensDown : Bool) (lengthOk : List Word → Bool) (own : State → Answer) (l : Link)
    (f : Frame) (s : State) : State :=
  takeFrame c.code opensDown (judge c lengthOk own l f) l f s

/-- The length step of R170 for a call whose operands take `n` words. -/
def hasLength (n : Nat) (ws : List Word) : Bool := decide (ws.length = n)

/-! ### Sorted tables -/

/-- The value a table lists for a key. -/
def mapGet {α : Type} (k : Nat) : List (Nat × α) → Option α
  | [] => none
  | (j, v) :: rest => if j = k then some v else mapGet k rest

/-- The table with `v` listed for `k`, keys rising. -/
def mapSet {α : Type} (k : Nat) (v : α) : List (Nat × α) → List (Nat × α)
  | [] => [(k, v)]
  | (j, w) :: rest =>
    if k < j then (k, v) :: (j, w) :: rest else if j = k then (k, v) :: rest else (j, w) :: mapSet k v rest

/-- The table with nothing listed for `k`. -/
def mapErase {α : Type} (k : Nat) (m : List (Nat × α)) : List (Nat × α) := m.filter (fun e => decide (e.1 ≠ k))

/-- A set of numbers, rising, with one more member. -/
def insertAsc (n : Nat) : List Nat → List Nat
  | [] => [n]
  | m :: ms => if n < m then n :: m :: ms else if n = m then m :: ms else m :: insertAsc n ms

/-- A set of numbers, rising, with more members. -/
def insertAll (ns ms : List Nat) : List Nat := ns.foldl (fun acc n => insertAsc n acc) ms

/-- A set of numbers less one. -/
def removeNat (n : Nat) (ms : List Nat) : List Nat := ms.filter (fun m => decide (m ≠ n))

/-- The list with its entry at `i` changed. -/
def updateAt {α : Type} (f : α → α) : Nat → List α → List α
  | _, [] => []
  | 0, x :: xs => f x :: xs
  | n + 1, x :: xs => x :: updateAt f n xs

/-- The entry of the Chain Table for a cell; an unlisted entry is FREE (R3). -/
def chainOf (m : List (Nat × ChainEntry)) (cell : Nat) : ChainEntry :=
  match mapGet cell m with
  | none => .free
  | some e => e

/-- The Chain Table with an entry written; FREE is not listed. -/
def chainSet (cell : Nat) (e : ChainEntry) (m : List (Nat × ChainEntry)) : List (Nat × ChainEntry) :=
  match e with
  | .free => mapErase cell m
  | .next n => mapSet cell (.next n) m
  | .last => mapSet cell .last m
  | .retired => mapSet cell .retired m

/-! ### Jobs, locks, reservations, claims -/

/-- The state with a link's running job replaced. -/
def State.setJob (s : State) (l : Link) (j : Option Job) : State := s.setPort l { s.port l with job := j }

/-- The state with the work of a link's running job replaced. -/
def State.setWork (s : State) (l : Link) (w : JobWork) : State :=
  match (s.port l).job with
  | none => s
  | some j => s.setJob l (some { j with work := w })

/-- The record write a job runs: its own, or a hang's provisional write. -/
def JobWork.recWrite : JobWork → Option RecWrite
  | .write w => some w
  | .erase _ => none
  | .audit _ => none
  | .hang h => h.prov
  | .save _ => none

/-- The tag a job's work locks (R7). -/
def JobWork.lock : JobWork → Option Nat
  | .write w => some w.tag
  | .erase tag => some tag
  | .audit a => a.reading.map AuditRead.tag
  | .hang h => h.prov.map RecWrite.tag
  | .save _ => none

/-- The work of the running jobs, PL, DL, SL. -/
def State.works (s : State) : List JobWork :=
  (s.pl.job.map Job.work).toList ++ (s.dl.job.map Job.work).toList ++ (s.sl.job.map Job.work).toList

/-- Every record write in progress, an orphan swap included. -/
def State.recWrites (s : State) : List RecWrite := s.works.filterMap JobWork.recWrite ++ s.nvPort.orphan.toList

/-- The locked tags (R7; log 23). -/
def State.locks (s : State) : List Nat :=
  s.works.filterMap JobWork.lock ++ (s.nvPort.orphan.map RecWrite.tag).toList

/-- A job holds the tag's lock. -/
def State.isLocked (s : State) (tag : Nat) : Bool := s.locks.contains tag

/-- Index slots reserved (R6). -/
def State.reservations (s : State) : Nat := (s.recWrites.filter RecWrite.reserved).length

/-- The cells a write has claimed. -/
def RecWrite.claim (w : RecWrite) : List Nat := w.written ++ w.unwritten

/-- The four pool counts of R1. -/
def State.freeCount (s : State) : Nat := s.pool.free.length
def State.usedCount (s : State) : Nat := (s.pool.index.map (fun e => e.cells.length)).sum
def State.claimedCount (s : State) : Nat := (s.recWrites.map (fun w => w.claim.length)).sum
def State.retiredCount (s : State) : Nat := s.pool.retired.length

/-! ### The Cell Pool -/

/-- The POOL_LOW condition evaluated: raised on DL and SL when it goes from false to true (R11). -/
def State.evalLow (s : State) : State :=
  let now := decide (s.pool.free.length < s.settings.watermark)
  let s' := { s with pool := { s.pool with low := now } }
  if now = true ∧ s.pool.low = false then s'.raiseDlSl .poolLow else s'

/-- A change of the free list, which the watermark watches (R2, R11). -/
def State.setFree (s : State) (free : List Nat) : State := { s with pool := { s.pool with free := free } }.evalLow

/-- Cells released or freed: they rejoin the free list in order and their volatile entries read FREE (R2, R3). -/
def State.freeCells (s : State) (cells : List Nat) : State :=
  match cells with
  | [] => s
  | _ :: _ =>
    { s with pool := { s.pool with
        chain := s.pool.chain.filter (fun e => decide (e.1 ∉ cells))
        image := s.pool.image.filter (fun e => decide (e.1 ∉ cells)) } }.setFree (insertAll cells s.pool.free)

/-- The lowest `n` free cells leave the free list for a claim (R2). -/
def State.claimCells (s : State) (n : Nat) : State := s.setFree (s.pool.free.drop n)

/-! ### The Tag Index and records -/

/-- The index entry of a tag. -/
def State.findEntry (s : State) (tag : Nat) : Option IndexEntry := s.pool.index.find? (fun e => e.tag == tag)

/-- A Tag Index with an entry inserted or replaced, tags rising (R6). -/
def putEntry (e : IndexEntry) : List IndexEntry → List IndexEntry
  | [] => [e]
  | x :: xs => if e.tag < x.tag then e :: x :: xs else if e.tag = x.tag then e :: xs else x :: putEntry e xs

/-- The stored entries beside which the one of `tag` is put; `live` are the tags of the volatile index. The Tag Index
holds at most 512 records (R6): when 512 other tags are stored, the entry gets the place of the lowest of them that is not
in the volatile index, one a scan has dropped. That it stays stored until then is the model's choice (log 43). -/
def roomInNvIndex (tag : Nat) (live : List Nat) (l : List NvEntry) : List NvEntry :=
  if Config.maxRecords ≤ (l.filter (fun e => decide (e.tag ≠ tag))).length then
    l.eraseP (fun e => decide (e.tag ≠ tag) && !live.contains e.tag)
  else l

/-- The non-volatile Tag Index with an entry inserted or replaced, tags rising (R6). -/
def putNvEntry (e : NvEntry) : List NvEntry → List NvEntry
  | [] => [e]
  | x :: xs => if e.tag < x.tag then e :: x :: xs else if e.tag = x.tag then e :: xs else x :: putNvEntry e xs

/-- What one group adds to a record's content. -/
def Content.add (c : Content) : Group → Content
  | .head _ batch base _ => { c with batch := batch, base := base }
  | .survey m => { c with survey := some m }
  | .drift d => { c with drift := some d }
  | .trim t => { c with trim := some t }

/-- The content of a record as the volatile image holds it (R1, R4). -/
def State.content (s : State) (e : IndexEntry) : Content :=
  (e.cells.filterMap (fun c => mapGet c s.pool.image)).foldl Content.add
    { batch := 0, base := .unity, survey := none, drift := none, trim := none }

/-- The groups a record has. -/
def Content.presence (c : Content) : Presence :=
  { survey := c.survey.isSome, drift := c.drift.isSome, trim := c.trim.isSome }

/-- The groups of a record, in chain order (R4). -/
def Content.groups (tag : Nat) (c : Content) : List Group :=
  .head tag c.batch c.base c.presence ::
    ((c.survey.map Group.survey).toList ++ (c.drift.map Group.drift).toList ++ (c.trim.map Group.trim).toList)

/-- The record condition of a tag (R105). -/
inductive Condition where
  | usable (revision : Nat) (status : RecStatus)
  | damaged
  | absent
  deriving DecidableEq, Repr

/-- The record condition now. -/
def State.condition (s : State) (tag : Nat) : Condition :=
  match s.findEntry tag with
  | none => .absent
  | some e => match e.status with
    | .ok => .usable e.revision .ok
    | .provisional => .usable e.revision .provisional
    | .damaged => .damaged

/-! ### The NV Port's queue -/

/-- A job's request joins the queue (R9). -/
def State.request (s : State) (l : Link) (op : NvOp) : State :=
  { s with nvPort := { s.nvPort with waiting := s.nvPort.waiting ++ [{ link := l, op := op }] } }

/-- A job has ended: its waiting request is withdrawn, and the outcome of one in progress will be discarded
(R9). -/
def State.withdrawNv (s : State) (l : Link) : State :=
  { s with nvPort := { s.nvPort with
      waiting := s.nvPort.waiting.filter (fun r => decide (r.link ≠ l))
      current := s.nvPort.current.map (fun c => if c.req.link = l then { c with live := false } else c) } }

/-! ### Positions -/

/-- The number of positions, C x R (R28). -/
def State.positionCount (s : State) : Nat := s.settings.columns * s.settings.rows

/-- The place of the first entry that passes, counting from `i`. -/
def placeFrom {α : Type} (p : α → Bool) : Nat → List α → Option Nat
  | _, [] => none
  | i, x :: xs => if p x then some i else placeFrom p (i + 1) xs

/-- The position a tag occupies in a live map (R34). -/
def positionIn (live : List Position) (tag : Nat) : Option Nat :=
  placeFrom (fun p => decide (p.hung.tag = some tag)) 0 live

/-- The position a tag occupies (R34). -/
def State.positionOf (s : State) (tag : Nat) : Option Nat := positionIn s.positions tag

/-- The live map with one position changed. -/
def State.modPosition (s : State) (i : Nat) (f : Position → Position) : State :=
  { s with positions := updateAt f i s.positions }

/-- The positions with their indices. -/
def State.indexed (s : State) : List (Nat × Position) := (List.range s.positions.length).zip s.positions

/-! ### Adoption (R102, R103) -/

/-- The working Batch Default entry of a batch code. -/
def State.batchDefault (s : State) (batch : Nat) : BatchDefault := s.settings.batch.getD batch .factory

/-- The adopted copy taken from a record (R102). -/
def State.adoptRecord (s : State) (e : IndexEntry) : Adopted :=
  let c := s.content e
  { tag := e.tag, source := .record, revision := e.revision, batch := c.batch, base := c.base, survey := c.survey
    coef := match c.drift with
      | some d => d
      | none => (s.batchDefault c.batch).coef
    driftSource := match c.drift with
      | some _ => .drift
      | none => .batch
    trim := c.trim }

/-- The adopted copy taken from the batch default (R103). -/
def State.adoptDefault (s : State) (tag batch : Nat) : Adopted :=
  let d := s.batchDefault batch
  { tag := tag, source := .default, revision := 0, batch := batch, base := d.base, survey := none, coef := d.coef
    driftSource := .batch, trim := none }

/-! ### The pending test (R105) -/

/-- The pending reasons, in the order they are tested (R105). -/
inductive Reason where
  | newRevision | recordAvailable | recordAbsent | recordDamaged | batchChanged
  deriving DecidableEq, Repr

/-- The copy holds batch-derived values that differ from the working entry of its batch code. -/
def State.batchDiffers (s : State) (a : Adopted) : Bool :=
  let d := s.batchDefault a.batch
  (decide (a.source = .default) && decide (a.base ≠ d.base)) ||
    (decide (a.driftSource = .batch) && decide (a.coef ≠ d.coef))

/-- BATCH_CHANGED, the last reason. -/
def State.batchReason (s : State) (a : Adopted) : Option Reason :=
  if s.batchDiffers a then some .batchChanged else none

/-- The pending reason of an adopted copy (R105). -/
def State.reasonOf (s : State) (a : Adopted) : Option Reason :=
  match a.source, s.condition a.tag with
  | .record, .usable v _ => if v ≠ a.revision then some .newRevision else s.batchReason a
  | .default, .usable _ _ => some .recordAvailable
  | .record, .absent => some .recordAbsent
  | .record, .damaged => some .recordDamaged
  | .default, .absent => s.batchReason a
  | .default, .damaged => s.batchReason a

/-- The pending reason of a position; EMPTY and DUPLICATE positions have none. -/
def State.pendingReason (s : State) (p : Position) : Option Reason :=
  match p.hung.occupant, p.adopted with
  | some _, some a => s.reasonOf a
  | _, _ => none

/-- The PENDING flag of a position re-evaluated (R37, R106). -/
def State.refreshPending (s : State) (i : Nat) : State :=
  s.modPosition i (fun p => { p with pending := (s.pendingReason p).isSome })

/-- The PENDING flag re-evaluated at the position a tag occupies, after an index write for the tag (R37). -/
def State.refreshTag (s : State) (tag : Nat) : State :=
  match s.positionOf tag with
  | none => s
  | some i => s.refreshPending i

/-- The number of positions pending now (R116, R123). -/
def State.pendingCount (s : State) : Nat := (s.positions.filter (fun p => (s.pendingReason p).isSome)).length

/-! ### Target computation (R107 to R110) -/

/-- `num / den` rounded to the nearest integer, halves away from zero (00 1.5). -/
def roundDiv (num den : Int) : Int :=
  if 0 ≤ num then (2 * num + den) / (2 * den) else -((2 * (-num) + den) / (2 * den))

/-- The nearer end of the range for a value outside it (00 1.5). -/
def clampTo (lo hi i : Int) : Int := if i < lo then lo else if hi < i then hi else i

/-- A drift multiplier of R108, in millionths: 1000000 m_c. -/
def driftMillionths (k a tref : Int) (e : Option Int) (h : Option Nat) : Int :=
  let dt := match e with
    | none => 0
    | some e => e - tref
  let hours : Int := match h with
    | none => 0
    | some h => (h : Int)
  1000000 + 10 * k * dt + a * hours

/-- A matrix term multiplied, rounded and clamped, and whether it was clamped (R108). -/
def matrixTerm (lo hi term m : Int) : Int × Bool :=
  let v := roundDiv (term * m) 1000000
  (clampTo lo hi v, !inRange lo hi v)

/-- The source matrix of an adopted copy (R108). -/
def Adopted.matrix (a : Adopted) : Matrix :=
  match a.survey with
  | some m => m
  | none => { gR := a.base.r, gG := a.base.g, gB := a.base.b, xRG := 0, xRB := 0, xGR := 0, xGB := 0, xBR := 0
              xBG := 0 }

/-- The seam trims as a tile of this orientation takes them (R109). -/
def seamTrims (a : Adopted) (o : Orientation) : Trims :=
  match a.trim, o with
  | none, _ => { tL := 0, tR := 0, tT := 0, tB := 0 }
  | some t, .normal => t
  | some t, .turned => { tL := t.tR, tR := t.tL, tT := t.tB, tB := t.tT }

/-- The target of an occupied position and whether any term was clamped (R108, R109). -/
def occupiedTarget (a : Adopted) (o : Orientation) (override : Option Nat) (e : Option Int) (h : Option Nat) :
    Correction × Bool :=
  let m := a.matrix
  let mr := driftMillionths a.coef.kR a.coef.aR a.coef.tref e h
  let mg := driftMillionths a.coef.kG a.coef.aG a.coef.tref e h
  let mb := driftMillionths a.coef.kB a.coef.aB a.coef.tref e h
  let gR := matrixTerm 0 4095 m.gR mr
  let xRG := matrixTerm (-1024) 1023 m.xRG mr
  let xRB := matrixTerm (-1024) 1023 m.xRB mr
  let gG := matrixTerm 0 4095 m.gG mg
  let xGR := matrixTerm (-1024) 1023 m.xGR mg
  let xGB := matrixTerm (-1024) 1023 m.xGB mg
  let gB := matrixTerm 0 4095 m.gB mb
  let xBR := matrixTerm (-1024) 1023 m.xBR mb
  let xBG := matrixTerm (-1024) 1023 m.xBG mb
  let t := seamTrims a o
  let level : Int := match override with
    | none => 1000
    | some v => (v : Int)
  ({ gR := gR.1, gG := gG.1, gB := gB.1, xRG := xRG.1, xRB := xRB.1, xGR := xGR.1, xGB := xGB.1, xBR := xBR.1
     xBG := xBG.1, tL := t.tL, tR := t.tR, tT := t.tT, tB := t.tB, level := level },
   gR.2 || xRG.2 || xRB.2 || gG.2 || xGR.2 || xGB.2 || gB.2 || xBR.2 || xBG.2)

/-- The target of a position and whether any term was clamped (R107). -/
def targetOf (tiles : List TileStatus) (p : Position) : Correction × Bool :=
  match p.hung.occupant, p.adopted with
  | some t, some a =>
    let st := statusOf tiles t.tag
    occupiedTarget a t.orientation p.override (st.bind TileStatus.e) (st.bind TileStatus.h)
  | _, _ => (.emptyTarget, false)

/-- A position with its target computed and its ramp restarted (R107, R129). -/
def Position.retarget (tiles : List TileStatus) (ramp : Nat) (p : Position) : Position :=
  let t := targetOf tiles p
  { p with target := t.1, clamped := t.2, remaining := max ramp 1 }

/-- The Tile Status table with one tag's entry changed. -/
def updateStatus (f : TileStatus → TileStatus) (tag : Nat) (tiles : List TileStatus) : List TileStatus :=
  tiles.map (fun t => if t.tag = tag then f t else t)

/-- The Tile Status table with E and H of a tag copied into E_posted and H_posted (R107). -/
def postStatus (tag : Option Nat) (tiles : List TileStatus) : List TileStatus :=
  match tag with
  | none => tiles
  | some tag => updateStatus (fun t => { t with ePosted := t.e, hPosted := t.h }) tag tiles

/-- A target computation for a position, with the ramp length of its cause (R107). -/
def State.compute (s : State) (ramp i : Nat) : State :=
  match s.positions[i]? with
  | none => s
  | some p =>
    { s with positions := updateAt (Position.retarget s.tiles ramp) i s.positions
             tiles := postStatus p.hung.tag s.tiles
             dirty := removeNat i s.dirty }

/-- The global target of an intent and the White Point table (R111). -/
def globalTargetOf (white : List Gains) (i : Intent) : GlobalVector :=
  let w := white.getD i.white .unity
  { level := (i.master : Int)
    r := clampTo 0 4095 (w.r + i.trimR), g := clampTo 0 4095 (w.g + i.trimG), b := clampTo 0 4095 (w.b + i.trimB) }

/-- The global intent and vector at power-up and WALL RESET (R111). -/
def Global.resetWith (white : List Gains) : Global :=
  let t := globalTargetOf white .reset
  { intent := .reset, target := t, applied := t, remaining := 0 }

/-! ### Ending jobs -/

/-- The kind-specific fields of a running job (R173). -/
def JobWork.fields : JobWork → JobFields
  | .write w => .write w.tag w.phase w.written.length w.retired none
  | .erase tag => .erase tag none
  | .audit a => .audit a.last a.checked a.damaged a.skipped none
  | .hang h =>
    .hang h.ramp h.policy h.phase
      (h.branches.map (fun b => { branch := b.branch, outcome := b.outcome, over128 := b.over128 })) h.counts
  | .save v => .save v.written v.rewrites

/-- The job record of a port (R172): of its running job unless that is detached. -/
def Port.jobRecord (p : Port) : JobRecord :=
  match p.job with
  | none => p.record
  | some j =>
    if j.detached then p.record
    else { state := .running, result := .none, committed := j.committed, fields := j.work.fields }

/-- A job ends DONE, DONE_PARTIAL or FAILED: its record is set, its slot is free and JOB_DONE is raised; of a
detached job only the slot (R172, R179). -/
def State.finishJob (s : State) (l : Link) (st : JobState) (res : ResultCode) (fields : JobFields) : State :=
  match (s.port l).job with
  | none => s
  | some j =>
    if j.detached then s.setJob l none
    else
      (s.setPort l { s.port l with
        job := none, record := { state := st, result := res, committed := j.committed, fields := fields } }).raise
        l .jobDone

end Sys2Proof.Machine
end

