-- ==== Sys2Proof/Machine/HangOps.lean ====
section
/-! DEFINITION. Routes (R30) and the hang job's work (R66 to R75): queueing its roll calls, resolving its staged map,
recording strangers, posting PLACE; and the places of the Chain Order Queue it waits for (R49, R61). -/
namespace Sys2Proof.Machine

/-! ### Routes (R30) -/

def Direction.dx : Direction → Int
  | .right => 1
  | .left => -1
  | .up => 0
  | .down => 0

def Direction.dy : Direction → Int
  | .right => 0
  | .left => 0
  | .up => -1
  | .down => 1

/-- Steps along the run for chain index `i` (R30). -/
def Route.along (r : Route) (i : Nat) : Nat :=
  let q := i / r.runLength
  let s := i % r.runLength
  match r.style with
  | .return => s
  | .serpentine => if q % 2 = 0 then s else r.runLength - 1 - s

/-- Column and row of chain index `i`, inside the grid or not (R30). -/
def Route.place (r : Route) (i : Nat) : Int × Int :=
  let q : Int := ((i / r.runLength : Nat) : Int)
  let a : Int := ((r.along i : Nat) : Int)
  ((r.startCol : Int) + q * r.advance.dx + a * r.first.dx, (r.startRow : Int) + q * r.advance.dy + a * r.first.dy)

/-- The position of chain index `i` in a grid, if it falls inside. -/
def Route.position (r : Route) (columns rows i : Nat) : Option Nat :=
  let p := r.place i
  if 0 ≤ p.1 ∧ p.1 < (columns : Int) ∧ 0 ≤ p.2 ∧ p.2 < (rows : Int) then
    some (p.2.toNat * columns + p.1.toNat)
  else none

/-- The positions of a route: chain indices 0 to N - 1 (R30). -/
def Route.positions (r : Route) (columns rows : Nat) : List Nat :=
  (List.range r.expected).filterMap (r.position columns rows)

/-- Every chain index of the route falls inside the grid (R31). -/
def Route.inside (r : Route) (columns rows : Nat) : Bool :=
  (List.range r.expected).all (fun i => (r.position columns rows i).isSome)

/-- Two sets of positions share one. -/
def share (ps qs : List Nat) : Bool := ps.any (fun p => qs.contains p)

/-! ### The hang job -/

/-- The HANG a link runs. -/
def State.hangOf (s : State) (l : Link) : Option HangWork :=
  match (s.port l).job with
  | none => none
  | some j => match j.work with
    | .hang h => some h
    | .write _ => none
    | .erase _ => none
    | .audit _ => none
    | .save _ => none

def State.setHang (s : State) (l : Link) (h : HangWork) : State := s.setWork l (.hang h)

/-- The outcome of a branch is final (R66). -/
def CallOutcome.isFinal : CallOutcome → Bool
  | .toQueue => false
  | .queued => false
  | .waitingIdle => false
  | .reported => true
  | .failed _ => true

def CallOutcome.isFailed : CallOutcome → Bool
  | .failed _ => true
  | .toQueue => false
  | .queued => false
  | .waitingIdle => false
  | .reported => false

/-- The hang with one branch changed. -/
def HangWork.modBranch (h : HangWork) (b : Nat) (f : HangBranch → HangBranch) : HangWork :=
  { h with branches := h.branches.map (fun x => if x.branch = b then f x else x) }

def HangWork.setOutcome (h : HangWork) (b : Nat) (o : CallOutcome) : HangWork :=
  h.modBranch b (fun x => { x with outcome := o })

/-- The outcome of a branch of the hang. -/
def HangWork.outcomeOf (h : HangWork) (b : Nat) : Option CallOutcome :=
  (h.branches.find? (fun x => x.branch == b)).map HangBranch.outcome

/-- The lowest branch whose roll call is still to queue (R69). -/
def HangWork.toQueue (h : HangWork) : Option Nat :=
  (h.branches.find? (fun x => decide (x.outcome = .toQueue))).map HangBranch.branch

/-! ### Places of the Chain Order Queue (R49, R69) -/

/-- An order joins the back of the queue. -/
def State.pushOrder (s : State) (o : Order) : State := { s with orders := s.orders ++ [o] }

/-- The hang's lowest TO_QUEUE roll call joins the back of the queue and becomes QUEUED (R69). -/
def State.queueRollCall (s : State) (l : Link) : State :=
  match s.hangOf l with
  | none => s
  | some h => match h.toQueue with
    | none => s
    | some b =>
      (s.setHang l (h.setOutcome b .queued)).pushOrder { kind := .rollCall, branch := b, orig := .hang l }

/-- The hang has a roll call to queue. -/
def State.hasToQueue (s : State) (l : Link) : Bool :=
  match s.hangOf l with
  | none => false
  | some h => h.toQueue.isSome

/-- The job joins the space waiters, if it is not already there (R69). -/
def State.waitForSpace (s : State) (l : Link) : State :=
  if s.spaceWaiters.contains l then s else { s with spaceWaiters := s.spaceWaiters ++ [l] }

/-- The hang's TO_QUEUE roll calls queued while places are free, in ascending branch number, at most `n`; then it
waits for space (R69). -/
def offerRollCalls (l : Link) : Nat → State → State
  | 0, s => s
  | n + 1, s =>
    if s.hasToQueue l then
      if s.orders.length < Config.orderPlaces then offerRollCalls l n (s.queueRollCall l) else s.waitForSpace l
    else s

/-- All of a hang's TO_QUEUE roll calls offered. -/
def State.offerAll (s : State) (l : Link) : State := offerRollCalls l 5 s

/-- The GATHER of a branch, on behalf of its sweep's originator (R47, R56). -/
def State.gatherOrder (s : State) (b : Nat) : Order :=
  { kind := .gather, branch := b
    orig := match (s.branches.getD b .atRest).orig with
      | none => .sweepNow
      | some o => o }

/-- A free place goes to the first owed gather (R49). -/
def State.giveOwed (s : State) (b : Nat) (rest : List Nat) : State :=
  { s with owed := rest }.pushOrder (s.gatherOrder b)

/-- A free place goes to the first space waiter, who rejoins at the back with further roll calls to queue (R49). -/
def State.giveWaiter (s : State) (l : Link) (rest : List Link) : State :=
  let s' := { s with spaceWaiters := rest }.queueRollCall l
  if s'.hasToQueue l then { s' with spaceWaiters := s'.spaceWaiters ++ [l] } else s'

/-- One place that has come free is given out (R49). -/
def State.givePlace (s : State) : State :=
  match s.owed with
  | b :: rest => s.giveOwed b rest
  | [] => match s.spaceWaiters with
    | l :: rest => s.giveWaiter l rest
    | [] => s

/-- Places given out one at a time (R49). -/
def State.givePlaces : Nat → State → State
  | 0, s => s
  | n + 1, s => State.givePlaces n s.givePlace

/-- An ended hang's orders withdrawn, its waits ended, and the report of its order on the wire discarded (R61). -/
def State.withdrawOrders (s : State) (l : Link) : State :=
  let kept := s.orders.filter (fun o => decide (o.orig ≠ .hang l))
  State.givePlaces (s.orders.length - kept.length)
    { s with
      orders := kept
      spaceWaiters := s.spaceWaiters.filter (fun m => decide (m ≠ l))
      idleWaits := s.idleWaits.filter (fun e => decide (e.2 ≠ l))
      postWaiters := s.postWaiters.filter (fun m => decide (m ≠ l))
      wire := s.wire.map (fun w => if w.order.orig = .hang l then { w with dropped := true } else w) }

/-! ### Posting PLACE (R75) -/

/-- PLACE posted: the hang's commit point (R75). -/
def State.post (s : State) (l : Link) : State :=
  match (s.port l).job, s.hangOf l with
  | some j, some h =>
    { s.setJob l (some { j with committed := true, work := .hang { h with phase := .posted } }) with
      changes := s.changes ++ [.place l h.ramp h.staged h.seen] }
  | _, _ => s

/-- A hang enters POSTING: it posts if the Change Queue has a free place, and waits otherwise (R75). -/
def State.enterPosting (s : State) (l : Link) : State :=
  match s.hangOf l with
  | none => s
  | some h =>
    let s' := s.setHang l { h with phase := .posting }
    if s'.changes.length < Config.changePlaces then s'.post l
    else if s'.postWaiters.contains l then s'
    else { s' with postWaiters := s'.postWaiters ++ [l] }

/-! ### Strangers (R73, R74) -/

/-- The staged state of a tile whose tag occupies a live position: that position's state and cause (R73). -/
def stayHung (live : List Position) (t : TileAt) : Option Hung :=
  match positionIn live t.tag with
  | none => none
  | some i => match (live[i]?).map Position.hung with
    | some (.placed _) => some (.placed t)
    | some (.unrecorded _ c) => some (.unrecorded t c)
    | some (.duplicate _) => none
    | some .empty => none
    | none => none

/-- The staged state of a placed tile (R73). -/
def State.classify (s : State) (t : TileAt) : Hung :=
  match stayHung s.positions t with
  | some h => h
  | none => match s.condition t.tag with
    | .usable _ _ => .placed t
    | .damaged => .unrecorded t .damaged
    | .absent => .unrecorded t .noRecord

/-- The staged state of a stranger that found no space (R74). -/
def State.noSpace (s : State) (t : TileAt) : Hung :=
  match stayHung s.positions t with
  | some h => h
  | none => .unrecorded t .noSpace

/-- The staged map with the state of one tag's placed entry decided anew. -/
def settleTag (tag : Nat) (f : TileAt → Hung) (staged : List (Nat × Hung)) : List (Nat × Hung) :=
  staged.map (fun e => match e.2 with
    | .empty => e
    | .duplicate _ => e
    | .placed t => if t.tag = tag then (e.1, f t) else e
    | .unrecorded t _ => if t.tag = tag then (e.1, f t) else e)

/-- The batch code a tag's tile reported. -/
def seenBatch (seen : List TileSeen) (tag : Nat) : Nat :=
  match seen.find? (fun t => t.tag == tag) with
  | none => 0
  | some t => t.batch

/-- A provisional write begun for the hang's front stranger: tag locked, slot reserved, one cell claimed, its
write queued (R17). -/
def State.beginProvisional (s : State) (l : Link) (h : HangWork) (tag cell : Nat) : State :=
  let batch := seenBatch h.seen tag
  let g := Group.head tag batch (s.batchDefault batch).base { survey := false, drift := false, trim := false }
  let w : RecWrite :=
    { tag := tag, groups := [g], written := [], unwritten := [cell], phase := .cells, chained := 0
      replacements := 0, retired := 0, reserved := true, provisional := true, revision := none }
  ((s.claimCells 1).setHang l { h with prov := some w }).request l (.cellWrite cell g)

/-- RECORDING: the strangers handled one at a time from the front, up to the first that needs a write; with none
left the hang passes to POSTING (R74). -/
def recordStrangers (l : Link) : List Nat → State → State
  | [], s => s.enterPosting l
  | tag :: rest, s =>
    match s.hangOf l with
    | none => s
    | some h =>
      match s.findEntry tag with
      | some _ =>
        recordStrangers l rest
          (s.setHang l { h with strangers := rest, staged := settleTag tag s.classify h.staged })
      | none =>
        if s.isLocked tag then recordStrangers l rest (s.setHang l { h with strangers := rest })
        else if Config.maxRecords ≤ s.pool.index.length + s.reservations then
          recordStrangers l rest
            (s.setHang l { h with strangers := rest, staged := settleTag tag s.noSpace h.staged })
        else match s.pool.free with
          | [] =>
            recordStrangers l rest
              (s.setHang l { h with strangers := rest, staged := settleTag tag s.noSpace h.staged })
          | cell :: _ => s.beginProvisional l h tag cell

/-- How a provisional write ends for its hang (R17). -/
inductive ProvEnd where
  | done | poolFull | failed
  deriving DecidableEq, Repr

/-- The outcome of a provisional write taken by its hang, which goes on with the next stranger (R74). -/
def State.provEnd (s : State) (l : Link) (e : ProvEnd) : State :=
  match s.hangOf l with
  | none => s
  | some h => match h.prov with
    | none => s
    | some w =>
      let rest := h.strangers.tail
      let staged := match e with
        | .done => settleTag w.tag s.classify h.staged
        | .poolFull => settleTag w.tag s.noSpace h.staged
        | .failed => h.staged
      let counts := match e with
        | .done => { h.counts with provisional := h.counts.provisional + 1 }
        | .poolFull => h.counts
        | .failed => h.counts
      recordStrangers l rest
        (s.setHang l { h with prov := none, strangers := rest, staged := staged, counts := counts })

/-! ### Resolution (R70 to R73) -/

/-- Step two's work in hand: decided entries, the tile table, and three counts. A first placement stands as
PLACED until step three. -/
structure Lay where
  decided : List (Nat × Hung)
  seen : List TileSeen
  duplicates : Nat
  excess : Nat
  short : Nat
  deriving DecidableEq, Repr

/-- One entry of a tile list laid along the route (R70, R71). -/
def layAnswer (columns rows : Nat) (b : HangBranch) (y : Lay) (a : RollAnswer) : Lay :=
  if a.chainIndex < b.route.expected then
    match b.route.position columns rows a.chainIndex with
    | none => y
    | some p =>
      let t : TileAt := { tag := a.tag, orientation := a.orientation, branch := b.branch, chainIndex := a.chainIndex }
      if y.seen.any (fun x => x.tag == a.tag) then
        { y with decided := mapSet p (.duplicate t) y.decided, duplicates := y.duplicates + 1 }
      else
        { y with decided := mapSet p (.placed t) y.decided
                 seen := y.seen ++ [{ tag := a.tag, batch := a.batch, orientation := a.orientation }] }
  else { y with excess := y.excess + 1 }

/-- A route position no entry reached (R70). -/
def layShort (columns rows : Nat) (b : HangBranch) (y : Lay) (i : Nat) : Lay :=
  if i < b.list.length then y
  else match b.route.position columns rows i with
    | none => y
    | some p => { y with decided := mapSet p .empty y.decided, short := y.short + 1 }

/-- The tile list of a REPORTED branch laid along its route (R70). -/
def layBranch (columns rows : Nat) (y : Lay) (b : HangBranch) : Lay :=
  match b.outcome with
  | .reported =>
    (List.range b.route.expected).foldl (layShort columns rows b) (b.list.foldl (layAnswer columns rows b) y)
  | .failed _ => y
  | .toQueue => y
  | .queued => y
  | .waitingIdle => y

/-- Step one: the decided EMPTY entries whose live branch field names a failed branch are removed (R70). -/
def restoreFailed (live : List Position) (branches : List HangBranch) (decided : List (Nat × Hung)) :
    List (Nat × Hung) :=
  let failed := (branches.filter (fun b => b.outcome.isFailed)).map HangBranch.branch
  decided.filter (fun e => match (live[e.1]?).bind (fun p => p.hung.tile) with
    | none => true
    | some t => !failed.contains t.branch)

/-- Step three on one decided entry: a first placement takes its state (R73). -/
def State.classifyEntry (s : State) (e : Nat × Hung) : Nat × Hung :=
  match e.2 with
  | .placed t => (e.1, s.classify t)
  | .empty => e
  | .unrecorded _ _ => e
  | .duplicate _ => e

/-- The tag of a first placement that has no index entry: a stranger (R73). -/
def State.strangerTag (s : State) (e : Nat × Hung) : Option Nat :=
  match e.2 with
  | .placed t => if (s.findEntry t.tag).isNone then some t.tag else none
  | .empty => none
  | .unrecorded _ _ => none
  | .duplicate _ => none

/-- A first placement of a tag that occupies another live position (R72). -/
def State.isMove (s : State) (e : Nat × Hung) : Bool :=
  match e.2 with
  | .placed t => match s.positionOf t.tag with
    | none => false
    | some q => decide (q ≠ e.1)
  | .empty => false
  | .unrecorded _ _ => false
  | .duplicate _ => false

/-- The hang resolves its staged map and passes to RECORDING (R70 to R74). The over-128 marks are set here, in step two,
from the EXCESS marks of the reports (log 39). -/
def State.resolve (s : State) (l : Link) (h : HangWork) : State :=
  let start : Lay :=
    { decided := restoreFailed s.positions h.branches h.staged, seen := [], duplicates := 0, excess := 0, short := 0 }
  let y := h.branches.foldl (layBranch s.settings.columns s.settings.rows) start
  let strangers := y.decided.filterMap s.strangerTag
  let h' := { h with
    phase := .recording
    branches := h.branches.map (fun b =>
      if b.outcome = .reported ∧ b.excess = true then { b with over128 := true } else b)
    staged := y.decided.map s.classifyEntry
    seen := y.seen
    strangers := match h.policy with
      | .record => strangers
      | .default => []
    counts := { h.counts with
      moved := (y.decided.filter s.isMove).length
      strangers := strangers.length
      duplicates := y.duplicates, excess := y.excess, short := y.short } }
  let s' := s.setHang l h'
  recordStrangers l h'.strangers (if strangers.isEmpty then s' else s'.raiseDlSl .stranger)

/-- A branch of a hang has its outcome; with the last final outcome the hang resolves (R69). -/
def State.hangOutcome (s : State) (l : Link) (b : Nat) (f : HangBranch → HangBranch) : State :=
  match s.hangOf l with
  | none => s
  | some h =>
    let h' := h.modBranch b f
    let s' := s.setHang l h'
    if h'.phase = .calling ∧ h'.branches.all (fun x => x.outcome.isFinal) = true then s'.resolve l h' else s'

/-- A hang told that a branch is IDLE queues its roll call again (R60, R69). -/
def State.toldIdle (s : State) (l : Link) (b : Nat) : State :=
  match s.hangOf l with
  | none => s
  | some h =>
    if h.outcomeOf b = some .waitingIdle then (s.setHang l (h.setOutcome b .toQueue)).offerAll l else s

/-- A branch has become IDLE: every hang in its waiting set is told (R60). -/
def State.tellIdle (s : State) (b : Nat) : State :=
  let told := s.idleWaits.filter (fun e => decide (e.1 = b))
  told.foldl (fun acc e => acc.toldIdle e.2 b)
    { s with idleWaits := s.idleWaits.filter (fun e => decide (e.1 ≠ b)) }

/-! ### Ending jobs early (R16, R18, R20, R22, R79) -/

/-- The effects of abandoning a job of this work, its slot and record left to the caller. -/
def State.abandonWork (s : State) (l : Link) : JobWork → State
  | .write w => (s.withdrawNv l).freeCells w.claim
  | .erase _ => s.withdrawNv l
  | .audit _ => s.withdrawNv l
  | .save _ => s.withdrawNv l
  | .hang h =>
    let s := s.withdrawOrders l
    match h.prov with
    | none => s
    | some w => match w.revision with
      | some _ =>
        { s.withdrawNv l with nvPort := { (s.withdrawNv l).nvPort with orphan := some w } }
      | none => (s.withdrawNv l).freeCells w.claim

/-- A running job abandoned: its effects undone, its slot free (R174). The lock and the reservation go with the
job. -/
def State.abandonJob (s : State) (l : Link) : State :=
  match (s.port l).job with
  | none => s
  | some j => (s.setJob l none).abandonWork l j.work

/-- The record of a job abandoned as it stood (R174). -/
def Job.abandonedRecord (j : Job) : JobRecord :=
  { state := .abandoned, result := .none, committed := j.committed, fields := j.work.fields }

end Sys2Proof.Machine
end

