-- ==== Sys2Proof/Machine/ChainOps.lean ====
section
/-! DEFINITION. The Chain Engine's operations (03): branches, reports to originators (R47), the take of orders
(R48, R52, R54), and the Drift Tracker's use of a gather result (R91 to R95) and its drift cycle (R89). -/
namespace Sys2Proof.Machine

/-! ### Branches -/

def State.branch (s : State) (b : Nat) : Branch := s.branches.getD b .atRest

def State.modBranch (s : State) (b : Nat) (f : Branch → Branch) : State :=
  { s with branches := updateAt f b s.branches }

def State.setBranchState (s : State) (b : Nat) (st : BranchState) : State :=
  s.modBranch b (fun x => { x with state := st })

/-! ### Reports (R47) -/

/-- How an order ended, as its originator is told. -/
inductive Report where
  | reported (list : List RollAnswer) (excess : Bool)
  | failed (c : FailCause)
  | clashed
  | timedOut
  /-- A gather's stream ended; `broken`: by a break. -/
  | gathered (broken : Bool)
  | branchBusy
  | branchFault
  deriving DecidableEq, Repr

/-- A hang waits for a branch to be IDLE (R60). -/
def State.waitIdle (s : State) (l : Link) (b : Nat) : State :=
  { s with idleWaits := s.idleWaits ++ [(b, l)] }

/-- What a report does to a hang (R69). -/
def State.tellHang (s : State) (l : Link) (b : Nat) : Report → State
  | .reported list excess =>
    s.hangOutcome l b (fun x => { x with outcome := .reported, list := list, excess := excess })
  | .failed c => s.hangOutcome l b (fun x => { x with outcome := .failed c })
  | .branchFault => s.hangOutcome l b (fun x => { x with outcome := .failed .branchFault })
  | .branchBusy =>
    match s.hangOf l with
    | none => s
    | some h => (s.setHang l (h.setOutcome b .waitingIdle)).waitIdle l b
  | .clashed => s
  | .timedOut => s
  | .gathered _ => s

/-- What a report does to the drift cycle: the branch leaves the awaiting set, at a gather broken or not (R90). -/
def State.tellDrift (s : State) (b : Nat) : Report → State
  | .gathered _ => { s with awaiting := removeNat b s.awaiting }
  | .timedOut => { s with awaiting := removeNat b s.awaiting }
  | .clashed => { s with awaiting := removeNat b s.awaiting }
  | .branchFault => { s with awaiting := removeNat b s.awaiting }
  | .branchBusy => s
  | .reported _ _ => s
  | .failed _ => s

/-- A report made to an originator; those to SWEEP NOW are discarded (R47). -/
def State.tell (s : State) (o : Originator) (b : Nat) (r : Report) : State :=
  match o with
  | .hang l => s.tellHang l b r
  | .drift => s.tellDrift b r
  | .sweepNow => s

/-! ### Taking orders (R48) -/

/-- An order sent: it is on the wire from this event (R42). -/
def State.send (s : State) (o : Order) : State :=
  { s with wire := some { order := o, echoed := false, startPassed := false, doneHeld := false, count := 0
                          bad := false, dropped := false, rolls := [], samples := [] } }

/-- A SWEEP sent: the serial goes up, wrapping from 15, and the branch is STARTING (R52). -/
def State.sendSweep (s : State) (o : Order) : State :=
  (s.modBranch o.branch (fun x =>
    { x with state := .starting, serial := (x.serial + 1) % 16, orig := some o.orig })).send o

/-- A sweep clash (R54). -/
def State.clash (s : State) (o : Order) : State :=
  ((s.modBranch o.branch (fun x => { x with clash := true })).raiseDlSl .sweepClash).tell o.orig o.branch .clashed

/-- A taken order checked against the state of its branch (R48). -/
def State.checkOrder (s : State) (o : Order) : State :=
  match (s.branch o.branch).state, o.kind with
  | .fault, _ => s.tell o.orig o.branch .branchFault
  | .idle, .rollCall => (s.setBranchState o.branch .calling).send o
  | .idle, .sweep => s.sendSweep o
  | .ready, .gather => (s.setBranchState o.branch .gathering).send o
  | .idle, .gather => s.tell o.orig o.branch .branchBusy
  | _, .rollCall => s.tell o.orig o.branch .branchBusy
  | _, .gather => s.tell o.orig o.branch .branchBusy
  | _, .sweep => s.clash o

/-- The free transmitter takes orders, refusing several in turn, until it sends one or empties the queue; each
entry removed frees a place, which is given out (R48, R49). `n` bounds the takes. -/
def takeOrders : Nat → State → State
  | 0, s => s
  | n + 1, s =>
    match s.wire with
    | some _ => s
    | none => match s.orders with
      | [] => s
      | o :: rest => takeOrders n ({ s with orders := rest }.givePlace.checkOrder o)

/-- The transmitter takes orders if it is free. The bound covers the queue and every party that can be given a
place: four owed gathers and two hangs of four roll calls. -/
def State.kick (s : State) : State := takeOrders (s.orders.length + s.owed.length + 8) s

/-- An order queued at the back, and taken at the same event if the transmitter is free (R46, R48). -/
def State.queueOrder (s : State) (o : Order) : State := (s.pushOrder o).kick

/-- The order on the wire has ended: the transmitter is free and takes its next order (R42). -/
def State.freeWire (s : State) : State := { s with wire := none }.kick

/-! ### READY and the automatic gather (R53, R56) -/

/-- The automatic GATHER of a branch that enters READY, queued or owed (R56). -/
def State.autoGather (s : State) (b : Nat) : State :=
  if s.orders.length < Config.orderPlaces ∧ s.owed = [] then s.queueOrder (s.gatherOrder b)
  else { s with owed := s.owed ++ [b] }

/-- A done report taken: the sweep timer stops, the branch is READY, its gather follows (R53). -/
def State.takeDone (s : State) (b : Nat) : State :=
  (s.modBranch b (fun x => { x with state := .ready, sweepTimer := false })).autoGather b

/-- The branch enters SWEEPING: its timer starts and the transmitter is free; a held done report is taken then
(R52, R53; log 22). -/
def State.enterSweeping (s : State) (b : Nat) (doneHeld : Bool) : State :=
  let s := (s.modBranch b (fun x => { x with state := .sweeping, sweepTimer := true })).freeWire
  if doneHeld then s.takeDone b else s

/-! ### Using a gather result (R91 to R95) -/

/-- A fresh answer taken for an entry (R92). -/
def TileStatus.takeFresh (depth : Nat) (x : Sample) (t : TileStatus) : TileStatus :=
  { t with
    e := match t.e with
      | none => some x.temp
      | some e => if t.miss = 3 then some x.temp else some (e + Int.tdiv (x.temp - e) ((2 : Int) ^ depth))
    h := some x.hours, miss := 0, fresh := satSucc t.fresh }

/-- An answer taken for an entry, by its fresh mark (R92, R93). -/
def TileStatus.takeAnswer (depth : Nat) (x : Sample) (t : TileStatus) : TileStatus :=
  if x.fresh then t.takeFresh depth x else { t with h := some x.hours }

/-- The marking test of R95. -/
def TileStatus.marked (deadband : Nat) (t : TileStatus) : Bool :=
  decide (t.miss < 3) &&
    ((match t.e, t.ePosted with
      | some _, none => true
      | some e, some p => decide (deadband ≤ (e - p).natAbs)
      | none, _ => false) ||
     (match t.h, t.hPosted with
      | some _, none => true
      | some h, some p => decide (p + 10 ≤ h)
      | none, _ => false))

/-- Marking: the position of the tag joins the drift-dirty set if the tag passes the test (R95). -/
def State.markTag (s : State) (tag : Nat) : State :=
  match statusOf s.tiles tag, s.positionOf tag with
  | some t, some i => if t.marked s.settings.deadband then { s with dirty := insertAsc i s.dirty } else s
  | _, _ => s

/-- One answer of a gather result taken or discarded; the tags answered so far go along (R91). -/
def takeSample (a : State × List Nat) (x : Sample) : State × List Nat :=
  match statusOf a.1.tiles x.tag with
  | none => ({ a.1 with resultsDiscarded := satSucc a.1.resultsDiscarded }, a.2)
  | some _ =>
    if a.2.contains x.tag then ({ a.1 with resultsDiscarded := satSucc a.1.resultsDiscarded }, a.2)
    else
      ({ a.1 with tiles := updateStatus (TileStatus.takeAnswer a.1.settings.depth x) x.tag a.1.tiles }.markTag x.tag,
       a.2 ++ [x.tag])

/-- A tag missed by a gather: its miss count rises to at most 3, and at 3 TILE_MUTE is raised (R94). -/
def State.missTag (s : State) (tag : Nat) : State :=
  match statusOf s.tiles tag with
  | none => s
  | some t =>
    if t.miss < 3 then
      let s' := { s with tiles := updateStatus (fun t => { t with miss := t.miss + 1 }) tag s.tiles }
      if t.miss = 2 then s'.raiseDlSl .tileMute else s'
    else s

/-- The tags that occupy a position of the branch and were not answered, in ascending position order (R94). -/
def missedTags (live : List Position) (b : Nat) (answered : List Nat) : List Nat :=
  live.filterMap (fun p => match p.hung.occupant with
    | none => none
    | some t => if t.branch = b ∧ answered.contains t.tag = false then some t.tag else none)

/-- The Drift Tracker handed a gather result (R91, R94). -/
def State.useGather (s : State) (b : Nat) (samples : List Sample) : State :=
  let a := samples.foldl takeSample (s, [])
  (missedTags a.1.positions b a.2).foldl State.missTag a.1

/-! ### The ends of orders (R50, R51, R58) -/

/-- The branch's last tile count and EXCESS flag at the end of an answer stream (R50, R51, R63). That a GATHER's EXCESS
flag is set at this event, and not at its 129th answer, is the model's choice: R57 names no event (log 42). -/
def State.countAnswers (s : State) (b count : Nat) : State :=
  s.modBranch b (fun x =>
    { x with lastCount := min count Config.usedAnswers
             excess := x.excess || decide (Config.usedAnswers < count) })

/-- The report of a roll call whose stream has ended (R50, R51). -/
def rollReport (w : Wire) (broken : Bool) : Report :=
  if w.bad then .failed .badAnswer
  else if broken then .failed .broken
  else .reported w.rolls (decide (Config.usedAnswers < w.count))

/-- The answer stream of the order on the wire ends, by the end marker or by a break (R50, R51, R58). -/
def State.endStream (s : State) (w : Wire) (broken : Bool) : State :=
  let b := w.order.branch
  match w.order.kind with
  | .rollCall =>
    let s := (s.setBranchState b .idle).countAnswers b w.count
    let s := if w.dropped then s else s.tell w.order.orig b (rollReport w broken)
    (s.tellIdle b).freeWire
  | .gather =>
    let s := s.useGather b w.samples
    let s := (s.modBranch b (fun x => { x with state := .idle, orig := none })).countAnswers b w.count
    ((s.tell w.order.orig b (.gathered broken)).tellIdle b).freeWire
  | .sweep => s

/-! ### Drift cycles (R89) -/

/-- A branch has a placed tile (R89). -/
def State.hasPlaced (s : State) (b : Nat) : Bool :=
  s.positions.any (fun p => match p.hung.occupant with
    | none => false
    | some t => decide (t.branch = b))

/-- A drift cycle takes one branch (R89); the mark says whether a branch has counted as an overrun. -/
def cycleBranch (a : State × Bool) (b : Nat) : State × Bool :=
  let s := a.1
  if s.awaiting.contains b then ({ s with overruns := satSucc s.overruns }, true)
  else if s.hasPlaced b then
    if s.orders.length < Config.orderPlaces then
      ({ s with awaiting := insertAsc b s.awaiting }.queueOrder { kind := .sweep, branch := b, orig := .drift }, a.2)
    else ({ s with cyclesSkipped := satSucc s.cyclesSkipped }, a.2)
  else a

/-- A drift cycle starts (R89). -/
def State.startCycle (s : State) : State :=
  let s := { s with cyclesStarted := (s.cyclesStarted + 1) % 65536 }
  let a := [0, 1, 2, 3].foldl cycleBranch (s, false)
  if a.2 then a.1.raise .dl .cycleOverrun else a.1

/-! ### The Cadence Timer (R83, R84) -/

/-- A count pulse (R83); in STOPPING it is also the stop event (R84). -/
def State.countPulse (s : State) : State :=
  let expiry := decide (s.timer.counter ≤ 1)
  let counter := if expiry then s.settings.reload else s.timer.counter - 1
  let s1 := { s with timer := { s.timer with stage := 0, counter := counter } }
  let s2 := if expiry then s1.startCycle else s1
  match s.timer.state with
  | .stopping => { s2 with timer := { s2.timer with state := .stopped } }
  | .running => s2
  | .stopped => s2

/-- A pulse of the selected source (R83). -/
def State.sourcePulse (s : State) : State :=
  match s.timer.state with
  | .stopped => s
  | .running | .stopping =>
    if s.timer.stage + 1 < s.settings.prescaler then
      { s with timer := { s.timer with stage := s.timer.stage + 1 } }
    else s.countPulse

end Sys2Proof.Machine
end

