-- ==== Sys2Proof/Machine/RecordOps.lean ====
section
/-! DEFINITION. The Record Store's work (01): forming a record (R12), the phases of a record write (R14, R15), the
erase (R18), the audit (R19, R20), the save (R22), the NV Port's beginnings (R9), and the start-up scan (R23, R24). -/
namespace Sys2Proof.Machine

/-! ### The content of a new record (R12) -/

/-- A term of a SURVEY group as its word carries it: the first three are gains, the rest signed (R4). -/
def surveyTerm (terms : List Word) (i : Nat) : Option Int :=
  match terms[i]? with
  | none => none
  | some w => if i < 3 then some (w.toNat : Int) else some w.toInt

/-- A SURVEY group supplied with terms, the missing ones completed with 2048 or 0 (R12). -/
def paddedSurvey (terms : List Word) : Matrix :=
  { gR := (surveyTerm terms 0).getD 2048, gG := (surveyTerm terms 1).getD 2048, gB := (surveyTerm terms 2).getD 2048
    xRG := (surveyTerm terms 3).getD 0, xRB := (surveyTerm terms 4).getD 0, xGR := (surveyTerm terms 5).getD 0
    xGB := (surveyTerm terms 6).getD 0, xBR := (surveyTerm terms 7).getD 0, xBG := (surveyTerm terms 8).getD 0 }

/-- The values of a set-list group lie in their ranges (R13 step 5). -/
def SetItem.ok : SetItem → Bool
  | .head batch base => decide (batch ≤ 15) && base.ok
  | .survey count terms =>
    decide (1 ≤ count ∧ count ≤ 9) &&
      (List.range terms.length).all (fun i => match surveyTerm terms i with
        | none => true
        | some v => if i < 3 then inRange 0 4095 v else inRange (-1024) 1023 v)
  | .drift d => d.ok
  | .trim t => t.ok

/-- No kind appears twice. -/
def noRepeat : List CellKind → Bool
  | [] => true
  | k :: ks => !ks.contains k && noRepeat ks

/-- Step 5 of R13. -/
def WriteOps.valuesOk (o : WriteOps) : Bool :=
  decide (o.tag ≠ 0) && o.sets.all SetItem.ok && noRepeat (o.sets.map SetItem.kind) && noRepeat o.removes &&
    (o.sets.map SetItem.kind).all (fun k => !o.removes.contains k)

/-- What one set-list group does to the content being formed. -/
def Content.put (c : Content) : SetItem → Content
  | .head batch base => { c with batch := batch, base := base }
  | .survey _ terms => { c with survey := some (paddedSurvey terms) }
  | .drift d => { c with drift := some d }
  | .trim t => { c with trim := some t }

/-- The content less one removed group. -/
def Content.remove (c : Content) : CellKind → Content
  | .head => c
  | .survey => { c with survey := none }
  | .drift => { c with drift := none }
  | .trim => { c with trim := none }

/-- What a new record of the tag is copied from: nothing for a DAMAGED or missing one (R12). -/
def State.copySource (s : State) (tag : Nat) : Content :=
  let bare : Content := { batch := 0, base := .unity, survey := none, drift := none, trim := none }
  match s.findEntry tag with
  | none => bare
  | some e => match e.status with
    | .ok => s.content e
    | .provisional => s.content e
    | .damaged => bare

/-- The content of the new record (R12). -/
def State.newContent (s : State) (o : WriteOps) : Content :=
  o.sets.foldl Content.put (o.removes.foldl Content.remove (s.copySource o.tag))

/-- The set list names HEAD. -/
def WriteOps.hasHead (o : WriteOps) : Bool := (o.sets.map SetItem.kind).contains .head

/-- The tag has a record a HEAD can be copied from (R13 step 2). -/
def State.hasUsable (s : State) (tag : Nat) : Bool :=
  match s.condition tag with
  | .usable _ _ => true
  | .damaged => false
  | .absent => false

/-! ### The phases of a record write (R14, R15) -/

/-- The record write in progress for a link's job. -/
def State.writeOf (s : State) (l : Link) : Option RecWrite :=
  (s.port l).job.bind (fun j => j.work.recWrite)

/-- The record write of a link's job replaced. -/
def State.setWrite (s : State) (l : Link) (w : RecWrite) : State :=
  match (s.port l).job with
  | none => s
  | some j => match j.work with
    | .write _ => s.setWork l (.write w)
    | .hang h => s.setWork l (.hang { h with prov := some w })
    | .erase _ => s
    | .audit _ => s
    | .save _ => s

/-- The chain entry of the `k`-th new cell: NEXT of the following cell, or LAST (R15). -/
def RecWrite.entry (w : RecWrite) (k : Nat) : ChainEntry :=
  match w.written[k + 1]? with
  | none => .last
  | some c => .next c

/-- The next request of a write: the next cell, or the next chain entry, or the swap (R14, R15). -/
def State.nextWriteStep (s : State) (l : Link) (w : RecWrite) : State :=
  match w.unwritten, w.groups[w.written.length]? with
  | c :: _, some g => (s.setWrite l { w with phase := .cells }).request l (.cellWrite c g)
  | _, _ =>
    match w.written[w.chained]? with
    | some c => (s.setWrite l { w with phase := .chain }).request l (.chainEntry c (w.entry w.chained))
    | none => (s.setWrite l { w with phase := .swap }).request l .swap

/-- A record write ends without its swap: its remaining claims are released, and its job ends FAILED or its hang
is told (R8, R14, R17). -/
def State.failWrite (s : State) (l : Link) (w : RecWrite) (res : ResultCode) : State :=
  let s := s.freeCells w.claim
  if w.provisional then
    (s.setWrite l { w with written := [], unwritten := [] }).provEnd l (if res = .poolFull then .poolFull else .failed)
  else s.finishJob l .failed res (.write w.tag w.phase w.written.length w.retired none)

/-- A cell write has completed with a good verify (R14). -/
def State.cellGood (s : State) (l : Link) (w : RecWrite) (cell : Nat) (g : Group) : State :=
  let s := { s with pool := { s.pool with image := mapSet cell g s.pool.image } }
  s.nextWriteStep l { w with written := w.written ++ [cell], unwritten := w.unwritten.tail, replacements := 0 }

/-- A cell write has completed with a failed verify: the cell is retired (R14). -/
def State.cellBad (s : State) (l : Link) (w : RecWrite) (cell : Nat) : State :=
  let s := { s with pool := { s.pool with
    retired := insertAsc cell s.pool.retired, chain := chainSet cell .retired s.pool.chain } }
  ((s.setWrite l { w with unwritten := w.unwritten.tail, retired := w.retired + 1 }).raise .sl .cellRetired).request l
    (.retire cell)

/-- A RETIRED chain entry write has completed: a replacement, or the job's end (R14). -/
def State.replaceCell (s : State) (l : Link) (w : RecWrite) : State :=
  if Config.maxReplacements ≤ w.replacements then s.failWrite l w .verifyFailed
  else match s.pool.free with
    | [] => s.failWrite l w .poolFull
    | c :: _ =>
      (s.claimCells 1).nextWriteStep l
        { w with unwritten := c :: w.unwritten, replacements := w.replacements + 1 }

/-- The index swap of a write completes: the entry, the counter, the freed cells of the old record, and PENDING
(R6, R8, R15). -/
def State.swapRecord (s : State) (w : RecWrite) (revision : Nat) : State :=
  let status : RecStatus := if w.provisional then .provisional else .ok
  let head := w.written.headD 0
  let old := match s.findEntry w.tag with
    | none => []
    | some e => e.cells
  let s := { s with
    nv := { s.nv with
      index := putNvEntry { tag := w.tag, head := head, revision := revision, status := status }
        (roomInNvIndex w.tag (s.pool.index.map IndexEntry.tag) s.nv.index)
      counter := revision + 1 }
    pool := { s.pool with
      index := putEntry { tag := w.tag, head := head, revision := revision, status := status, cells := w.written }
        s.pool.index
      counter := revision + 1 } }
  (s.freeCells old).refreshTag w.tag

/-- A write's swap has completed and its job goes on: a WRITE RECORD ends DONE, a hang takes the outcome (R15,
R17). The claim has become the record's chain. -/
def State.endWrite (s : State) (l : Link) (w : RecWrite) (revision : Nat) : State :=
  if w.provisional then
    (s.setWrite l { w with written := [], unwritten := [], reserved := false }).provEnd l .done
  else s.finishJob l .done .none (.write w.tag w.phase w.written.length w.retired (some revision))

/-! ### Erase (R18) -/

/-- The index remove write of an erase completes (R18). -/
def State.eraseRecord (s : State) (l : Link) (tag : Nat) : State :=
  let cells := match s.findEntry tag with
    | none => []
    | some e => e.cells
  let s := { s with
    nv := { s.nv with index := s.nv.index.filter (fun e => decide (e.tag ≠ tag)) }
    pool := { s.pool with index := s.pool.index.filter (fun e => decide (e.tag ≠ tag)) } }
  ((s.freeCells cells).refreshTag tag).finishJob l .done .none (.erase tag (some cells.length))

/-! ### Audit (R19, R20) -/

/-- The kinds of a record's groups after HEAD, in chain order. -/
def Presence.kinds (p : Presence) : List CellKind :=
  (if p.survey then [.survey] else []) ++ (if p.drift then [.drift] else []) ++ (if p.trim then [.trim] else [])

/-- The audit goes to the next record to read, or ends: DAMAGED records passed over, locked ones counted (R20). The tag
counts as the last handled from the event its reading begins (log 37). -/
def auditNext (l : Link) : List IndexEntry → AuditWork → State → State
  | [], a, s =>
    s.finishJob l .done .none (.audit a.last a.checked a.damaged a.skipped (some s.retiredCount))
  | e :: rest, a, s =>
    match e.status with
    | .damaged => auditNext l rest { a with last := e.tag, reading := none } s
    | .ok | .provisional =>
      if s.isLocked e.tag then auditNext l rest { a with last := e.tag, skipped := a.skipped + 1, reading := none } s
      else
        (s.setWork l (.audit { a with
          last := e.tag
          reading := some { tag := e.tag, cell := e.head, visited := [], expected := [], damaging := false } })).request
          l (.checkRead e.head)

/-- The audit releases the lock it holds and goes on from the last tag handled (R20). -/
def State.auditAdvance (s : State) (l : Link) (a : AuditWork) : State :=
  let a := { a with reading := none }
  auditNext l (s.pool.index.filter (fun e => decide (a.last < e.tag))) a (s.setWork l (.audit a))

/-- What one check read of an audit shows (R19). -/
inductive Walk where
  | sound
  | go (cell : Nat) (expected : List CellKind)
  | unsound
  deriving DecidableEq, Repr

/-- The soundness tests of R19 that one check read of an audit can fail or pass: `good` is whether the cell checks
correctly, `g` what it holds, `nvEntry` and `volEntry` its two chain entries. -/
def auditRead (r : AuditRead) (good : Bool) (g : Option Group) (nvEntry volEntry : ChainEntry)
    (retired : List Nat) : Walk :=
  let expected : Option (List CellKind) :=
    match g, r.visited with
    | none, _ => none
    | some (.head tag _ _ p), [] => if tag = r.tag then some p.kinds else none
    | some _, [] => none
    | some g, _ :: _ => match r.expected with
      | [] => none
      | k :: ks => if g.kind = k then some ks else none
  if good = false ∨ nvEntry ≠ volEntry then .unsound
  else match expected, nvEntry with
    | none, _ => .unsound
    | some ks, .last => if ks.isEmpty then .sound else .unsound
    | some ks, .next c =>
      if c < Config.poolCells ∧ retired.contains c = false ∧ (r.cell :: r.visited).contains c = false ∧
          r.visited.length + 1 < Config.maxChain then .go c ks
      else .unsound
    | some _, .free => .unsound
    | some _, .retired => .unsound

/-- A status write's effect: the record is DAMAGED (R20). -/
def State.damageRecord (s : State) (tag : Nat) : State :=
  ({ s with
    nv := { s.nv with index := s.nv.index.map (fun (e : NvEntry) => if e.tag = tag then { e with status := .damaged } else e) }
    pool := { s.pool with
      index := s.pool.index.map (fun (e : IndexEntry) => if e.tag = tag then { e with status := .damaged } else e) } }.refreshTag
    tag).raise .sl .recordDamaged

/-! ### The NV Port (R9) -/

/-- The request in progress is over. -/
def State.clearCurrent (s : State) : State := { s with nvPort := { s.nvPort with current := none } }

/-- The job that owns a request passes its commit point (R172). -/
def State.commitJob (s : State) (l : Link) : State :=
  match (s.port l).job with
  | none => s
  | some j => s.setJob l (some { j with committed := true })

/-- The swap write begins: the revision is taken from the counter, and a WRITE RECORD is committed; a hang's own
commit point is its posting (R8, R15, R17). -/
def State.beginSwap (s : State) (l : Link) (w : RecWrite) : State :=
  let s := s.setWrite l { w with revision := some s.pool.counter }
  if w.provisional then s else s.commitJob l

/-- The NV Port begins its oldest waiting request. A swap at the end of the counter does not begin and its write
ends (R8); a swap, an index remove and the first settings write are commit points (R15, R18, R22). -/
def State.beginRequest (s : State) : State :=
  match s.nvPort.waiting with
  | [] => s
  | r :: rest =>
    let begun := { s with nvPort := { s.nvPort with waiting := rest, current := some { req := r, live := true } } }
    match r.op with
    | .swap =>
      match s.writeOf r.link with
      | none => begun
      | some w =>
        if s.pool.counter = Config.counterEnd then
          { s with nvPort := { s.nvPort with waiting := rest } }.failWrite r.link w .revisionExhausted
        else begun.beginSwap r.link w
    | .remove _ => begun.commitJob r.link
    | .settings c _ => if c = 0 then begun.commitJob r.link else begun
    | .cellWrite _ _ => begun
    | .retire _ => begun
    | .chainEntry _ _ => begun
    | .damage _ => begun
    | .checkRead _ => begun

/-- The port is free and its oldest waiting request is of this kind. -/
def State.headIs (s : State) (p : NvOp → Bool) : Bool :=
  s.nvPort.current.isNone &&
    (match s.nvPort.waiting with
     | [] => false
     | r :: _ => p r.op)

/-! ### Saving settings (R22) -/

/-- A settings cell write has completed (R22). -/
def State.savedCell (s : State) (l : Link) (v : SaveWork) (good : Bool) : State :=
  if good then
    let v := { v with written := v.written + 1 }
    if v.cell = 7 then s.finishJob l .done .none (.save v.written v.rewrites)
    else
      let v := { v with cell := v.cell + 1, cellRewrites := 0 }
      (s.setWork l (.save v)).request l (.settings v.cell v.image)
  else if Config.maxRewrites ≤ v.cellRewrites then s.finishJob l .failed .verifyFailed (.save v.written v.rewrites)
  else
    let v := { v with cellRewrites := v.cellRewrites + 1, rewrites := v.rewrites + 1 }
    (s.setWork l (.save v)).request l (.settings v.cell v.image)

/-! ### The start-up scan (R19, R23, R24) -/

/-- The walk of one record's chain at the scan: the cells visited, and whether it stopped at a LAST entry (R19). -/
def scanWalk (chain : List (Nat × ChainEntry)) (barred : List Nat) : Nat → List Nat → Nat → List Nat × Bool
  | 0, visited, _ => (visited, false)
  | n + 1, visited, cell =>
    if Config.poolCells ≤ cell ∨ barred.contains cell = true ∨ visited.contains cell = true then (visited, false)
    else
      let visited := visited ++ [cell]
      match chainOf chain cell with
      | .last => (visited, true)
      | .free => (visited, false)
      | .retired => (visited, false)
      | .next c => scanWalk chain barred n visited c

/-- The tests of R19 on the cells a walk visited. -/
def soundCells (tag : Nat) (groups : List (Option Group)) : Bool :=
  match groups with
  | some (.head t _ _ p) :: rest => decide (t = tag) && decide (rest.map (Option.map Group.kind) = p.kinds.map some)
  | _ => false

/-- What the scan has built so far. -/
structure Scan where
  index : List IndexEntry
  image : List (Nat × Group)
  assigned : List Nat
  damaged : Bool
  deriving DecidableEq, Repr

/-- The scan walks one entry of the Tag Index (R23 step 3): the image is loaded from the cells of every sound record. -/
def scanEntry (nv : NvMemory) (badCells retired : List Nat) (a : Scan) (e : NvEntry) : Scan :=
  let walk := scanWalk nv.chain (retired ++ a.assigned) Config.maxChain [] e.head
  let read := fun c => if badCells.contains c then none else mapGet c nv.cells
  let sound := walk.2 && soundCells e.tag (walk.1.map read)
  let status := if sound then e.status else .damaged
  { index := a.index ++ [{ tag := e.tag, head := e.head, revision := e.revision, status := status, cells := walk.1 }]
    image := if sound then
        walk.1.foldl (fun m c => match mapGet c nv.cells with
          | none => m
          | some g => mapSet c g m) a.image
      else a.image
    assigned := a.assigned ++ walk.1
    damaged := a.damaged || (!sound && decide (e.status ≠ .damaged)) }

/-- The settings the area holds, if every cell checks correctly and the area check matches (R24; log 13). -/
def loadSettings (cells : List (Option Settings)) (bad : List Nat) : Option Settings :=
  match cells[7]? with
  | some (some img) =>
    if bad = [] ∧ cells.all (fun c => decide (c = some img)) = true then some img else none
  | some none => none
  | none => none

/-- The highest revision of the accepted entries, plus one (R8). -/
def nextRevision (index : List IndexEntry) : Nat := index.foldl (fun m e => max m (e.revision + 1)) 1

/-- A port at the end of the scan: DOWN, its word boundary set (R23, R165). That a frame the receiver is in, or the
discarding it is in, goes on after the boundary is the model's choice: no rule ends it there (log 47). -/
def Port.leaveScan (p : Port) : Port := { p with state := .down, wordBits := [] }

/-- The start-up scan's end (R23): the pool, the index, the settings and the counter, every link DOWN, and the live
plane at rest over the loaded geometry (R38, R136, R139). The scan writes nothing; that an entry it drops therefore stays
stored until a swap needs its place, and is judged afresh by each scan until then, is the model's choice (log 43). -/
def State.scanEnd (s : State) (sync : Level) (badCells badEntries badSettings : List Nat) : State :=
  let retired := ((s.nv.chain.filter (fun e => decide (e.2 = .retired))).map Prod.fst)
  let kept := s.nv.index.filter (fun e => !badEntries.contains e.tag)
  let dropped := s.nv.index.any (fun e => badEntries.contains e.tag)
  let scan := kept.foldl (scanEntry s.nv badCells retired) { index := [], image := [], assigned := [], damaged := false }
  let free := (List.range Config.poolCells).filter (fun c => !(retired.contains c || scan.assigned.contains c))
  let loaded := loadSettings s.nv.settings badSettings
  let settings := loaded.getD .factory
  let s1 := { s with
    power := .on
    pl := s.pl.leaveScan, dl := s.dl.leaveScan, sl := s.sl.leaveScan
    pool :=
      { free := free, retired := retired
        chain := s.nv.chain.filter (fun e => retired.contains e.1 || scan.assigned.contains e.1)
        image := scan.image, index := scan.index
        counter := max s.nv.counter (nextRevision scan.index), low := false }
    settings := settings
    positions := List.replicate (settings.columns * settings.rows) .atRest
    dirty := [], cursor := 0, history := []
    timer := { state := if settings.runAtStart then .running else .stopped, counter := settings.reload, stage := 0 }
    frame := { s.frame with settled := sync, candidate := 0 }
    global := .resetWith settings.white }
  let s2 := if scan.damaged || dropped then s1.raise .sl .recordDamaged else s1
  let s3 := if loaded.isNone then s2.raiseAll .settingsLost else s2
  s3.evalLow

end Sys2Proof.Machine
end

