-- ==== Sys2Proof/Machine/Records.lean ====
section
/-! DEFINITION. The survey station's calls on the Record Store (01): SELECT TILE, READ RECORD, LIST RECORDS, SET
WATERMARK, WRITE RECORD, ERASE RECORD, AUDIT POOL; and SAVE SETTINGS. -/
namespace Sys2Proof.Machine

/-- The link permissions of an SL call. -/
def surveyRow (code : Word) (job locked : Bool) : CallRow :=
  { code := code, pl := false, dl := false, sl := true, job := job, locked := locked }

/-- The link permissions of a call of DL and SL. -/
def bothRow (code : Word) (job locked : Bool) : CallRow :=
  { code := code, pl := false, dl := true, sl := true, job := job, locked := locked }

/-- A job accepted on a link (R172). -/
def State.startJob (s : State) (l : Link) (w : JobWork) : State :=
  s.setJob l (some { detached := false, committed := false, work := w })

/-! ### Reading records (R25 to R27) -/

/-- SELECT TILE's effect (R25). -/
def ownSelectTile (l : Link) (ws : List Word) (s : State) : Answer :=
  match parseTag ws with
  | none => .refuse .badLength []
  | some tag =>
    .accept .ok [markWord (s.findEntry tag).isSome]
      (s.setPort l { s.port l with selection := if tag = 0 then none else some tag })

/-- SELECT TILE (R25). -/
def execSelectTile (l : Link) (f : Frame) (s : State) : Host.Outcome State Fault Refusal :=
  .next (takeCall (surveyRow 0x001D false false) false (hasLength 2) (ownSelectTile l f.operands) l f s)

/-- The record groups READ RECORD serves (R26, R183; log 16). -/
def State.recordWords (s : State) (e : IndexEntry) : List Word :=
  let locked := markWord (s.isLocked e.tag)
  let served := fun (c : Content) =>
    words32 e.tag ++ [wordOfNat c.batch] ++ c.base.words ++ [c.presence.word] ++ words32 e.revision ++
      [e.status.word, locked] ++
      (c.survey.map Matrix.words).getD [] ++ (c.drift.map DriftCoef.words).getD [] ++ (c.trim.map Trims.words).getD []
  match e.status with
  | .ok => served (s.content e)
  | .provisional => served (s.content e)
  | .damaged => words32 e.tag ++ words32 e.revision ++ [e.status.word, locked]

/-- READ RECORD's checks and reply (R26). -/
def ownReadRecord (l : Link) (s : State) : Answer :=
  match (s.port l).selection with
  | none => .refuse .noSelection []
  | some tag => match s.findEntry tag with
    | none => .refuse .noRecord []
    | some e => .accept .ok (s.recordWords e) s

/-- READ RECORD (R26). -/
def execReadRecord (l : Link) (f : Frame) (s : State) : Host.Outcome State Fault Refusal :=
  .next (takeCall (surveyRow 0x001E false false) false (hasLength 0) (ownReadRecord l) l f s)

/-- A LIST RECORDS entry (R27). -/
def State.listEntry (s : State) (e : IndexEntry) : List Word :=
  let groups := match e.status with
    | .ok => (s.content e).presence.word
    | .provisional => (s.content e).presence.word
    | .damaged => 0
  words32 e.tag ++ words32 e.revision ++ [e.status.word, groups, markWord (s.isLocked e.tag)]

/-- LIST RECORDS' reply (R27). -/
def ownListRecords (ws : List Word) (s : State) : Answer :=
  match parseTag ws with
  | none => .refuse .badLength []
  | some start =>
    let found := s.pool.index.filter (fun e => decide (start ≤ e.tag))
    let shown := found.take Config.listEntries
    .accept .ok
      ([wordOfNat s.pool.index.length, wordOfNat shown.length] ++ shown.flatMap s.listEntry ++
        [markWord (decide (shown.length < found.length))]) s

/-- LIST RECORDS (R27). -/
def execListRecords (l : Link) (f : Frame) (s : State) : Host.Outcome State Fault Refusal :=
  .next (takeCall (surveyRow 0x001F false false) false (hasLength 2) (ownListRecords f.operands) l f s)

/-- SET WATERMARK's check and effect (R11). -/
def ownSetWatermark (ws : List Word) (s : State) : Answer :=
  match ws with
  | [w] =>
    if 255 < w.toNat then .refuse .badValue []
    else .accept .ok [] { s with settings := { s.settings with watermark := w.toNat } }.evalLow
  | _ => .refuse .badLength []

/-- SET WATERMARK (R11). -/
def execSetWatermark (l : Link) (f : Frame) (s : State) : Host.Outcome State Fault Refusal :=
  .next (takeCall (surveyRow 0x0020 false false) false (hasLength 1) (ownSetWatermark f.operands) l f s)

/-! ### WRITE RECORD (R12, R13) -/

/-- A record write accepted: cells claimed, tag locked, slot reserved if the tag is new, the first cell queued
(R13). -/
def State.acceptWrite (s : State) (l : Link) (tag : Nat) (groups : List Group) : State :=
  let w : RecWrite :=
    { tag := tag, groups := groups, written := [], unwritten := s.pool.free.take groups.length, phase := .cells
      chained := 0, replacements := 0, retired := 0, reserved := (s.findEntry tag).isNone, provisional := false
      revision := none }
  ((s.claimCells groups.length).startJob l (.write w)).nextWriteStep l w

/-- WRITE RECORD's checks in their order (R13). -/
def State.writeRefusal (s : State) (o : WriteOps) : Option Status :=
  if s.isLocked o.tag then some .recordBusy
  else if o.hasHead = false ∧ s.hasUsable o.tag = false then some .noHead
  else if (s.findEntry o.tag).isNone = true ∧ Config.maxRecords ≤ s.pool.index.length + s.reservations then
    some .indexFull
  else if s.freeCount < ((s.newContent o).groups o.tag).length then some .poolFull
  else if o.valuesOk = false then some .badValue
  else none

/-- WRITE RECORD's checks and effect (R12, R13). -/
def ownWriteRecord (l : Link) (ws : List Word) (s : State) : Answer :=
  match parseWrite ws with
  | .short => .refuse .badLength []
  | .outside => .refuse .badValue []
  | .ok o _ => match s.writeRefusal o with
    | some st => .refuse st []
    | none => .accept .ok [] (s.acceptWrite l o.tag ((s.newContent o).groups o.tag))

/-- WRITE RECORD (R12, R13). -/
def execWriteRecord (l : Link) (f : Frame) (s : State) : Host.Outcome State Fault Refusal :=
  .next (takeCall (surveyRow 0x0021 true true) false writeLengthOk (ownWriteRecord l f.operands) l f s)

/-! ### ERASE RECORD, AUDIT POOL, SAVE SETTINGS -/

/-- ERASE RECORD's checks and effect (R18). -/
def ownEraseRecord (l : Link) (ws : List Word) (s : State) : Answer :=
  match parseTag ws with
  | none => .refuse .badLength []
  | some tag =>
    if s.isLocked tag then .refuse .recordBusy []
    else if (s.findEntry tag).isNone then .refuse .noRecord []
    else if (s.positionOf tag).isSome then .refuse .tilePlaced []
    else .accept .ok [] ((s.startJob l (.erase tag)).request l (.remove tag))

/-- ERASE RECORD (R18). -/
def execEraseRecord (l : Link) (f : Frame) (s : State) : Host.Outcome State Fault Refusal :=
  .next (takeCall (surveyRow 0x0022 true true) false (hasLength 2) (ownEraseRecord l f.operands) l f s)

/-- AUDIT POOL's effect (R20): the walk of the index begins. -/
def ownAuditPool (l : Link) (s : State) : Answer :=
  let a : AuditWork := { last := 0, checked := 0, damaged := 0, skipped := 0, reading := none }
  .accept .ok [] ((s.startJob l (.audit a)).auditAdvance l a)

/-- AUDIT POOL (R20). -/
def execAuditPool (l : Link) (f : Frame) (s : State) : Host.Outcome State Fault Refusal :=
  .next (takeCall (surveyRow 0x0023 true false) false (hasLength 0) (ownAuditPool l) l f s)

/-- The link runs a SAVE SETTINGS, detached or not (R22, R179). -/
def Port.saving (p : Port) : Bool :=
  match p.job with
  | none => false
  | some j => match j.work with
    | .save _ => true
    | .write _ => false
    | .erase _ => false
    | .audit _ => false
    | .hang _ => false

/-- The other link of DL and SL. -/
def otherLink : Link → Link
  | .dl => .sl
  | .sl => .dl
  | .pl => .pl

/-- SAVE SETTINGS' check and effect (R22). -/
def ownSaveSettings (l : Link) (s : State) : Answer :=
  if (s.port (otherLink l)).saving then .refuse .settingsBusy []
  else
    let v : SaveWork := { image := s.settings, cell := 0, written := 0, cellRewrites := 0, rewrites := 0 }
    .accept .ok [] ((s.startJob l (.save v)).request l (.settings 0 s.settings))

/-- SAVE SETTINGS (R22). -/
def execSaveSettings (l : Link) (f : Frame) (s : State) : Host.Outcome State Fault Refusal :=
  .next (takeCall (bothRow 0x002A true true) false (hasLength 0) (ownSaveSettings l) l f s)

end Sys2Proof.Machine
end

