-- ==== Sys2Proof/Machine/Branches.lean ====
section
/-! DEFINITION. The calls on the tile chain (03): SWEEP NOW, SENSE BRANCHES, CLEAR BRANCH. -/
namespace Sys2Proof.Machine

/-- SWEEP NOW's checks and effect (R62): the depth is counted as the order joins. -/
def ownSweepNow (ws : List Word) (s : State) : Answer :=
  match ws with
  | [b] =>
    if 3 < b.toNat then .refuse .badValue []
    else if Config.orderPlaces ≤ s.orders.length then .refuse .queueFull []
    else .accept .ok [wordOfNat (s.orders.length + 1)]
      (s.queueOrder { kind := .sweep, branch := b.toNat, orig := .sweepNow })
  | _ => .refuse .badLength []

/-- SWEEP NOW (R62). -/
def execSweepNow (l : Link) (f : Frame) (s : State) : Host.Outcome State Fault Refusal :=
  .next (takeCall (bothRow 0x002B false false) false (hasLength 1) (ownSweepNow f.operands) l f s)

/-- A branch in SENSE BRANCHES (R64). -/
def State.branchWords (s : State) (b : Nat) : List Word :=
  let x := s.branch b
  [x.state.word, markWord x.clash, markWord x.timeout, markWord x.excess, wordOfNat x.lastCount,
   wordOfNat x.serial] ++ optWords (x.orig.map Originator.place) ++ [markWord (s.owed.contains b)]

/-- An order: kind, branch, originator. -/
def Order.words (o : Order) : List Word := [o.kind.word, wordOfNat o.branch, wordOfNat o.orig.place]

/-- SENSE BRANCHES' reply (R64; log 15). -/
def senseBranchesWords (s : State) : List Word :=
  [0, 1, 2, 3].flatMap s.branchWords ++
    (match s.wire with
     | none => [0, 0, 0, 0]
     | some w => 1 :: w.order.words) ++
    wordOfNat s.orders.length :: s.orders.flatMap Order.words

/-- The flags of the branches in a reset set cleared (R63, R64). -/
def State.clearFlags (s : State) (reset : List Nat) : State :=
  reset.foldl (fun acc b => acc.modBranch b (fun x => { x with clash := false, timeout := false, excess := false })) s

/-- SENSE BRANCHES' check and effect (R64). -/
def ownSenseBranches (ws : List Word) (s : State) : Answer :=
  match ws with
  | [w] =>
    if setOk 4 w then .accept .ok (senseBranchesWords s) (s.clearFlags (setMembers 4 w)) else .refuse .badValue []
  | _ => .refuse .badLength []

/-- SENSE BRANCHES (R64). -/
def execSenseBranches (l : Link) (f : Frame) (s : State) : Host.Outcome State Fault Refusal :=
  .next (takeCall (bothRow 0x002C false false) false (hasLength 1) (ownSenseBranches f.operands) l f s)

/-- CLEAR BRANCH's check and effect (R59). -/
def ownClearBranch (ws : List Word) (s : State) : Answer :=
  match ws with
  | [w] =>
    let b := w.toNat
    if 3 < b then .refuse .badValue []
    else
      let found := (s.branch b).state
      .accept .ok [found.word] (if found = .fault then ((s.setBranchState b .idle).tellIdle b).kick else s)
  | _ => .refuse .badLength []

/-- CLEAR BRANCH (R59). -/
def execClearBranch (l : Link) (f : Frame) (s : State) : Host.Outcome State Fault Refusal :=
  .next (takeCall (bothRow 0x002D false true) false (hasLength 1) (ownClearBranch f.operands) l f s)

end Sys2Proof.Machine
end

