-- ==== Sys2Proof/Machine/Chain.lean ====
section
/-! DEFINITION. The tile chain's events (03): the transmitter's take (R48), places given out (R49), echoes and wire
faults (R43, R45), sweeps (R52, R53, R55), answers and the ends of answer streams (R43, R50, R51, R57, R58). -/
namespace Sys2Proof.Machine

/-- TRANSMITTER_TAKE (R48): what a free transmitter still has to take, it takes (log 3). -/
def execTransmitterTake (s : State) : Host.Outcome State Fault Refusal :=
  .next s.kick

/-- OWED_GATHER_QUEUE (R49): a free place goes to the first owed gather. -/
def execOwedGatherQueue (s : State) : Host.Outcome State Fault Refusal :=
  .next (match s.owed with
    | [] => s
    | b :: rest => if s.orders.length < Config.orderPlaces then (s.giveOwed b rest).kick else s)

/-- SPACE_WAITER_QUEUE (R49): with no gather owed, a free place goes to the first waiting hang. -/
def execSpaceWaiterQueue (s : State) : Host.Outcome State Fault Refusal :=
  .next (match s.owed, s.spaceWaiters with
    | [], l :: rest => if s.orders.length < Config.orderPlaces then (s.giveWaiter l rest).kick else s
    | _, _ => s)

/-- The order on the wire of a branch. -/
def State.wireOf (s : State) (b : Nat) : Option Wire :=
  match s.wire with
  | none => none
  | some w => if w.order.branch = b then some w else none

/-- ECHO_ARRIVE (R43, R52): the order's echo is taken; any other header is disregarded. A SWEEP's echo that comes
after its 1 ms point puts the branch in SWEEPING. That a header of the order's kind and serial whose bits 15-6 are not
zero is no echo is the model's choice (log 44). -/
def execEchoArrive (branch : Nat) (header : Word) (s : State) : Host.Outcome State Fault Refusal :=
  .next (match s.wireOf branch with
    | none => s
    | some w =>
      if w.echoed = false ∧ header = headerWord w.order.kind (s.branch branch).serial then
        if w.order.kind = .sweep ∧ w.startPassed = true then s.enterSweeping branch w.doneHeld
        else { s with wire := some { w with echoed := true } }
      else s)

/-- WIRE_FAULT (R45): 5 ms without the echo. The originator is told, and then the transmitter, free, takes its next
order (log 38). -/
def execWireFault (s : State) : Host.Outcome State Fault Refusal :=
  .next (match s.wire with
    | none => s
    | some w =>
      if w.echoed then s
      else
        let b := w.order.branch
        let s := (s.modBranch b (fun x => { x with state := .fault, orig := none, sweepTimer := false })).raiseDlSl
          .branchFault
        (if w.dropped then s else s.tell w.order.orig b .branchFault).freeWire)

/-- SWEEP_START_POINT (R52): 1 ms from the sending of a SWEEP. -/
def execSweepStartPoint (s : State) : Host.Outcome State Fault Refusal :=
  .next (match s.wire with
    | none => s
    | some w =>
      if w.order.kind = .sweep ∧ w.startPassed = false then
        if w.echoed then s.enterSweeping w.order.branch w.doneHeld
        else { s with wire := some { w with startPassed := true } }
      else s)

/-- DONE_REPORT (R53): taken in SWEEPING, held in STARTING after the echo, disregarded otherwise. That a report of the
right serial whose bits 15-6 are not zero is disregarded is the model's choice (log 44). -/
def execDoneReport (branch : Nat) (report : Word) (s : State) : Host.Outcome State Fault Refusal :=
  .next (
    if report = doneWord (s.branch branch).serial then
      if (s.branch branch).state = .sweeping then s.takeDone branch
      else match s.wireOf branch with
        | none => s
        | some w =>
          if (s.branch branch).state = .starting ∧ w.order.kind = .sweep ∧ w.echoed = true then
            { s with wire := some { w with doneHeld := true } }
          else s
    else s)

/-- SWEEP_TIMEOUT (R55): the sweep timer of a SWEEPING branch reaches 250 ms. -/
def execSweepTimeout (branch : Nat) (s : State) : Host.Outcome State Fault Refusal :=
  .next (
    let x := s.branch branch
    if x.state = .sweeping then
      let s := (s.modBranch branch (fun x =>
        { x with state := .idle, timeout := true, sweepTimer := false, orig := none })).raiseDlSl .sweepTimeout
      let s := match x.orig with
        | none => s
        | some o => s.tell o branch .timedOut
      (s.tellIdle branch).kick
    else s)

/-- The answer kept, counted, or marked bad (R43, R50, R51, R57). -/
def Wire.takeAnswer (w : Wire) (words : List Word) : Wire :=
  match w.order.kind with
  | .rollCall =>
    if w.bad then { w with count := w.count + 1 }
    else match rollAnswerOf words with
      | none => { w with count := w.count + 1, bad := true }
      | some (tag, batch, o) =>
        { w with
          count := w.count + 1
          rolls := if w.count < Config.usedAnswers then
              w.rolls ++ [{ chainIndex := w.count, tag := tag, batch := batch, orientation := o }]
            else w.rolls }
  | .gather => match sampleOf words with
    | none => { w with count := w.count + 1 }
    | some x =>
      { w with
        count := w.count + 1
        samples := if w.count < Config.usedAnswers then w.samples ++ [x] else w.samples }
  | .sweep => w

/-- TILE_ANSWER (R43, R44): an answer of the stream that follows the echo; words that begin with 0000 are no
answer (log 21). -/
def execTileAnswer (branch : Nat) (words : List Word) (s : State) : Host.Outcome State Fault Refusal :=
  .next (match s.wireOf branch, words with
    | some w, lead :: rest =>
      if w.echoed = true ∧ lead ≠ 0 then { s with wire := some (w.takeAnswer (lead :: rest)) } else s
    | _, _ => s)

/-- END_MARKER (R43, R50, R51, R58). -/
def execEndMarker (branch : Nat) (s : State) : Host.Outcome State Fault Refusal :=
  .next (match s.wireOf branch with
    | none => s
    | some w => if w.echoed then s.endStream w false else s)

/-- ANSWER_STREAM_BREAK (R43, R51, R58): 1 ms with neither an answer nor the end marker. -/
def execAnswerStreamBreak (s : State) : Host.Outcome State Fault Refusal :=
  .next (match s.wire with
    | none => s
    | some w => if w.echoed then s.endStream w true else s)

end Sys2Proof.Machine
end

