-- ==== Sys2Proof/Machine/CommitOps.lean ====
section
/-! DEFINITION. The Commit Engine's work (07, 08): the application of each kind of entry (R112, R115, R126, R144,
R76 to R78), the taking of drift-dirty positions (R127), ramps (R130, R131), epoch and digest (R132 to R135), the
frame tick (R119, R124), the filter (R117), and the resets of the live plane (R137, R138). -/
namespace Sys2Proof.Machine

/-! ### GLOBAL and OVERRIDE -/

/-- The intent with the given operands taken (R112). -/
def Intent.put (i : Intent) (o : IntentOps) : Intent :=
  { master := o.master.getD i.master, white := o.white.getD i.white
    trimR := o.trimR.getD i.trimR, trimG := o.trimG.getD i.trimG, trimB := o.trimB.getD i.trimB }

/-- A GLOBAL entry applied (R112, R129). -/
def State.applyGlobal (s : State) (ramp : Nat) (o : IntentOps) : State :=
  let intent := s.global.intent.put o
  { s with global := { s.global with
      intent := intent, target := globalTargetOf s.settings.white intent, remaining := max ramp 1 } }

/-- An OVERRIDE entry applied (R115). -/
def State.applyOverride (s : State) (i : Nat) (level : Option Nat) (ramp : Nat) : State :=
  (s.modPosition i (fun p => { p with override := level })).compute ramp i

/-! ### Adoption at a position (R104) -/

/-- A position takes a copy: its state follows from the copy's source, its target is computed with the ramp of the
entry that adopted, and PENDING is re-evaluated (R104, R107, R37). `cause` is used for a DEFAULT copy. -/
def State.adoptAt (s : State) (ramp i : Nat) (t : TileAt) (a : Adopted) (cause : Cause) : State :=
  let hung : Hung := match a.source with
    | .record => .placed t
    | .default => .unrecorded t cause
  ((s.modPosition i (fun p => { p with hung := hung, adopted := some a })).compute ramp i).refreshPending i

/-- The cause of a position that a TAKE has adopt the batch default, by the tag's record condition (R35, R104). -/
def State.takenCause (s : State) (tag : Nat) : Cause :=
  match s.condition tag with
  | .damaged => .damaged
  | .absent => .noRecord
  | .usable _ _ => .noRecord

/-- The adoption a TAKE makes for a reason (R126). A reason that needs the record finds it, by R105. A DEFAULT copy
adopted again for BATCH_CHANGED takes its cause from the record's condition, as R35 and R104 say; R126's table calls
it unchanged (log 40). -/
def State.takeAt (s : State) (ramp i : Nat) (t : TileAt) (a : Adopted) (r : Reason) : State :=
  let again := s.adoptDefault a.tag a.batch
  let fromRecord := match s.findEntry a.tag with
    | none => s
    | some e => s.adoptAt ramp i t (s.adoptRecord e) .noRecord
  match r with
  | .newRevision => fromRecord
  | .recordAvailable => fromRecord
  | .recordAbsent => s.adoptAt ramp i t again .noRecord
  | .recordDamaged => s.adoptAt ramp i t again .damaged
  | .batchChanged => match a.source with
    | .record => fromRecord
    | .default => s.adoptAt ramp i t again (s.takenCause a.tag)

/-- A TAKE at one position: adopted if it has a pending reason (R126). -/
def takePosition (ramp : Nat) (s : State) (i : Nat) : State :=
  match s.positions[i]? with
  | none => s
  | some p => match p.hung.occupant, p.adopted, s.pendingReason p with
    | some t, some a, some r => s.takeAt ramp i t a r
    | _, _, _ => s

/-- The position record of an occupied position (R140). -/
def posRecord (e : Nat × Position) : Option PosRecord :=
  match e.2.hung.occupant, e.2.adopted with
  | some t, some a => some { position := e.1, tag := t.tag, copy := a, cause := e.2.hung.cause }
  | _, _ => none

/-- The restore point of the plane as it stands (R140). -/
def State.restorePoint (s : State) : List PosRecord := s.indexed.filterMap posRecord

/-- A restore point pushed: onto the top, or over the top of a full History with HISTORY_OVERRUN (R141, R142). -/
def State.pushPoint (s : State) : State :=
  if s.history.length < Config.historyPlaces then { s with history := s.restorePoint :: s.history }
  else { s with history := s.restorePoint :: s.history.tail }.raise .dl .historyOverrun

/-- The positions that pass the first step of a TAKE, ascending (R126). -/
def State.passing (s : State) : List Nat :=
  (s.indexed.filter (fun e => (s.pendingReason e.2).isSome)).map Prod.fst

/-- A TAKE entry applied (R126). -/
def State.applyTake (s : State) (ramp : Nat) : State :=
  match s.passing with
  | [] => s
  | i :: rest => (i :: rest).foldl (takePosition ramp) s.pushPoint

/-! ### REVERT (R144 to R147) -/

/-- The cause of a restored DEFAULT copy (R145). -/
def State.restoredCause (s : State) (r : PosRecord) : Cause :=
  match s.condition r.tag with
  | .damaged => .damaged
  | .absent => .noRecord
  | .usable _ _ => r.cause.getD .noRecord

/-- One position record of the popped point: restored, left, or counted as skipped (R144, R145). -/
def restorePosition (ramp : Nat) (a : State × Nat) (r : PosRecord) : State × Nat :=
  match a.1.positions[r.position]? with
  | none => (a.1, a.2 + 1)
  | some p => match p.hung.occupant with
    | none => (a.1, a.2 + 1)
    | some t =>
      if t.tag = r.tag then
        if p.adopted = some r.copy then a
        else (a.1.adoptAt ramp r.position t r.copy (a.1.restoredCause r), a.2)
      else (a.1, a.2 + 1)

/-- A REVERT entry applied (R144, R146, R147). -/
def State.applyRevert (s : State) (ramp : Nat) : State :=
  match s.history with
  | [] => s.raise .dl .historyEmpty
  | point :: rest =>
    let a := point.foldl (restorePosition ramp) ({ s with history := rest }, 0)
    { a.1 with lastSkipped := a.2 }

/-! ### PLACE (R76 to R78) -/

/-- The tag a decided entry places. -/
def placedTag (e : Nat × Hung) : Option Nat := e.2.tag

/-- A tag placed that occupies no live position (R76, third to fifth case). -/
def State.placeNew (s : State) (seen : List TileSeen) (t : TileAt) (noSpace : Bool) : Hung × Option Adopted :=
  let batch := seenBatch seen t.tag
  match s.findEntry t.tag with
  | none => (.unrecorded t (if noSpace then .noSpace else .noRecord), some (s.adoptDefault t.tag batch))
  | some e => match e.status with
    | .damaged => (.unrecorded t .damaged, some (s.adoptDefault t.tag batch))
    | .ok => (.placed t, some (s.adoptRecord e))
    | .provisional => (.placed t, some (s.adoptRecord e))

/-- A tag placed: kept or moved with its state, cause and copy, or new (R76). -/
def State.placeTag (s : State) (seen : List TileSeen) (t : TileAt) (noSpace : Bool) : Hung × Option Adopted :=
  match s.positionOf t.tag with
  | none => s.placeNew seen t noSpace
  | some j => match s.positions[j]? with
    | none => s.placeNew seen t noSpace
    | some q => match q.hung with
      | .unrecorded _ c => (.unrecorded t c, q.adopted)
      | _ => (.placed t, q.adopted)

/-- The live entry and copy after the application at a decided position (R76); `s` is the state just before it. -/
def State.placeEntry (s : State) (seen : List TileSeen) : Hung → Hung × Option Adopted
  | .empty => (.empty, none)
  | .duplicate t => (.duplicate t, none)
  | .placed t => s.placeTag seen t false
  | .unrecorded t c => s.placeTag seen t (decide (c = .noSpace))

/-- The positions the application touches: the decided ones (R76), and each other live position whose tag, in R32's
sense of what the entry shows, a decided entry places: it reads EMPTY in the staged map (R68, R72). -/
def State.placeChanges (s : State) (staged : List (Nat × Hung)) (seen : List TileSeen) :
    List (Nat × (Hung × Option Adopted)) :=
  let tags := staged.filterMap placedTag
  s.indexed.filterMap (fun e => match mapGet e.1 staged with
    | some h => some (e.1, s.placeEntry seen h)
    | none => match e.2.hung.shown with
      | none => none
      | some tag => if tags.contains tag then some (e.1, (Hung.empty, none)) else none)

/-- The entry changed in its state, its tag or its orientation (R77). -/
def hungChanged (a b : Hung) : Bool :=
  decide (a.state ≠ b.state) ||
    decide (a.tile.map (fun t => (t.tag, t.orientation)) ≠ b.tile.map (fun t => (t.tag, t.orientation)))

/-- A Tile Status entry just created (R40). -/
def TileStatus.new (tag : Nat) : TileStatus :=
  { tag := tag, e := none, ePosted := none, h := none, hPosted := none, miss := 0, fresh := 0 }

/-- A Tile Status table with an entry inserted, tags rising. -/
def insertStatus (t : TileStatus) : List TileStatus → List TileStatus
  | [] => [t]
  | x :: xs => if t.tag < x.tag then t :: x :: xs else if t.tag = x.tag then x :: xs else x :: insertStatus t xs

/-- The Tile Status table after a PLACE: entries of tags that have left removed, missing entries created (R40). -/
def statusAfterPlace (live : List Position) (tiles : List TileStatus) : List TileStatus :=
  let tags := live.filterMap (fun p => p.hung.tag)
  tags.foldl (fun acc tag => insertStatus (TileStatus.new tag) acc) (tiles.filter (fun t => tags.contains t.tag))

/-- A placed tag that occupied another live position before the application (R76, second case). -/
def State.movedByPlace (s : State) (e : Nat × Hung) : Bool :=
  match placedTag e with
  | none => false
  | some tag => match s.positionOf tag with
    | none => false
    | some j => decide (j ≠ e.1)

/-- The live map with the changes laid over it. -/
def layChanges (changes : List (Nat × (Hung × Option Adopted))) (live : List Position) : List Position :=
  ((List.range live.length).zip live).map (fun e => match mapGet e.1 changes with
    | none => e.2
    | some c => { e.2 with hung := c.1, adopted := c.2 })

/-- The placed count: the positions on the routes of a hang that a tag occupies (R76; log 35). -/
def State.placedCount (s : State) (h : HangWork) : Nat :=
  let route := h.branches.flatMap (fun b => b.route.positions s.settings.columns s.settings.rows)
  (s.indexed.filter (fun e => route.contains e.1 && e.2.hung.tag.isSome)).length

/-- The unrecorded count: the decided positions that are UNRECORDED after the application (R76). -/
def State.unrecordedCount (s : State) (staged : List (Nat × Hung)) : Nat :=
  (s.indexed.filter (fun e => (mapGet e.1 staged).isSome && decide (e.2.hung.state = .unrecorded))).length

/-- The end of a hang whose PLACE has been applied, its last counts set (R76, R78). -/
def State.endHang (s : State) (l : Link) (moved unrecorded : Nat) : State :=
  match s.hangOf l with
  | none => s
  | some h =>
    let h := { h with counts := { h.counts with placed := s.placedCount h, moved := moved, unrecorded := unrecorded } }
    s.finishJob l (if h.branches.any (fun b => b.outcome.isFailed) then .donePartial else .done) .none
      (JobWork.hang h).fields

/-- A PLACE entry applied (R76 to R78). -/
def State.applyPlace (s : State) (l : Link) (ramp : Nat) (staged : List (Nat × Hung)) (seen : List TileSeen) :
    State :=
  let changes := s.placeChanges staged seen
  let live := layChanges changes s.positions
  let recompute := (changes.filter (fun c => match s.positions[c.1]? with
    | none => false
    | some p => hungChanged p.hung c.2.1)).map Prod.fst
  let s1 := { s with positions := live, tiles := statusAfterPlace live s.tiles }
  let s2 := recompute.foldl (fun acc i => State.compute acc ramp i) s1
  let s3 := (changes.map Prod.fst).foldl State.refreshPending s2
  s3.endHang l (staged.filter s.movedByPlace).length (s3.unrecordedCount staged)

/-! ### Phase 1 (R125, R122) -/

/-- The entry is a TAKE. -/
def Change.isTake : Change → Bool
  | .take _ => true
  | .global _ _ => false
  | .revert _ => false
  | .override _ _ _ => false
  | .place _ _ _ _ => false

/-- One entry of the Change Queue applied. -/
def State.applyChange (s : State) : Change → State
  | .global ramp o => s.applyGlobal ramp o
  | .take ramp => s.applyTake ramp
  | .revert ramp => s.applyRevert ramp
  | .override i level ramp => s.applyOverride i level ramp
  | .place l ramp staged seen => s.applyPlace l ramp staged seen

/-- Phase 1: every entry applied, oldest first; then each waiting hang posts (R125, R122). -/
def State.applyQueue (s : State) : State :=
  let s1 := { (s.changes.foldl State.applyChange s) with changes := [] }
  s1.postWaiters.foldl State.post { s1 with postWaiters := [] }

/-! ### Phase 2 (R127) -/

/-- The drift-dirty positions a tick takes, in cursor order. -/
def State.driftTaken (s : State) : List Nat :=
  ((s.dirty.filter (fun i => decide (s.cursor < i))) ++ (s.dirty.filter (fun i => decide (i ≤ s.cursor)))).take
    s.settings.budget

/-- Phase 2: drift-dirty positions taken up to the budget, unless drift is held. -/
def State.takeDirty (s : State) : State :=
  if s.hold then s
  else
    let taken := s.driftTaken
    let s' := taken.foldl (fun acc i => State.compute acc acc.settings.driftRamp i) s
    { s' with cursor := taken.getLast?.getD s'.cursor }

/-! ### Phase 3 (R130, R131) -/

/-- One step of a term: `a + trunc((g - a) / n)`. -/
def stepTerm (n : Nat) (a g : Int) : Int := a + Int.tdiv (g - a) (n : Int)

/-- One step of a Correction toward its target. -/
def Correction.step (n : Nat) (a g : Correction) : Correction :=
  { gR := stepTerm n a.gR g.gR, gG := stepTerm n a.gG g.gG, gB := stepTerm n a.gB g.gB
    xRG := stepTerm n a.xRG g.xRG, xRB := stepTerm n a.xRB g.xRB
    xGR := stepTerm n a.xGR g.xGR, xGB := stepTerm n a.xGB g.xGB
    xBR := stepTerm n a.xBR g.xBR, xBG := stepTerm n a.xBG g.xBG
    tL := stepTerm n a.tL g.tL, tR := stepTerm n a.tR g.tR, tT := stepTerm n a.tT g.tT, tB := stepTerm n a.tB g.tB
    level := stepTerm n a.level g.level }

/-- One step of a position's ramp; a position at rest is not stepped. -/
def Position.step (p : Position) : Position :=
  if p.remaining = 0 then p
  else { p with applied := p.applied.step p.remaining p.target, remaining := p.remaining - 1 }

/-- One step of the global vector. -/
def GlobalVector.step (n : Nat) (a g : GlobalVector) : GlobalVector :=
  { level := stepTerm n a.level g.level, r := stepTerm n a.r g.r, g := stepTerm n a.g g.g, b := stepTerm n a.b g.b }

/-- One step of the global ramp. -/
def Global.step (g : Global) : Global :=
  if g.remaining = 0 then g
  else { g with applied := g.applied.step g.remaining g.target, remaining := g.remaining - 1 }

/-- Phase 3: every ramp stepped. -/
def State.stepRamps (s : State) : State :=
  { s with positions := s.positions.map Position.step, global := s.global.step }

/-! ### Phase 4 (R132 to R135) -/

/-- The epoch's next value; past its end, a free value (log 14). -/
def nextEpoch (e : BitVec 48) : BitVec 48 := if e = BitVec.allOnes 48 then Config.epochPastEnd else e + 1

/-- The digest is fully fetched (R134). -/
def Digest.fullyFetched (d : Digest) : Bool := d.fetched.all (fun b => b)

/-- The entries of the changed positions of a tick, ascending (R132, R133). `before` is the plane at its start. -/
def State.changedEntries (s : State) (before : List Position) : List DigestEntry :=
  (s.indexed.filter (fun e => decide ((before[e.1]?).map Position.applied ≠ some e.2.applied))).map
    (fun e => e.2.entry s.tiles e.1)

/-- The part count of a digest (R133). -/
def partCount (changed : Nat) : Nat :=
  if changed ≤ Config.digestEntries then max ((changed + 15) / Config.partEntries) 1 else 1

/-- The digest of a new epoch (R133). -/
def State.newDigest (s : State) (entries : List DigestEntry) (globalChanged : Bool) (epoch : BitVec 48) : Digest :=
  let overflow := decide (Config.digestEntries < entries.length)
  { epoch := epoch, previous := s.digest.epoch, changed := entries.length, globalChanged := globalChanged
    overflow := overflow, entries := if overflow then [] else entries
    fetched := List.replicate (partCount entries.length) false }

/-- Phase 4: the epoch advanced and the digest built when something applied changed (R132, R134, R135). -/
def State.buildDigest (s : State) (before : List Position) (globalBefore : GlobalVector) : State :=
  let entries := s.changedEntries before
  let globalChanged := decide (s.global.applied ≠ globalBefore)
  if entries.isEmpty = true ∧ globalChanged = false then s
  else
    let epoch := nextEpoch s.epoch
    let s' := if s.digest.fullyFetched then s else s.raise .pl .digestMissed
    { s' with epoch := epoch, digest := s.newDigest entries globalChanged epoch }.raise .pl .epochReady

/-- The commit (R124). -/
def State.commit (s : State) : State :=
  s.applyQueue.takeDirty.stepRamps.buildDigest s.positions s.global.applied

/-! ### Frame ticks and the filter (R117, R119) -/

/-- A pulse of the FRAME source, when it is the selected one (R83). -/
def State.framePulse (s : State) : State :=
  match s.settings.source with
  | .base => s
  | .frame => s.sourcePulse

/-- A frame tick: the state RUNNING, the timer from 0, the commit, and the FRAME source's pulse before or after
it (R119; log 6). -/
def State.tick (s : State) (pulseFirst : Bool) : State :=
  let s := { s with frame := { s.frame with state := .running, timerRunning := true } }
  if pulseFirst then s.framePulse.commit else s.commit.framePulse

/-- The active level of an edge polarity (R117). -/
def Polarity.activeLevel : Polarity → Level
  | .rising => .high
  | .falling => .low

/-- A filter clock sample (R117). -/
def State.sample (s : State) (level : Level) (pulseFirst : Bool) : State :=
  if level = s.frame.settled then { s with frame := { s.frame with candidate := 0 } }
  else if s.frame.candidate = 0 then { s with frame := { s.frame with candidate := 1 } }
  else
    let s' := { s with frame := { s.frame with settled := level, candidate := 0 } }
    if level = s.settings.polarity.activeLevel then s'.tick pulseFirst else s'

/-! ### Resets of the live plane (R137, R138, R180) -/

/-- The plane of a grid at rest: every position EMPTY, the dirty set empty, the cursor 0, the History clear. -/
def State.planeAtRest (s : State) (count : Nat) : State :=
  { s with positions := List.replicate count .atRest, dirty := [], cursor := 0, history := [] }

/-- A hang abandoned by WALL RESET, its record as it stood in `s0` (R80, R180). The entry of a posted one goes with
the queue. -/
def wallResetHang (s0 : State) (a : State × Nat) (l : Link) : State × Nat :=
  match (s0.port l).job with
  | none => a
  | some j => match j.work with
    | .hang _ =>
      let s := a.1.abandonJob l
      if j.detached then (s, a.2 + 1)
      else ((s.setPort l { s.port l with record := j.abandonedRecord }).raise l .jobDone, a.2 + 1)
    | .write _ => a
    | .erase _ => a
    | .audit _ => a
    | .save _ => a

/-- The live plane reset (R138). -/
def State.resetPlane (s : State) : State :=
  let s := s.planeAtRest s.positionCount
  { s with
    changes := [], postWaiters := [], tiles := [], lastSkipped := 0
    global := .resetWith s.settings.white, epoch := 0, digest := .reset }.raise .pl .epochReady

end Sys2Proof.Machine
end

