-- ==== Sys2Proof/Machine/Desk.lean ====
section
/-! DEFINITION. The desk's calls on the live plane (06, 07, 08, 10): SET GLOBAL, OVERRIDE, TAKE, SET FRAME EDGE, REVERT,
SHOW LOCK, SHOW UNLOCK, WALL RESET. -/
namespace Sys2Proof.Machine

/-- The link permissions of a DL call. -/
def deskRow (code : Word) : CallRow :=
  { code := code, pl := false, dl := true, sl := false, job := false, locked := false }

/-- An entry joins the back of the Change Queue (R121). -/
def State.enqueue (s : State) (c : Change) : State := { s with changes := s.changes ++ [c] }

/-- The Change Queue has no free place (R122). -/
def State.queueFull (s : State) : Bool := decide (Config.changePlaces ≤ s.changes.length)

/-- The queue depth word. -/
def State.depthWord (s : State) : Word := wordOfNat s.changes.length

/-- A given operand passes its test; an omitted one always does. -/
def optOk {α : Type} (p : α → Bool) : Option α → Bool
  | none => true
  | some a => p a

/-! ### SET GLOBAL, OVERRIDE, TAKE, REVERT -/

/-- The given operands of SET GLOBAL are in range (R112). -/
def IntentOps.ok (o : IntentOps) : Bool :=
  optOk (fun m => decide (m ≤ 1000)) o.master && optOk (fun w => decide (w ≤ 15)) o.white &&
    optOk (inRange (-256) 255) o.trimR && optOk (inRange (-256) 255) o.trimG && optOk (inRange (-256) 255) o.trimB

/-- SET GLOBAL's checks and effect (R112). -/
def ownSetGlobal (ws : List Word) (s : State) : Answer :=
  match parseSetGlobal ws with
  | none => .refuse .badValue []
  | some (ramp, o) =>
    if Config.maxRamp < ramp ∨ o.ok = false then .refuse .badValue []
    else if s.queueFull then .refuse .queueFull []
    else
      let s' := s.enqueue (.global ramp o)
      .accept .ok [s'.depthWord] s'

/-- SET GLOBAL (R112). -/
def execSetGlobal (l : Link) (f : Frame) (s : State) : Host.Outcome State Fault Refusal :=
  .next (takeCall (deskRow 0x000D) false (hasLength 11) (ownSetGlobal f.operands) l f s)

/-- OVERRIDE's checks and effect (R115). -/
def ownOverride (ws : List Word) (s : State) : Answer :=
  match parseOverride ws with
  | none => .refuse .badValue []
  | some (i, level, ramp) =>
    if s.positionCount ≤ i ∨ optOk (fun v => decide (v ≤ 1000)) level = false ∨ Config.maxRamp < ramp then
      .refuse .badValue []
    else if s.queueFull then .refuse .queueFull []
    else
      let s' := s.enqueue (.override i level ramp)
      .accept .ok (s'.depthWord :: optWords ((s.positions[i]?).bind Position.override)) s'

/-- OVERRIDE (R115). -/
def execOverride (l : Link) (f : Frame) (s : State) : Host.Outcome State Fault Refusal :=
  .next (takeCall (deskRow 0x000E) false (hasLength 4) (ownOverride f.operands) l f s)

/-- TAKE's checks and effect (R123). -/
def ownTake (ws : List Word) (s : State) : Answer :=
  match ws with
  | [ramp] =>
    if Config.maxRamp < ramp.toNat then .refuse .badValue []
    else if s.queueFull then .refuse .queueFull []
    else
      let s' := s.enqueue (.take ramp.toNat)
      .accept .ok [s'.depthWord, wordOfNat s.pendingCount] s'
  | _ => .refuse .badLength []

/-- TAKE (R123). -/
def execTake (l : Link) (f : Frame) (s : State) : Host.Outcome State Fault Refusal :=
  .next (takeCall (deskRow 0x000F) false (hasLength 1) (ownTake f.operands) l f s)

/-- REVERT's checks and effect (R143). -/
def ownRevert (ws : List Word) (s : State) : Answer :=
  match ws with
  | [ramp] =>
    if Config.maxRamp < ramp.toNat then .refuse .badValue []
    else if s.history.isEmpty = true ∧ s.changes.any Change.isTake = false then .refuse .historyEmpty []
    else if s.queueFull then .refuse .queueFull []
    else
      let s' := s.enqueue (.revert ramp.toNat)
      .accept .ok [s'.depthWord, wordOfNat s.history.length] s'
  | _ => .refuse .badLength []

/-- REVERT (R143). -/
def execRevert (l : Link) (f : Frame) (s : State) : Host.Outcome State Fault Refusal :=
  .next (takeCall (deskRow 0x0011) false (hasLength 1) (ownRevert f.operands) l f s)

/-! ### SET FRAME EDGE -/

/-- SET FRAME EDGE's check and effect (R118). -/
def ownSetFrameEdge (ws : List Word) (s : State) : Answer :=
  match ws with
  | [w] => match Polarity.ofWord w with
    | none => .refuse .badValue []
    | some p => .accept .ok [p.word] { s with settings := { s.settings with polarity := p } }
  | _ => .refuse .badLength []

/-- SET FRAME EDGE (R118). -/
def execSetFrameEdge (l : Link) (f : Frame) (s : State) : Host.Outcome State Fault Refusal :=
  .next (takeCall (deskRow 0x0010) false (hasLength 1) (ownSetFrameEdge f.operands) l f s)

/-! ### Show lock (R178) -/

/-- The show lock set; the reply is the state found. -/
def ownShowLock (on : Bool) (s : State) : Answer := .accept .ok [onWord s.showLock] { s with showLock := on }

/-- SHOW LOCK (R178). -/
def execShowLock (l : Link) (f : Frame) (s : State) : Host.Outcome State Fault Refusal :=
  .next (takeCall (deskRow 0x001A) false (hasLength 0) (ownShowLock true) l f s)

/-- SHOW UNLOCK (R178). -/
def execShowUnlock (l : Link) (f : Frame) (s : State) : Host.Outcome State Fault Refusal :=
  .next (takeCall (deskRow 0x001B) false (hasLength 0) (ownShowLock false) l f s)

/-! ### WALL RESET -/

/-- WALL RESET's effect (R180): the hangs of DL and SL abandoned, the live plane reset. -/
def ownWallReset (s : State) : Answer :=
  let a := [Link.dl, Link.sl].foldl (wallResetHang s) (s, 0)
  .accept .ok [wordOfNat a.2] a.1.resetPlane

/-- WALL RESET (R180). -/
def execWallReset (l : Link) (f : Frame) (s : State) : Host.Outcome State Fault Refusal :=
  .next (takeCall (deskRow 0x001C) false (hasLength 0) ownWallReset l f s)

end Sys2Proof.Machine
end

