-- ==== Sys2Proof/Machine/Drift.lean ====
section
/-! DEFINITION. The desk's calls on the Drift Tracker (05): HOLD DRIFT, RELEASE DRIFT, SET DRIFT PARAMETERS, SET
CADENCE, CADENCE RUN, CADENCE STOP, CADENCE RESTART, SENSE CADENCE; and the Cadence Timer's events (R83, R84). -/
namespace Sys2Proof.Machine

/-! ### Hold and parameters (R97, R98) -/

/-- The hold state set; the reply is the state found. -/
def ownHold (on : Bool) (s : State) : Answer := .accept .ok [onWord s.hold] { s with hold := on }

/-- HOLD DRIFT (R97). -/
def execHoldDrift (l : Link) (f : Frame) (s : State) : Host.Outcome State Fault Refusal :=
  .next (takeCall (deskRow 0x0012) false (hasLength 0) (ownHold true) l f s)

/-- RELEASE DRIFT (R97). -/
def execReleaseDrift (l : Link) (f : Frame) (s : State) : Host.Outcome State Fault Refusal :=
  .next (takeCall (deskRow 0x0013) false (hasLength 0) (ownHold false) l f s)

/-- The four drift parameters in force. -/
def Settings.driftWords (g : Settings) : List Word :=
  [wordOfNat g.depth, wordOfNat g.deadband, wordOfNat g.budget, wordOfNat g.driftRamp]

/-- SET DRIFT PARAMETERS' checks and effect (R98). -/
def ownSetDriftParameters (ws : List Word) (s : State) : Answer :=
  match parseDriftParameters ws with
  | none => .refuse .badValue []
  | some (k, d, b, r) =>
    if optOk (fun v => decide (v ≤ 4)) k && optOk (fun v => decide (1 ≤ v ∧ v ≤ 100)) d &&
        optOk (fun v => decide (1 ≤ v ∧ v ≤ 64)) b && optOk (fun v => decide (v ≤ Config.maxRamp)) r then
      let g := { s.settings with
        depth := k.getD s.settings.depth, deadband := d.getD s.settings.deadband
        budget := b.getD s.settings.budget, driftRamp := r.getD s.settings.driftRamp }
      .accept .ok g.driftWords { s with settings := g }
    else .refuse .badValue []

/-- SET DRIFT PARAMETERS (R98). -/
def execSetDriftParameters (l : Link) (f : Frame) (s : State) : Host.Outcome State Fault Refusal :=
  .next (takeCall (deskRow 0x0014) false (hasLength 8) (ownSetDriftParameters f.operands) l f s)

/-! ### The Cadence Timer's calls (R84 to R88) -/

/-- The four cadence settings in force. -/
def Settings.cadenceWords (g : Settings) : List Word :=
  [g.source.word, wordOfNat g.prescaler, wordOfNat g.reload, yesNoWord g.runAtStart]

/-- A prescaler of the part (R82). -/
def prescalerOk (p : Nat) : Bool := decide (p = 1 ∨ p = 4 ∨ p = 32 ∨ p = 256)

/-- SET CADENCE's checks and effect (R87). -/
def ownSetCadence (ws : List Word) (s : State) : Answer :=
  match parseCadence ws with
  | none => .refuse .badValue []
  | some (src, p, r, y) =>
    if prescalerOk p = false ∨ r = 0 then .refuse .badValue []
    else
      let g := { s.settings with source := src, prescaler := p, reload := r, runAtStart := y }
      let stage := if src ≠ s.settings.source ∨ p ≠ s.settings.prescaler then 0 else s.timer.stage
      .accept .ok (g.cadenceWords ++ [s.timer.state.word, wordOfNat s.timer.counter])
        { s with settings := g, timer := { s.timer with stage := stage } }

/-- SET CADENCE (R87). -/
def execSetCadence (l : Link) (f : Frame) (s : State) : Host.Outcome State Fault Refusal :=
  .next (takeCall (deskRow 0x0015) false (hasLength 4) (ownSetCadence f.operands) l f s)

/-- CADENCE RUN's effect (R85). -/
def ownCadenceRun (s : State) : Answer :=
  .accept .ok [TimerState.running.word, wordOfNat s.timer.counter]
    { s with timer := { s.timer with state := .running } }

/-- CADENCE RUN (R85). -/
def execCadenceRun (l : Link) (f : Frame) (s : State) : Host.Outcome State Fault Refusal :=
  .next (takeCall (deskRow 0x0016) false (hasLength 0) ownCadenceRun l f s)

/-- CADENCE STOP's effect (R84). -/
def ownCadenceStop (s : State) : Answer :=
  match s.timer.state with
  | .running => .accept .ok [TimerState.stopping.word] { s with timer := { s.timer with state := .stopping } }
  | .stopping => .accept .ok [TimerState.stopping.word] s
  | .stopped => .accept .ok [TimerState.stopped.word] s

/-- CADENCE STOP (R84). -/
def execCadenceStop (l : Link) (f : Frame) (s : State) : Host.Outcome State Fault Refusal :=
  .next (takeCall (deskRow 0x0017) false (hasLength 0) ownCadenceStop l f s)

/-- CADENCE RESTART's effect (R86). -/
def ownCadenceRestart (s : State) : Answer :=
  .accept .ok [s.timer.state.word, wordOfNat s.settings.reload]
    { s with timer := { s.timer with counter := s.settings.reload, stage := 0 } }

/-- CADENCE RESTART (R86). -/
def execCadenceRestart (l : Link) (f : Frame) (s : State) : Host.Outcome State Fault Refusal :=
  .next (takeCall (deskRow 0x0018) false (hasLength 0) ownCadenceRestart l f s)

/-- The run flag: set in RUNNING and STOPPING (R88). -/
def TimerState.runFlag : TimerState → Bool
  | .stopped => false
  | .running => true
  | .stopping => true

/-- SENSE CADENCE's reply (R88). -/
def senseCadenceWords (s : State) : List Word :=
  [s.timer.state.word, markWord s.timer.state.runFlag, wordOfNat s.timer.counter, wordOfNat s.timer.stage] ++
    s.settings.cadenceWords ++
    [wordOfNat s.cyclesStarted, setWord s.awaiting, wordOfNat s.cyclesSkipped, wordOfNat s.overruns,
     wordOfNat s.resultsDiscarded, onWord s.hold] ++
    s.settings.driftWords

def ownSenseCadence (s : State) : Answer := .accept .ok (senseCadenceWords s) s

/-- SENSE CADENCE (R88). -/
def execSenseCadence (l : Link) (f : Frame) (s : State) : Host.Outcome State Fault Refusal :=
  .next (takeCall (deskRow 0x0019) false (hasLength 0) ownSenseCadence l f s)

/-! ### The Cadence Timer's events (R83, R84; log 5) -/

/-- The timer counts the 1 kHz base: the scan is over, the source is BASE and the timer is not STOPPED. -/
def State.countsBase (s : State) : Bool :=
  decide (s.power = .on ∧ s.settings.source = .base ∧ s.timer.state ≠ .stopped)

/-- The next pulse completes a count pulse. -/
def State.pulseDue (s : State) : Bool := s.countsBase && decide (s.settings.prescaler ≤ s.timer.stage + 1)

/-- CADENCE_COUNT_PULSE (R83, R84). -/
def execCadenceCountPulse (s : State) : Host.Outcome State Fault Refusal :=
  .next (if s.pulseDue then s.countPulse else s)

/-- CADENCE_EXPIRY (R83, R84): a count pulse that finds the counter at 1. -/
def execCadenceExpiry (s : State) : Host.Outcome State Fault Refusal :=
  .next (if s.pulseDue && decide (s.timer.counter = 1) then s.countPulse else s)

/-- SOURCE_PULSE (R83): a pulse of the 1 kHz base. -/
def execSourcePulse (s : State) : Host.Outcome State Fault Refusal :=
  .next (if s.countsBase then s.sourcePulse else s)

end Sys2Proof.Machine
end

