-- ==== Sys2Proof/Machine/Frames.lean ====
section
/-! DEFINITION. The frame's events (07): FRAME_TICK (R119, R124), FRAME_LOST (R119), FILTER_CLOCK_SAMPLE (R117). They
act once the start-up scan is over. -/
namespace Sys2Proof.Machine

/-- FRAME_TICK (R117, R119, R124): the active level accepted, by name (log 4). -/
def execFrameTick (pulseFirst : Bool) (s : State) : Host.Outcome State Fault Refusal :=
  .next (
    if s.power = .on then
      { s with frame := { s.frame with settled := s.settings.polarity.activeLevel, candidate := 0 } }.tick pulseFirst
    else s)

/-- FRAME_LOST (R119): 100 ms without a tick in RUNNING. -/
def execFrameLost (s : State) : Host.Outcome State Fault Refusal :=
  .next (
    if s.power = .on ∧ s.frame.state = .running then
      { s with frame := { s.frame with state := .lost, timerRunning := false } }.raiseAll .frameLost
    else s)

/-- FILTER_CLOCK_SAMPLE (R117). -/
def execFilterClockSample (level : Level) (pulseFirst : Bool) (s : State) : Host.Outcome State Fault Refusal :=
  .next (if s.power = .on then s.sample level pulseFirst else s)

end Sys2Proof.Machine
end

