-- ==== Sys2Proof/Machine/Survey.lean ====
section
/-! DEFINITION. The calls on tables, routes and geometry (02, 06): SET BATCH DEFAULT, SET WHITE POINT, SET ROUTE, SET
GEOMETRY, READ TILE STATUS, LIST PENDING. -/
namespace Sys2Proof.Machine

/-! ### The tables (R113, R114) -/

/-- PENDING re-evaluated at every position whose copy holds a batch code (R106). -/
def State.refreshBatch (s : State) (batch : Nat) : State :=
  { s with positions := s.positions.map (fun p =>
      if (p.adopted.map Adopted.batch) = some batch then { p with pending := (s.pendingReason p).isSome } else p) }

/-- The number of positions pending with reason BATCH_CHANGED. -/
def State.batchChangedCount (s : State) : Nat :=
  (s.positions.filter (fun p => decide (s.pendingReason p = some .batchChanged))).length

/-- SET BATCH DEFAULT's checks and effect (R114). -/
def ownSetBatchDefault (ws : List Word) (s : State) : Answer :=
  match parseBatch ws with
  | none => .refuse .badLength []
  | some (code, d) =>
    if 15 < code ∨ d.base.ok = false ∨ d.coef.ok = false then .refuse .badValue []
    else
      let s' := { s with settings := { s.settings with
        batch := updateAt (fun _ => d) code s.settings.batch } }.refreshBatch code
      .accept .ok [wordOfNat s'.batchChangedCount] s'

/-- SET BATCH DEFAULT (R114). -/
def execSetBatchDefault (l : Link) (f : Frame) (s : State) : Host.Outcome State Fault Refusal :=
  .next (takeCall (surveyRow 0x0024 false true) false (hasLength 11) (ownSetBatchDefault f.operands) l f s)

/-- SET WHITE POINT's checks and effect (R113). -/
def ownSetWhitePoint (ws : List Word) (s : State) : Answer :=
  match ws with
  | [i, r, g, b] =>
    let t := gainsOf r g b
    if 15 < i.toNat ∨ t.ok = false then .refuse .badValue []
    else
      .accept .ok [markWord (decide (i.toNat = s.global.intent.white))]
        { s with settings := { s.settings with white := updateAt (fun _ => t) i.toNat s.settings.white } }
  | _ => .refuse .badLength []

/-- SET WHITE POINT (R113). -/
def execSetWhitePoint (l : Link) (f : Frame) (s : State) : Host.Outcome State Fault Refusal :=
  .next (takeCall (surveyRow 0x0025 false true) false (hasLength 4) (ownSetWhitePoint f.operands) l f s)

/-! ### SET ROUTE (R31) -/

/-- The two directions are perpendicular (R30). -/
def Direction.perpendicular (a b : Direction) : Bool := decide (a.dx * b.dx + a.dy * b.dy = 0)

/-- The fields of a route lie in their values and its positions in the grid (R30, R31). -/
def Route.ok (r : Route) (columns rows : Nat) : Bool :=
  decide (r.startCol < columns ∧ r.startRow < rows) && r.first.perpendicular r.advance &&
    decide (1 ≤ r.runLength ∧ r.runLength ≤ 32 ∧ r.expected ≤ 128) && r.inside columns rows

/-- The route of a branch. -/
def State.route (s : State) (b : Nat) : Option Route := s.settings.routes.getD b none

/-- The positions of a route in the geometry in force. -/
def State.routePositions (s : State) (r : Route) : List Nat := r.positions s.settings.columns s.settings.rows

/-- The other branches whose present route shares a position with a new route (R31). -/
def State.routeConflicts (s : State) (b : Nat) (r : Route) : List Nat :=
  [0, 1, 2, 3].filter (fun c => decide (c ≠ b) &&
    (match s.route c with
     | none => false
     | some q => share (s.routePositions r) (s.routePositions q)))

/-- The working copies with a branch's route replaced. -/
def State.setRoute (s : State) (b : Nat) (r : Option Route) : State :=
  { s with settings := { s.settings with routes := updateAt (fun _ => r) b s.settings.routes } }

/-- SET ROUTE's checks and effect (R31). -/
def ownSetRoute (ws : List Word) (s : State) : Answer :=
  match parseRoute ws with
  | none => .refuse .badValue []
  | some (b, none) => if 3 < b then .refuse .badValue [] else .accept .ok (optWords none) (s.setRoute b none)
  | some (b, some r) =>
    if 3 < b ∨ r.ok s.settings.columns s.settings.rows = false then .refuse .badValue []
    else match s.routeConflicts b r with
      | [] => .accept .ok (optWords (s.routePositions r).getLast?) (s.setRoute b (some r))
      | c :: cs => .refuse .routeConflict [setWord (c :: cs)]

/-- SET ROUTE (R31). -/
def execSetRoute (l : Link) (f : Frame) (s : State) : Host.Outcome State Fault Refusal :=
  .next (takeCall (surveyRow 0x0026 false true) false (hasLength 9) (ownSetRoute f.operands) l f s)

/-! ### SET GEOMETRY (R29, R137) -/

/-- A HANG runs on DL or SL, detached or not (R29, R179). -/
def State.hanging (s : State) : Bool := (s.hangOf .dl).isSome || (s.hangOf .sl).isSome

/-- The entry is an OVERRIDE. -/
def Change.isOverride : Change → Bool
  | .override _ _ _ => true
  | .global _ _ => false
  | .take _ => false
  | .revert _ => false
  | .place _ _ _ _ => false

/-- The wall is live: SET GEOMETRY is refused (R29). -/
def State.wallLive (s : State) : Bool :=
  s.positions.any (fun p => decide (p.hung ≠ .empty)) || s.hanging ||
    s.positions.any (fun p => decide (p.applied ≠ p.target)) || s.changes.any Change.isOverride

/-- A route kept by a new grid, or cleared (R29). -/
def keepRoute (columns rows : Nat) (r : Option Route) : Option Route :=
  match r with
  | none => none
  | some r => if r.inside columns rows then some r else none

/-- The branches whose present routes a new grid clears (R29). -/
def State.clearedRoutes (s : State) (columns rows : Nat) : List Nat :=
  [0, 1, 2, 3].filter (fun b => match s.route b with
    | none => false
    | some r => !r.inside columns rows)

/-- SET GEOMETRY's checks and effect (R29, R137). -/
def ownSetGeometry (ws : List Word) (s : State) : Answer :=
  match ws with
  | [c, r] =>
    if s.wallLive then .refuse .wallLive []
    else if c.toNat = 0 ∨ 32 < c.toNat ∨ r.toNat = 0 ∨ 16 < r.toNat then .refuse .badValue []
    else
      let count := c.toNat * r.toNat
      .accept .ok [wordOfNat count, setWord (s.clearedRoutes c.toNat r.toNat)]
        ({ s with settings := { s.settings with
            columns := c.toNat, rows := r.toNat
            routes := s.settings.routes.map (keepRoute c.toNat r.toNat) } }.planeAtRest count)
  | _ => .refuse .badLength []

/-- SET GEOMETRY (R29). -/
def execSetGeometry (l : Link) (f : Frame) (s : State) : Host.Outcome State Fault Refusal :=
  .next (takeCall (surveyRow 0x0027 false true) false (hasLength 2) (ownSetGeometry f.operands) l f s)

/-! ### READ TILE STATUS (R41) -/

/-- The fields of a Tile Status entry after its tag (R39). -/
def TileStatus.words (t : TileStatus) : List Word :=
  optIntWords t.e ++ optIntWords t.ePosted ++ optWords t.h ++ optWords t.hPosted ++
    [wordOfNat t.miss, wordOfNat t.fresh]

/-- READ TILE STATUS' reply for a tag that occupies position `i` (R41; log 15). The tag at its front is the Tag field of
the Tile Status entry too, which is not carried again: the model's choice (log 15). -/
def State.tileStatusWords (s : State) (i : Nat) (p : Position) (t : TileAt) (st : TileStatus) : List Word :=
  words32 t.tag ++
    [wordOfNat i, wordOfNat (i % s.settings.columns), wordOfNat (i / s.settings.columns),
     wordOfNat p.hung.state.place, t.orientation.word, wordOfNat t.branch, wordOfNat t.chainIndex] ++
    optWords (p.hung.cause.map Cause.place) ++ optWords p.override ++
    [markWord p.pending, markWord (muteFlag s.tiles p.hung), markWord p.clamped] ++ st.words

/-- READ TILE STATUS' checks and reply (R41). -/
def ownReadTileStatus (ws : List Word) (s : State) : Answer :=
  match parseTag ws with
  | none => .refuse .badLength []
  | some tag =>
    if tag = 0 then .refuse .badValue []
    else match s.positionOf tag with
      | none => .refuse .notPlaced []
      | some i => match s.positions[i]? with
        | none => .refuse .notPlaced []
        | some p => match p.hung.occupant with
          | none => .refuse .notPlaced []
          | some t =>
            .accept .ok (s.tileStatusWords i p t ((statusOf s.tiles tag).getD (TileStatus.new tag))) s

/-- READ TILE STATUS (R41). -/
def execReadTileStatus (l : Link) (f : Frame) (s : State) : Host.Outcome State Fault Refusal :=
  .next (takeCall (surveyRow 0x0028 false false) false (hasLength 2) (ownReadTileStatus f.operands) l f s)

/-! ### LIST PENDING (R116) -/

def Reason.place : Reason → Nat
  | .newRevision => 0
  | .recordAvailable => 1
  | .recordAbsent => 2
  | .recordDamaged => 3
  | .batchChanged => 4

/-- A record condition: its place, then its revision and status if USABLE (R116; log 15). -/
def Condition.words : Condition → List Word
  | .usable v st => [0, 1] ++ words32 v ++ [st.word]
  | .damaged => [1, 0, 0, 0, 0]
  | .absent => [2, 0, 0, 0, 0]

/-- A LIST PENDING entry; none for a position that is not pending (R116). -/
def State.pendingEntry (s : State) (e : Nat × Position) : Option (List Word) :=
  match e.2.hung.occupant, e.2.adopted, s.pendingReason e.2 with
  | some t, some a, some r =>
    some ([wordOfNat e.1] ++ words32 t.tag ++ [wordOfNat e.2.hung.state.place] ++
      optWords (e.2.hung.cause.map Cause.place) ++ [a.source.word] ++ words32 a.revision ++
      (s.condition t.tag).words ++ [wordOfNat r.place])
  | _, _, _ => none

/-- LIST PENDING's check and reply (R116). -/
def ownListPending (ws : List Word) (s : State) : Answer :=
  match ws with
  | [start] =>
    if s.positionCount ≤ start.toNat then .refuse .badValue []
    else
      let found := (s.indexed.filter (fun e => decide (start.toNat ≤ e.1))).filterMap s.pendingEntry
      let shown := found.take Config.listEntries
      .accept .ok
        ([wordOfNat s.pendingCount, wordOfNat (s.changes.filter Change.isTake).length, wordOfNat shown.length] ++
          shown.flatMap (fun e => e) ++ [markWord (decide (shown.length < found.length))]) s
  | _ => .refuse .badLength []

/-- LIST PENDING (R116). -/
def execListPending (l : Link) (f : Frame) (s : State) : Host.Outcome State Fault Refusal :=
  .next (takeCall (bothRow 0x002E false false) false (hasLength 1) (ownListPending f.operands) l f s)

end Sys2Proof.Machine
end

