-- ==== Sys2Proof/Machine/Hang.lean ====
section
/-! DEFINITION. HANG (R66 to R69) and the events of a waiting hang: WAITING_HANG_TOLD_IDLE (R60), PLACE_POST (R75). -/
namespace Sys2Proof.Machine

/-- A pair of branches involved in a failure. -/
def bothIf (c : Bool) (a b : Nat) : List Nat := if c then [a, b] else []

/-- Two masked routes that share a position (R67). -/
def maskedConflicts (rs : List (Nat × List Nat)) : List Nat :=
  rs.flatMap (fun a => rs.flatMap (fun b => bothIf (decide (a.1 ≠ b.1) && share a.2 b.2) a.1 b.1))

/-- A masked route over a live position whose branch field names an unmasked branch (R67). -/
def State.liveConflicts (s : State) (mask : List Nat) (rs : List (Nat × List Nat)) : List Nat :=
  s.indexed.flatMap (fun e => match e.2.hung.tile with
    | none => []
    | some t =>
      if mask.contains t.branch then []
      else rs.flatMap (fun a => bothIf (a.2.contains e.1) a.1 t.branch))

/-- Conflicts with the running hang of the other link: a branch masked by both, or shared positions (R67). -/
def State.hangConflicts (s : State) (mask : List Nat) (rs : List (Nat × List Nat)) : Option HangWork → List Nat
  | none => []
  | some h => h.branches.flatMap (fun b =>
      (if mask.contains b.branch then [b.branch] else []) ++
        rs.flatMap (fun a => bothIf (share a.2 (s.routePositions b.route)) a.1 b.branch))

/-- The branches a ROUTE_CONFLICT names (R67; log 33). -/
def State.hangRefusal (s : State) (l : Link) (mask : List Nat) (rs : List (Nat × List Nat)) : List Nat :=
  insertAll
    (maskedConflicts rs ++ s.liveConflicts mask rs ++ s.hangConflicts mask rs (s.hangOf (otherLink l))) []

/-- The routes of the masked branches; none when one is absent. -/
def State.maskedRoutes (s : State) : List Nat → Option (List (Nat × Route))
  | [] => some []
  | b :: bs => match s.route b, s.maskedRoutes bs with
    | some r, some rs => some ((b, r) :: rs)
    | _, _ => none

/-- The staged map at acceptance: EMPTY at every position whose live branch field names a masked branch (R68). -/
def State.startStaged (s : State) (mask : List Nat) : List (Nat × Hung) :=
  s.indexed.filterMap (fun e => match e.2.hung.tile with
    | none => none
    | some t => if mask.contains t.branch then some (e.1, Hung.empty) else none)

/-- A HANG at its acceptance (R66 to R68). -/
def State.startHang (s : State) (ramp : Nat) (policy : Policy) (rs : List (Nat × Route)) : HangWork :=
  { ramp := ramp, policy := policy, phase := .calling
    branches := rs.map (fun r =>
      { branch := r.1, route := r.2, outcome := .toQueue, list := [], excess := false, over128 := false })
    staged := s.startStaged (rs.map Prod.fst), seen := [], strangers := [], counts := .zero, prov := none }

/-- The roll calls a hang has queued. -/
def State.queuedCalls (s : State) (l : Link) : Nat :=
  match s.hangOf l with
  | none => 0
  | some h => (h.branches.filter (fun b => decide (b.outcome = .queued))).length

/-- HANG's checks and effect (R67): the roll calls are queued, counted for the reply, and taken if the transmitter
is free. -/
def ownHang (l : Link) (ws : List Word) (s : State) : Answer :=
  match parseHang ws with
  | none => .refuse .badValue []
  | some (mask, ramp, policy) =>
    match mask, s.maskedRoutes mask with
    | [], _ => .refuse .badValue []
    | _ :: _, none => .refuse .badValue []
    | _ :: _, some rs =>
      if Config.maxRamp < ramp then .refuse .badValue []
      else match s.hangRefusal l mask (rs.map (fun r => (r.1, s.routePositions r.2))) with
        | c :: cs => .refuse .routeConflict [setWord (c :: cs)]
        | [] =>
          let s' := (s.startJob l (.hang (s.startHang ramp policy rs))).offerAll l
          .accept .ok [wordOfNat (s'.queuedCalls l)] s'.kick

/-- HANG (R67). -/
def execHang (l : Link) (f : Frame) (s : State) : Host.Outcome State Fault Refusal :=
  .next (takeCall (bothRow 0x0029 true true) false (hasLength 3) (ownHang l f.operands) l f s)

/-- WAITING_HANG_TOLD_IDLE (R60, R69): a hang that waits on a branch found IDLE is told so (log 3). -/
def execWaitingHangToldIdle (l : Link) (branch : Nat) (s : State) : Host.Outcome State Fault Refusal :=
  .next (
    if s.idleWaits.contains (branch, l) = true ∧ (s.branch branch).state = .idle then
      ({ s with idleWaits := s.idleWaits.filter (fun e => decide (e ≠ (branch, l))) }.toldIdle l branch).kick
    else s)

/-- PLACE_POST (R75): the hang that has waited longest posts, if the Change Queue has a place (log 3). -/
def execPlacePost (l : Link) (s : State) : Host.Outcome State Fault Refusal :=
  .next (match s.postWaiters with
    | [] => s
    | m :: rest =>
      if m = l ∧ s.changes.length < Config.changePlaces then { s with postWaiters := rest }.post l else s)

end Sys2Proof.Machine
end

