-- ==== Sys2Proof/Machine/Links.lean ====
section
/-! DEFINITION. The link wire (R165, R169 to R171) and the calls of every link (R168, R173 to R182): TERMS,
LINK RESET, SENSE LINK, READ NOTICES, CLEAR NOTICES, SET NOTICE MASK, SENSE JOB, ABANDON JOB, SENSE WALL. -/
namespace Sys2Proof.Machine

/-! ### The wire -/

/-- What one more received word makes of a receiver at a word boundary (R169). A frame that completes here leaves it
between frames. -/
def Receiver.feed (check : CheckSetting) (r : Receiver) (w : Word) : Receiver :=
  match r with
  | .discarding => .discarding
  | .betweenFrames => if w = 0 then .betweenFrames else .inFrame 1 none
  | .inFrame n none =>
    if Config.maxOperands < w.toNat then .discarding
    else
      let expected := 2 + w.toNat + (match check with
        | .on => 1
        | .off => 0)
      if n + 1 = expected then .betweenFrames else .inFrame (n + 1) (some expected)
  | .inFrame n (some e) => if n + 1 = e then .betweenFrames else .inFrame (n + 1) (some e)

/-- IDLE_GAP (R165, R169): the bits of an incomplete word are dropped, and a frame the gap falls inside is discarded and
counted; a receiver that discards begins afresh. `received` are the words since the last complete frame, less those
that READY_FALLS has clocked in (log 31). A reply's word that was partly out when the gap came goes out again from its
first bit, which is the model's choice (log 41). -/
def execIdleGap (l : Link) (received : List Word) (s : State) : Host.Outcome State Fault Refusal :=
  .next (
    if s.power = .off then s
    else
      let p := { s.port l with wordBits := [] }
      match received.foldl (Receiver.feed p.terms.check) p.receiver with
      | .betweenFrames => s.setPort l { p with receiver := .betweenFrames }
      | .inFrame _ _ => s.setPort l { p.countPartial with receiver := .betweenFrames }
      | .discarding =>
        let s' := if p.receiver = .discarding then s.setPort l p else oversize l s
        s'.setPort l { s'.port l with receiver := .betweenFrames })

/-- OPERAND_COUNT_OVERSIZE (R169). -/
def execOperandCountOversize (l : Link) (code count : Word) (s : State) : Host.Outcome State Fault Refusal :=
  .next (
    if s.power = .off ∨ (s.port l).receiver = .discarding ∨ code = 0 ∨ count.toNat ≤ Config.maxOperands then s
    else oversize l s)

/-- The staged reply has been clocked out to its end: the slot is empty, and a port in REPLY_PENDING becomes IDLE
(R171). -/
def Port.clockedOut (p : Port) : Port :=
  { p with slot := none, ready := false, state := if p.state = .replyPending then .idle else p.state }

/-- REPLY_CLOCKED_OUT (R171). -/
def execReplyClockedOut (l : Link) (s : State) : Host.Outcome State Fault Refusal :=
  .next (
    if s.power = .off then s
    else
      match (s.port l).slot with
      | none => s
      | some _ => s.setPort l (s.port l).clockedOut)

/-- The words clocked out go up by one; the last word empties the slot (R166, R171). -/
def Port.wordOut (p : Port) : Port :=
  match p.slot with
  | none => p
  | some r =>
    if r.clocked + 1 < r.frame.length then { p with slot := some { r with clocked := r.clocked + 1 } } else p.clockedOut

/-- The event of the last word of a frame, or of an operand count above 320, is a row of its own (log 41). -/
def Receiver.endsAt (check : CheckSetting) (r : Receiver) (w : Word) : Bool :=
  match r with
  | .betweenFrames => false
  | .discarding => false
  | .inFrame _ _ => match r.feed check w with
    | .betweenFrames => true
    | .discarding => true
    | .inFrame _ _ => false

/-- Edges of LCK, one bit each: at each sixteenth from the word boundary one word has come in, read in the port's bit
order, and one has gone out, whatever the receiver is in the middle of (R165, R169). The word that would end a frame is
left to that frame's own row, with the bits after it. -/
def Port.clock : List Bool → Port → Port
  | [], p => p
  | b :: bits, p =>
    if p.wordBits.length < 15 then Port.clock bits { p with wordBits := p.wordBits ++ [b] }
    else
      let w := wireWord p.terms.order (p.wordBits ++ [b])
      let q := { p with wordBits := [] }
      if q.receiver.endsAt q.terms.check w then q
      else Port.clock bits { q with receiver := q.receiver.feed q.terms.check w }.wordOut

/-- READY_FALLS (R171): READY falls at the first rising edge of LCK, and the bits of this and the following edges move in
while the staged reply's words move out (R165; log 41). -/
def execReadyFalls (l : Link) (s : State) (bits : List Bool := []) : Host.Outcome State Fault Refusal :=
  .next (if s.power = .off then s else s.setPort l (Port.clock bits { s.port l with ready := false }))

/-- A frame whose code names no call, in an open state: BAD_CHECK or UNKNOWN_CALL (R170 steps 1 and 3). -/
def judgeUnknown (code : Word) (l : Link) (f : Frame) (s : State) : State :=
  let p := s.port l
  s.setPort l
    (p.refuseLink (if p.terms.check = .on ∧ frameCheckOk f code = false then .badCheck else .unknownCall))

/-- UNKNOWN_CALL_FRAME (R170); a code of the catalogue, or 0000, is no such frame (log 32). -/
def execUnknownCallFrame (l : Link) (code : Word) (f : Frame) (s : State) : Host.Outcome State Fault Refusal :=
  .next (if code = 0 ∨ knownCode code = true then s else takeFrame code false (judgeUnknown code l f) l f s)

/-! ### TERMS and LINK RESET -/

def rowTerms : CallRow := { code := 0x0001, pl := true, dl := true, sl := true, job := false, locked := false }

/-- TERMS' own check and effect (R168): a port in DOWN opens; the reply is formed in the new terms. -/
def ownTerms (l : Link) (ws : List Word) (s : State) : Answer :=
  match parseTerms ws with
  | none => .refuse .badValue []
  | some t => .accept .ok [] (s.setPort l { s.port l with terms := t, state := .replyPending })

/-- TERMS (R168). -/
def execTerms (l : Link) (f : Frame) (s : State) : Host.Outcome State Fault Refusal :=
  .next (takeCall rowTerms true (hasLength 2) (ownTerms l f.operands) l f s)

def rowLinkReset : CallRow := { code := 0x0002, pl := true, dl := true, sl := true, job := false, locked := false }

/-- The end LINK RESET makes of its link's job (R179). -/
def State.endJobAtReset (s : State) (l : Link) : State :=
  match (s.port l).job with
  | none => s.setPort l { s.port l with record := .none }
  | some j =>
    if j.detached = true ∨ j.committed = true then
      s.setPort l { s.port l with job := some { j with detached := true }, record := .none }
    else
      let s' := s.abandonJob l
      s'.setPort l { s'.port l with record := j.abandonedRecord }

/-- The port after LINK RESET, its reply staged in the terms in force before (R179). -/
def Port.reset (p : Port) : Port :=
  { p.stage .ok [] with
    state := .down, terms := .default, receiver := .betweenFrames, wordBits := [], discardedMark := false
    counters := .zero, selection := none, flags := 0, mask := BitVec.allOnes 16 }

/-- LINK RESET's effect (R179). -/
def ownLinkReset (l : Link) (s : State) : Answer :=
  let s' := s.endJobAtReset l
  .staged (s'.setPort l (s'.port l).reset)

/-- LINK RESET (R179). -/
def execLinkReset (l : Link) (f : Frame) (s : State) : Host.Outcome State Fault Refusal :=
  .next (takeCall rowLinkReset false (hasLength 0) (ownLinkReset l) l f s)

/-! ### SENSE LINK -/

def rowSenseLink : CallRow := { code := 0x0003, pl := true, dl := true, sl := true, job := false, locked := false }

/-- A detached job still runs (R173). -/
def Port.detachedJob (p : Port) : Option Job :=
  match p.job with
  | none => none
  | some j => if j.detached then some j else none

def Counters.words (c : Counters) : List Word :=
  [c.taken, c.refused, c.badChecks, c.badLengths, c.partialFrames, c.discarded].map wordOfNat

/-- SENSE LINK's reply (R181): link, bit order, check, REPLY_DISCARDED, counters, slot, detached mark, selection,
show lock, NOTICE level (that the level is 1 when high and 0 when low is log 15). -/
def senseLinkWords (l : Link) (s : State) : List Word :=
  let p := s.port l
  [linkWord l, p.terms.order.word, p.terms.check.word, markWord p.discardedMark] ++ p.counters.words ++
    [markWord p.job.isSome, markWord p.detachedJob.isSome] ++ opt32Words p.selection ++
    [onWord s.showLock, markWord p.noticeLine]

/-- SENSE LINK's effect: REPLY_DISCARDED is cleared after the snapshot (R181). -/
def ownSenseLink (l : Link) (s : State) : Answer :=
  .accept .ok (senseLinkWords l s) (s.setPort l { s.port l with discardedMark := false })

/-- SENSE LINK (R181). -/
def execSenseLink (l : Link) (f : Frame) (s : State) : Host.Outcome State Fault Refusal :=
  .next (takeCall rowSenseLink false (hasLength 0) (ownSenseLink l) l f s)

/-! ### Notices (R176) -/

def rowReadNotices : CallRow := { code := 0x0004, pl := true, dl := true, sl := true, job := false, locked := false }

def ownReadNotices (l : Link) (s : State) : Answer :=
  .accept .ok [(s.port l).flags, (s.port l).mask] s

/-- READ NOTICES (R176). -/
def execReadNotices (l : Link) (f : Frame) (s : State) : Host.Outcome State Fault Refusal :=
  .next (takeCall rowReadNotices false (hasLength 0) (ownReadNotices l) l f s)

def rowClearNotices : CallRow := { code := 0x0005, pl := true, dl := true, sl := true, job := false, locked := false }

def ownClearNotices (l : Link) (ws : List Word) (s : State) : Answer :=
  match ws with
  | [w] =>
    let flags := (s.port l).flags &&& ~~~w
    .accept .ok [flags] (s.setPort l { s.port l with flags := flags })
  | _ => .refuse .badLength []

/-- CLEAR NOTICES (R176). -/
def execClearNotices (l : Link) (f : Frame) (s : State) : Host.Outcome State Fault Refusal :=
  .next (takeCall rowClearNotices false (hasLength 1) (ownClearNotices l f.operands) l f s)

def rowSetNoticeMask : CallRow := { code := 0x0006, pl := true, dl := true, sl := true, job := false, locked := false }

def ownSetNoticeMask (l : Link) (ws : List Word) (s : State) : Answer :=
  match ws with
  | [w] => .accept .ok [w, (s.port l).flags] (s.setPort l { s.port l with mask := w })
  | _ => .refuse .badLength []

/-- SET NOTICE MASK (R176). -/
def execSetNoticeMask (l : Link) (f : Frame) (s : State) : Host.Outcome State Fault Refusal :=
  .next (takeCall rowSetNoticeMask false (hasLength 1) (ownSetNoticeMask l f.operands) l f s)

/-! ### Jobs (R173, R174) -/

def rowSenseJob : CallRow := { code := 0x0007, pl := true, dl := true, sl := true, job := false, locked := false }

/-- SENSE JOB's reply (R173). -/
def senseJobWords (p : Port) : List Word :=
  let kind := match p.detachedJob with
    | none => JobFields.none.kindWord
    | some j => j.work.fields.kindWord
  p.jobRecord.words ++ [markWord p.detachedJob.isSome, kind]

def ownSenseJob (l : Link) (s : State) : Answer := .accept .ok (senseJobWords (s.port l)) s

/-- SENSE JOB (R173). -/
def execSenseJob (l : Link) (f : Frame) (s : State) : Host.Outcome State Fault Refusal :=
  .next (takeCall rowSenseJob false (hasLength 0) (ownSenseJob l) l f s)

def rowAbandonJob : CallRow := { code := 0x0008, pl := true, dl := true, sl := true, job := false, locked := false }

/-- ABANDON JOB's effect (R174). -/
def ownAbandonJob (l : Link) (s : State) : Answer :=
  match (s.port l).job with
  | none => .accept .noJob [] (s.setPort l { s.port l with record := .none })
  | some j =>
    if j.detached = true ∨ j.committed = true then .accept .tooLate [] s
    else
      let s' := s.abandonJob l
      .accept .ok [j.work.fields.kindWord] (s'.setPort l { s'.port l with record := j.abandonedRecord })

/-- ABANDON JOB (R174). -/
def execAbandonJob (l : Link) (f : Frame) (s : State) : Host.Outcome State Fault Refusal :=
  .next (takeCall rowAbandonJob false (hasLength 0) (ownAbandonJob l) l f s)

/-! ### SENSE WALL -/

def rowSenseWall : CallRow := { code := 0x0009, pl := true, dl := true, sl := true, job := false, locked := false }

/-- SENSE WALL's reply (R182). -/
def senseWallWords (s : State) : List Word :=
  words48 s.epoch ++
    [s.frame.state.word, wordOfNat s.changes.length, wordOfNat s.dirty.length, onWord s.hold,
     wordOfNat s.history.length, wordOfNat s.lastSkipped, wordOfNat s.freeCount, wordOfNat s.usedCount,
     wordOfNat s.retiredCount, wordOfNat s.claimedCount, wordOfNat s.pool.index.length] ++
    words32 s.pool.counter ++
    [onWord s.showLock, wordOfNat s.settings.columns, wordOfNat s.settings.rows]

def ownSenseWall (s : State) : Answer := .accept .ok (senseWallWords s) s

/-- SENSE WALL (R182). -/
def execSenseWall (l : Link) (f : Frame) (s : State) : Host.Outcome State Fault Refusal :=
  .next (takeCall rowSenseWall false (hasLength 0) ownSenseWall l f s)

end Sys2Proof.Machine
end

