-- ==== Sys2Proof/Machine/NvEvents.lean ====
section
/-! DEFINITION. The NV Port's events (01 R9): the beginnings and the completions of its requests. A completion acts
only when the request in progress is of its kind; a request whose job has ended still writes the non-volatile
memory, and its outcome is otherwise discarded (R9, R16). -/
namespace Sys2Proof.Machine

/-! ### Beginnings (R9, R15, R18, R22) -/

/-- NV_REQUEST_BEGIN (R9): the free port begins its oldest waiting request, whatever its kind (log 3). -/
def execNvRequestBegin (s : State) : Host.Outcome State Fault Refusal :=
  .next (if s.headIs (fun _ => true) then s.beginRequest else s)

/-- The request is a swap write. -/
def NvOp.isSwap : NvOp → Bool
  | .swap => true
  | _ => false

/-- The request is an erase's index remove write. -/
def NvOp.isRemove : NvOp → Bool
  | .remove _ => true
  | _ => false

/-- The request is the write of settings cell 0. -/
def NvOp.isFirstSettings : NvOp → Bool
  | .settings c _ => decide (c = 0)
  | _ => false

/-- INDEX_SWAP_BEGIN (R8, R15). -/
def execIndexSwapBegin (s : State) : Host.Outcome State Fault Refusal :=
  .next (if s.headIs NvOp.isSwap then s.beginRequest else s)

/-- ERASE_WRITE_BEGIN (R18). -/
def execEraseWriteBegin (s : State) : Host.Outcome State Fault Refusal :=
  .next (if s.headIs NvOp.isRemove then s.beginRequest else s)

/-- SETTINGS_WRITE_BEGIN (R22). -/
def execSettingsWriteBegin (s : State) : Host.Outcome State Fault Refusal :=
  .next (if s.headIs NvOp.isFirstSettings then s.beginRequest else s)

/-! ### Completions -/

/-- The non-volatile cells after a cell write: a cell whose verify failed fails its check from then on (log 28). -/
def NvMemory.writeCell (nv : NvMemory) (good : Bool) (cell : Nat) (g : Group) : NvMemory :=
  { nv with cells := if good then mapSet cell g nv.cells else mapErase cell nv.cells }

/-- The non-volatile Chain Table after an entry write. -/
def NvMemory.writeChain (nv : NvMemory) (cell : Nat) (e : ChainEntry) : NvMemory :=
  { nv with chain := chainSet cell e nv.chain }

/-- CELL_WRITE_COMPLETE (R14). -/
def execCellWriteComplete (good : Bool) (s : State) : Host.Outcome State Fault Refusal :=
  .next (match s.nvPort.current with
    | some { req := { link := l, op := .cellWrite cell g }, live := live } =>
      let s' := { s.clearCurrent with nv := s.nv.writeCell good cell g }
      match live, s'.writeOf l with
      | true, some w => if good then s'.cellGood l w cell g else s'.cellBad l w cell
      | _, _ => s'
    | _ => s)

/-- RETIRED_WRITE_COMPLETE (R14). -/
def execRetiredWriteComplete (s : State) : Host.Outcome State Fault Refusal :=
  .next (match s.nvPort.current with
    | some { req := { link := l, op := .retire cell }, live := live } =>
      let s' := { s.clearCurrent with nv := s.nv.writeChain cell .retired }
      match live, s'.writeOf l with
      | true, some w => s'.replaceCell l w
      | _, _ => s'
    | _ => s)

/-- CHAIN_ENTRY_WRITE_COMPLETE (R15). -/
def execChainEntryWriteComplete (s : State) : Host.Outcome State Fault Refusal :=
  .next (match s.nvPort.current with
    | some { req := { link := l, op := .chainEntry cell e }, live := live } =>
      let s' := { s.clearCurrent with nv := s.nv.writeChain cell e }
      match live, s'.writeOf l with
      | true, some w =>
        { s' with pool := { s'.pool with chain := chainSet cell e s'.pool.chain } }.nextWriteStep l
          { w with chained := w.chained + 1 }
      | _, _ => s'
    | _ => s)

/-- INDEX_SWAP_COMPLETE (R15, R17). A provisional write whose hang has ended completes all the same (R79). -/
def execIndexSwapComplete (s : State) : Host.Outcome State Fault Refusal :=
  .next (match s.nvPort.current with
    | some { req := { link := l, op := .swap }, live := true } =>
      let s' := s.clearCurrent
      match s'.writeOf l with
      | none => s'
      | some w => match w.revision with
        | none => s'
        | some v => (s'.swapRecord w v).endWrite l w v
    | some { req := { link := _, op := .swap }, live := false } =>
      let s' := { s with nvPort := { s.nvPort with current := none, orphan := none } }
      match s.nvPort.orphan with
      | none => s'
      | some w => match w.revision with
        | none => s'
        | some v => s'.swapRecord w v
    | _ => s)

/-- ERASE_WRITE_COMPLETE (R18). -/
def execEraseWriteComplete (s : State) : Host.Outcome State Fault Refusal :=
  .next (match s.nvPort.current with
    | some { req := { link := l, op := .remove tag }, live := _ } => s.clearCurrent.eraseRecord l tag
    | _ => s)

/-- The running audit of a link. -/
def State.auditOf (s : State) (l : Link) : Option AuditWork :=
  match (s.port l).job with
  | none => none
  | some j => match j.work with
    | .audit a => some a
    | .write _ => none
    | .erase _ => none
    | .hang _ => none
    | .save _ => none

/-- What a check read does to the record an audit is reading (R19, R20). -/
def State.auditStep (s : State) (l : Link) (a : AuditWork) (r : AuditRead) (good : Bool) : State :=
  let a := { a with checked := a.checked + 1 }
  let g := mapGet r.cell s.nv.cells
  match auditRead r (good && g.isSome) g (chainOf s.nv.chain r.cell) (chainOf s.pool.chain r.cell) s.pool.retired with
  | .sound => s.auditAdvance l a
  | .go c ks =>
    (s.setWork l (.audit { a with
      reading := some { r with cell := c, visited := r.cell :: r.visited, expected := ks } })).request l (.checkRead c)
  | .unsound =>
    (s.setWork l (.audit { a with reading := some { r with damaging := true } })).request l (.damage r.tag)

/-- AUDIT_CHECK_READ_COMPLETE (R19, R20): `good` is whether the cell's stored bits check correctly. -/
def execAuditCheckReadComplete (good : Bool) (s : State) : Host.Outcome State Fault Refusal :=
  .next (match s.nvPort.current with
    | some { req := { link := l, op := .checkRead _ }, live := live } =>
      let s' := s.clearCurrent
      match live, s'.auditOf l with
      | true, some a => match a.reading with
        | none => s'
        | some r => s'.auditStep l a r good
      | _, _ => s'
    | _ => s)

/-- AUDIT_STATUS_WRITE_COMPLETE (R20): the write takes effect even when its audit has ended (log 27). -/
def execAuditStatusWriteComplete (s : State) : Host.Outcome State Fault Refusal :=
  .next (match s.nvPort.current with
    | some { req := { link := l, op := .damage tag }, live := live } =>
      let s' := s.clearCurrent.damageRecord tag
      match live, s'.auditOf l with
      | true, some a => s'.auditAdvance l { a with damaged := a.damaged + 1 }
      | _, _ => s'
    | _ => s)

/-- The running save of a link. -/
def State.saveOf (s : State) (l : Link) : Option SaveWork :=
  match (s.port l).job with
  | none => none
  | some j => match j.work with
    | .save v => some v
    | .write _ => none
    | .erase _ => none
    | .hang _ => none
    | .audit _ => none

/-- SETTINGS_CELL_WRITE_COMPLETE (R22). -/
def execSettingsCellWriteComplete (good : Bool) (s : State) : Host.Outcome State Fault Refusal :=
  .next (match s.nvPort.current with
    | some { req := { link := l, op := .settings cell image }, live := live } =>
      let written := if good then some image else none
      let s' := { s.clearCurrent with nv := { s.nv with settings := updateAt (fun _ => written) cell s.nv.settings } }
      match live, s'.saveOf l with
      | true, some v => s'.savedCell l v good
      | _, _ => s'
    | _ => s)

end Sys2Proof.Machine
end

