-- ==== Sys2Proof/Machine/Power.lean ====
section
/-! DEFINITION. Power: POWER_UP, POWER_LOSS (R10) and START_UP_SCAN_END (R23, R24). -/
namespace Sys2Proof.Machine

/-- The non-volatile memory as a power loss at this moment leaves it: an interrupted cell write leaves a torn cell,
an interrupted chain entry or index write leaves nothing (R10). -/
def State.tornNv (s : State) : NvMemory :=
  match s.nvPort.current with
  | none => s.nv
  | some c => match c.req.op with
    | .cellWrite cell _ => { s.nv with cells := mapErase cell s.nv.cells }
    | .settings cell _ => { s.nv with settings := updateAt (fun _ => none) cell s.nv.settings }
    | .retire _ => s.nv
    | .chainEntry _ _ => s.nv
    | .swap => s.nv
    | .remove _ => s.nv
    | .damage _ => s.nv
    | .checkRead _ => s.nv

/-- POWER_UP: power applied, over whatever the non-volatile memory holds; on a powered part, a power cycle
(log 9). -/
def execPowerUp (s : State) : Host.Outcome State Fault Refusal :=
  .next (.powerUp s.tornNv s.pending)

/-- POWER_LOSS (R10): only the non-volatile memory is left. -/
def execPowerLoss (s : State) : Host.Outcome State Fault Refusal :=
  .next (match s.power with
    | .off => s
    | .starting => { State.powerUp s.tornNv s.pending with power := .off }
    | .on => { State.powerUp s.tornNv s.pending with power := .off })

/-- START_UP_SCAN_END (R23, R24). -/
def execStartUpScanEnd (sync : Level) (badCells badEntries badSettings : List Nat) (s : State) :
    Host.Outcome State Fault Refusal :=
  .next (match s.power with
    | .off => s
    | .starting => s.scanEnd sync badCells badEntries badSettings
    | .on => s)

end Sys2Proof.Machine
end

