-- ==== Sys2Proof/Machine/Serving.lean ====
section
/-! DEFINITION. The serving calls of PL (09): FETCH DIGEST, FETCH SPAN, FETCH GLOBAL. -/
namespace Sys2Proof.Machine

/-- The members of the set of parts whose fetched mark is set. -/
def Digest.fetchedParts (d : Digest) : List Nat := (List.range d.fetched.length).filter (fun p => d.fetched.getD p false)

/-- The entries of part `p` (R151). -/
def Digest.part (d : Digest) (p : Nat) : List DigestEntry := (d.entries.drop (Config.partEntries * p)).take Config.partEntries

/-- The FETCH DIGEST reply of a part, its mark already set (R151, R183). -/
def Digest.partWords (d : Digest) (p : Nat) : List Word :=
  let es := d.part p
  words48 d.epoch ++ words48 d.previous ++
    [wordOfNat d.changed, setWord ((if d.globalChanged then [0] else []) ++ (if d.overflow then [1] else [])),
     wordOfNat d.fetched.length, wordOfNat p, setWord d.fetchedParts, wordOfNat es.length] ++
    es.flatMap DigestEntry.words

def rowFetchDigest : CallRow := { code := 0x000A, pl := true, dl := false, sl := false, job := false, locked := false }

/-- FETCH DIGEST's checks and effect (R150 to R155). -/
def ownFetchDigest (ws : List Word) (s : State) : Answer :=
  match ws with
  | [a, b, c, p] =>
    if 7 < p.toNat then .refuse .badValue []
    else if epochOf a b c ≠ s.epoch then .refuse .stale (words48 s.epoch)
    else if s.digest.fetched.length ≤ p.toNat then
      .refuse .badPart (words48 s.epoch ++ [wordOfNat s.digest.fetched.length])
    else
      let d := { s.digest with fetched := updateAt (fun _ => true) p.toNat s.digest.fetched }
      .accept .ok (d.partWords p.toNat) { s with digest := d }
  | _ => .refuse .badLength []

/-- FETCH DIGEST (R150). -/
def execFetchDigest (l : Link) (f : Frame) (s : State) : Host.Outcome State Fault Refusal :=
  .next (takeCall rowFetchDigest false (hasLength 4) (ownFetchDigest f.operands) l f s)

def rowFetchSpan : CallRow := { code := 0x000B, pl := true, dl := false, sl := false, job := false, locked := false }

/-- The entries of a span (R157). -/
def State.spanEntries (s : State) (first count : Nat) : List DigestEntry :=
  ((s.indexed.drop first).take count).map (fun e => e.2.entry s.tiles e.1)

/-- FETCH SPAN's checks and reply (R156, R157). -/
def ownFetchSpan (ws : List Word) (s : State) : Answer :=
  match ws with
  | [first, count] =>
    if count.toNat = 0 ∨ 16 < count.toNat ∨ s.positionCount ≤ first.toNat ∨
        s.positionCount < first.toNat + count.toNat then .refuse .badValue []
    else
      .accept .ok
        (words48 s.epoch ++ [wordOfNat s.settings.columns, wordOfNat s.settings.rows, first, count] ++
          (s.spanEntries first.toNat count.toNat).flatMap DigestEntry.words) s
  | _ => .refuse .badLength []

/-- FETCH SPAN (R156). -/
def execFetchSpan (l : Link) (f : Frame) (s : State) : Host.Outcome State Fault Refusal :=
  .next (takeCall rowFetchSpan false (hasLength 2) (ownFetchSpan f.operands) l f s)

def rowFetchGlobal : CallRow := { code := 0x000C, pl := true, dl := false, sl := false, job := false, locked := false }

/-- FETCH GLOBAL's reply (R159). -/
def ownFetchGlobal (s : State) : Answer :=
  .accept .ok
    (words48 s.epoch ++ s.global.applied.words ++ s.global.target.words ++ [wordOfNat s.global.remaining]) s

/-- FETCH GLOBAL (R159). -/
def execFetchGlobal (l : Link) (f : Frame) (s : State) : Host.Outcome State Fault Refusal :=
  .next (takeCall rowFetchGlobal false (hasLength 0) ownFetchGlobal l f s)

end Sys2Proof.Machine
end

