-- ==== Sys2Proof/Machine/Dispatch.lean ====
section
/-! DEFINITION. Dispatch: one arm per command, each a direct call of its meaning. -/
namespace Sys2Proof.Machine

def exec (i : Instr) (s : State) : Host.Outcome State Fault Refusal :=
  match i with
  | .powerUp => Sys2Proof.Machine.execPowerUp s
  | .powerLoss => Sys2Proof.Machine.execPowerLoss s
  | .startUpScanEnd sync badCells badEntries badSettings => Sys2Proof.Machine.execStartUpScanEnd sync badCells badEntries badSettings s
  | .idleGap l received => Sys2Proof.Machine.execIdleGap l received s
  | .operandCountOversize l code count => Sys2Proof.Machine.execOperandCountOversize l code count s
  | .replyClockedOut l => Sys2Proof.Machine.execReplyClockedOut l s
  | .readyFalls l bits => Sys2Proof.Machine.execReadyFalls l s bits
  | .unknownCallFrame l code f => Sys2Proof.Machine.execUnknownCallFrame l code f s
  | .terms l f => Sys2Proof.Machine.execTerms l f s
  | .linkReset l f => Sys2Proof.Machine.execLinkReset l f s
  | .senseLink l f => Sys2Proof.Machine.execSenseLink l f s
  | .readNotices l f => Sys2Proof.Machine.execReadNotices l f s
  | .clearNotices l f => Sys2Proof.Machine.execClearNotices l f s
  | .setNoticeMask l f => Sys2Proof.Machine.execSetNoticeMask l f s
  | .senseJob l f => Sys2Proof.Machine.execSenseJob l f s
  | .abandonJob l f => Sys2Proof.Machine.execAbandonJob l f s
  | .senseWall l f => Sys2Proof.Machine.execSenseWall l f s
  | .fetchDigest l f => Sys2Proof.Machine.execFetchDigest l f s
  | .fetchSpan l f => Sys2Proof.Machine.execFetchSpan l f s
  | .fetchGlobal l f => Sys2Proof.Machine.execFetchGlobal l f s
  | .setGlobal l f => Sys2Proof.Machine.execSetGlobal l f s
  | .override l f => Sys2Proof.Machine.execOverride l f s
  | .take l f => Sys2Proof.Machine.execTake l f s
  | .setFrameEdge l f => Sys2Proof.Machine.execSetFrameEdge l f s
  | .revert l f => Sys2Proof.Machine.execRevert l f s
  | .holdDrift l f => Sys2Proof.Machine.execHoldDrift l f s
  | .releaseDrift l f => Sys2Proof.Machine.execReleaseDrift l f s
  | .setDriftParameters l f => Sys2Proof.Machine.execSetDriftParameters l f s
  | .setCadence l f => Sys2Proof.Machine.execSetCadence l f s
  | .cadenceRun l f => Sys2Proof.Machine.execCadenceRun l f s
  | .cadenceStop l f => Sys2Proof.Machine.execCadenceStop l f s
  | .cadenceRestart l f => Sys2Proof.Machine.execCadenceRestart l f s
  | .senseCadence l f => Sys2Proof.Machine.execSenseCadence l f s
  | .showLock l f => Sys2Proof.Machine.execShowLock l f s
  | .showUnlock l f => Sys2Proof.Machine.execShowUnlock l f s
  | .wallReset l f => Sys2Proof.Machine.execWallReset l f s
  | .selectTile l f => Sys2Proof.Machine.execSelectTile l f s
  | .readRecord l f => Sys2Proof.Machine.execReadRecord l f s
  | .listRecords l f => Sys2Proof.Machine.execListRecords l f s
  | .setWatermark l f => Sys2Proof.Machine.execSetWatermark l f s
  | .writeRecord l f => Sys2Proof.Machine.execWriteRecord l f s
  | .eraseRecord l f => Sys2Proof.Machine.execEraseRecord l f s
  | .auditPool l f => Sys2Proof.Machine.execAuditPool l f s
  | .setBatchDefault l f => Sys2Proof.Machine.execSetBatchDefault l f s
  | .setWhitePoint l f => Sys2Proof.Machine.execSetWhitePoint l f s
  | .setRoute l f => Sys2Proof.Machine.execSetRoute l f s
  | .setGeometry l f => Sys2Proof.Machine.execSetGeometry l f s
  | .readTileStatus l f => Sys2Proof.Machine.execReadTileStatus l f s
  | .hang l f => Sys2Proof.Machine.execHang l f s
  | .saveSettings l f => Sys2Proof.Machine.execSaveSettings l f s
  | .sweepNow l f => Sys2Proof.Machine.execSweepNow l f s
  | .senseBranches l f => Sys2Proof.Machine.execSenseBranches l f s
  | .clearBranch l f => Sys2Proof.Machine.execClearBranch l f s
  | .listPending l f => Sys2Proof.Machine.execListPending l f s
  | .nvRequestBegin => Sys2Proof.Machine.execNvRequestBegin s
  | .indexSwapBegin => Sys2Proof.Machine.execIndexSwapBegin s
  | .eraseWriteBegin => Sys2Proof.Machine.execEraseWriteBegin s
  | .settingsWriteBegin => Sys2Proof.Machine.execSettingsWriteBegin s
  | .cellWriteComplete good => Sys2Proof.Machine.execCellWriteComplete good s
  | .retiredWriteComplete => Sys2Proof.Machine.execRetiredWriteComplete s
  | .chainEntryWriteComplete => Sys2Proof.Machine.execChainEntryWriteComplete s
  | .indexSwapComplete => Sys2Proof.Machine.execIndexSwapComplete s
  | .eraseWriteComplete => Sys2Proof.Machine.execEraseWriteComplete s
  | .auditCheckReadComplete good => Sys2Proof.Machine.execAuditCheckReadComplete good s
  | .auditStatusWriteComplete => Sys2Proof.Machine.execAuditStatusWriteComplete s
  | .settingsCellWriteComplete good => Sys2Proof.Machine.execSettingsCellWriteComplete good s
  | .transmitterTake => Sys2Proof.Machine.execTransmitterTake s
  | .owedGatherQueue => Sys2Proof.Machine.execOwedGatherQueue s
  | .spaceWaiterQueue => Sys2Proof.Machine.execSpaceWaiterQueue s
  | .echoArrive branch header => Sys2Proof.Machine.execEchoArrive branch header s
  | .wireFault => Sys2Proof.Machine.execWireFault s
  | .sweepStartPoint => Sys2Proof.Machine.execSweepStartPoint s
  | .doneReport branch report => Sys2Proof.Machine.execDoneReport branch report s
  | .sweepTimeout branch => Sys2Proof.Machine.execSweepTimeout branch s
  | .tileAnswer branch words => Sys2Proof.Machine.execTileAnswer branch words s
  | .endMarker branch => Sys2Proof.Machine.execEndMarker branch s
  | .answerStreamBreak => Sys2Proof.Machine.execAnswerStreamBreak s
  | .waitingHangToldIdle l branch => Sys2Proof.Machine.execWaitingHangToldIdle l branch s
  | .placePost l => Sys2Proof.Machine.execPlacePost l s
  | .cadenceCountPulse => Sys2Proof.Machine.execCadenceCountPulse s
  | .cadenceExpiry => Sys2Proof.Machine.execCadenceExpiry s
  | .frameTick pulseFirst => Sys2Proof.Machine.execFrameTick pulseFirst s
  | .frameLost => Sys2Proof.Machine.execFrameLost s
  | .filterClockSample level pulseFirst => Sys2Proof.Machine.execFilterClockSample level pulseFirst s
  | .sourcePulse => Sys2Proof.Machine.execSourcePulse s

end Sys2Proof.Machine
end

