-- ==== Sys2Proof/Machine/Step.lean ====
section
/-! DEFINITION. The step: the command at the front of the queue, run on the state with the queue's rest. -/
namespace Sys2Proof.Machine

/-- One step. With an empty queue the block idles (log 7). -/
def step (s : State) : Host.Outcome State Fault Refusal :=
  match s.pending with
  | [] => .next s
  | c :: rest => exec c { s with pending := rest }

/-- The command a table word spells put at the front of the queue; no row gives bits, so no word spells one. -/
def State.withFetchWord (s : State) (nbits w : Nat) : State :=
  match decodeTableWord nbits w with
  | none => s
  | some c => { s with pending := c :: s.pending }

/-- The command that the words of one frame on a link spell, in the terms of its port (R169, R184), put at the front of
the queue. -/
def State.withFrame (s : State) (l : Link) (ws : List Word) : State :=
  match decodeFrame l (decide ((s.port l).terms.check = .on)) ws with
  | none => s
  | some c => { s with pending := c :: s.pending }

end Sys2Proof.Machine
end

