-- ==== Sys2Proof/Safety.lean ====
section
/-! DEFINITION. What the statements speak of: safe runs; the call catalogue of 10.5 and R184 as one table; what a port
looks like after an answer (R170, R171); and the invariants of the state. -/
namespace Sys2Proof.Machine

/-- A step is safe when it answers a next state. No rule of the spec stops the part, so every step should be. -/
def State.safe (s : State) : Prop := ∃ t, step s = .next t

/-! ### The call catalogue -/

/-- A command that is a complete frame of a catalogue call: its link, its frame, what the catalogue says of the call,
and whether its operands take the call's length. -/
structure Call where
  link : Link
  frame : Frame
  code : Word
  permitted : Bool
  job : Bool
  locked : Bool
  lengthOk : Bool
  deriving DecidableEq, Repr

/-- A catalogue row; `links` are its permissions on PL, DL, SL. -/
def Call.listed (l : Link) (f : Frame) (code : Word) (links : Bool × Bool × Bool) (job locked lengthOk : Bool) :
    Call :=
  { link := l, frame := f, code := code, job := job, locked := locked, lengthOk := lengthOk
    permitted := match l with
      | .pl => links.1
      | .dl => links.2.1
      | .sl => links.2.2 }

/-- The catalogue (10.5, R184): code, links, job, locked on SL, length. -/
def callOf : Instr → Option Call
  | .powerUp => none
  | .powerLoss => none
  | .startUpScanEnd _ _ _ _ => none
  | .idleGap _ _ => none
  | .operandCountOversize _ _ _ => none
  | .replyClockedOut _ => none
  | .readyFalls _ _ => none
  | .unknownCallFrame _ _ _ => none
  | .terms l f => some (.listed l f 0x0001 (true, true, true) false false (hasLength 2 f.operands))
  | .linkReset l f => some (.listed l f 0x0002 (true, true, true) false false (hasLength 0 f.operands))
  | .senseLink l f => some (.listed l f 0x0003 (true, true, true) false false (hasLength 0 f.operands))
  | .readNotices l f => some (.listed l f 0x0004 (true, true, true) false false (hasLength 0 f.operands))
  | .clearNotices l f => some (.listed l f 0x0005 (true, true, true) false false (hasLength 1 f.operands))
  | .setNoticeMask l f => some (.listed l f 0x0006 (true, true, true) false false (hasLength 1 f.operands))
  | .senseJob l f => some (.listed l f 0x0007 (true, true, true) false false (hasLength 0 f.operands))
  | .abandonJob l f => some (.listed l f 0x0008 (true, true, true) false false (hasLength 0 f.operands))
  | .senseWall l f => some (.listed l f 0x0009 (true, true, true) false false (hasLength 0 f.operands))
  | .fetchDigest l f => some (.listed l f 0x000A (true, false, false) false false (hasLength 4 f.operands))
  | .fetchSpan l f => some (.listed l f 0x000B (true, false, false) false false (hasLength 2 f.operands))
  | .fetchGlobal l f => some (.listed l f 0x000C (true, false, false) false false (hasLength 0 f.operands))
  | .setGlobal l f => some (.listed l f 0x000D (false, true, false) false false (hasLength 11 f.operands))
  | .override l f => some (.listed l f 0x000E (false, true, false) false false (hasLength 4 f.operands))
  | .take l f => some (.listed l f 0x000F (false, true, false) false false (hasLength 1 f.operands))
  | .setFrameEdge l f => some (.listed l f 0x0010 (false, true, false) false false (hasLength 1 f.operands))
  | .revert l f => some (.listed l f 0x0011 (false, true, false) false false (hasLength 1 f.operands))
  | .holdDrift l f => some (.listed l f 0x0012 (false, true, false) false false (hasLength 0 f.operands))
  | .releaseDrift l f => some (.listed l f 0x0013 (false, true, false) false false (hasLength 0 f.operands))
  | .setDriftParameters l f => some (.listed l f 0x0014 (false, true, false) false false (hasLength 8 f.operands))
  | .setCadence l f => some (.listed l f 0x0015 (false, true, false) false false (hasLength 4 f.operands))
  | .cadenceRun l f => some (.listed l f 0x0016 (false, true, false) false false (hasLength 0 f.operands))
  | .cadenceStop l f => some (.listed l f 0x0017 (false, true, false) false false (hasLength 0 f.operands))
  | .cadenceRestart l f => some (.listed l f 0x0018 (false, true, false) false false (hasLength 0 f.operands))
  | .senseCadence l f => some (.listed l f 0x0019 (false, true, false) false false (hasLength 0 f.operands))
  | .showLock l f => some (.listed l f 0x001A (false, true, false) false false (hasLength 0 f.operands))
  | .showUnlock l f => some (.listed l f 0x001B (false, true, false) false false (hasLength 0 f.operands))
  | .wallReset l f => some (.listed l f 0x001C (false, true, false) false false (hasLength 0 f.operands))
  | .selectTile l f => some (.listed l f 0x001D (false, false, true) false false (hasLength 2 f.operands))
  | .readRecord l f => some (.listed l f 0x001E (false, false, true) false false (hasLength 0 f.operands))
  | .listRecords l f => some (.listed l f 0x001F (false, false, true) false false (hasLength 2 f.operands))
  | .setWatermark l f => some (.listed l f 0x0020 (false, false, true) false false (hasLength 1 f.operands))
  | .writeRecord l f => some (.listed l f 0x0021 (false, false, true) true true (writeLengthOk f.operands))
  | .eraseRecord l f => some (.listed l f 0x0022 (false, false, true) true true (hasLength 2 f.operands))
  | .auditPool l f => some (.listed l f 0x0023 (false, false, true) true false (hasLength 0 f.operands))
  | .setBatchDefault l f => some (.listed l f 0x0024 (false, false, true) false true (hasLength 11 f.operands))
  | .setWhitePoint l f => some (.listed l f 0x0025 (false, false, true) false true (hasLength 4 f.operands))
  | .setRoute l f => some (.listed l f 0x0026 (false, false, true) false true (hasLength 9 f.operands))
  | .setGeometry l f => some (.listed l f 0x0027 (false, false, true) false true (hasLength 2 f.operands))
  | .readTileStatus l f => some (.listed l f 0x0028 (false, false, true) false false (hasLength 2 f.operands))
  | .hang l f => some (.listed l f 0x0029 (false, true, true) true true (hasLength 3 f.operands))
  | .saveSettings l f => some (.listed l f 0x002A (false, true, true) true true (hasLength 0 f.operands))
  | .sweepNow l f => some (.listed l f 0x002B (false, true, true) false false (hasLength 1 f.operands))
  | .senseBranches l f => some (.listed l f 0x002C (false, true, true) false false (hasLength 1 f.operands))
  | .clearBranch l f => some (.listed l f 0x002D (false, true, true) false true (hasLength 1 f.operands))
  | .listPending l f => some (.listed l f 0x002E (false, true, true) false false (hasLength 1 f.operands))
  | .nvRequestBegin => none
  | .indexSwapBegin => none
  | .eraseWriteBegin => none
  | .settingsWriteBegin => none
  | .cellWriteComplete _ => none
  | .retiredWriteComplete => none
  | .chainEntryWriteComplete => none
  | .indexSwapComplete => none
  | .eraseWriteComplete => none
  | .auditCheckReadComplete _ => none
  | .auditStatusWriteComplete => none
  | .settingsCellWriteComplete _ => none
  | .transmitterTake => none
  | .owedGatherQueue => none
  | .spaceWaiterQueue => none
  | .echoArrive _ _ => none
  | .wireFault => none
  | .sweepStartPoint => none
  | .doneReport _ _ => none
  | .sweepTimeout _ => none
  | .tileAnswer _ _ => none
  | .endMarker _ => none
  | .answerStreamBreak => none
  | .waitingHangToldIdle _ _ => none
  | .placePost _ => none
  | .cadenceCountPulse => none
  | .cadenceExpiry => none
  | .frameTick _ => none
  | .frameLost => none
  | .filterClockSample _ _ => none
  | .sourcePulse => none

/-! ### Ports after a call -/

/-- The port hears a frame: the part is powered, and the receiver is not discarding (R169). -/
def State.hears (s : State) (l : Link) (f : Frame) : Bool :=
  decide (s.power ≠ .off ∧ (s.port l).receiver ≠ .discarding ∧ f.operands.length ≤ 320)

/-- The port is in an open state and takes a frame with this code whose check, if the terms have one, is right
(R166, R170 step 1). -/
def State.takes (s : State) (l : Link) (f : Frame) (code : Word) : Bool :=
  s.hears l f && decide (((s.port l).state = .idle ∨ (s.port l).state = .replyPending) ∧
    ((s.port l).terms.check = .on → frameCheckOk f code = true))

/-- A port whose old reply, if any, has been discarded, and which is between frames (R171). -/
def Port.heard (p : Port) : Port :=
  { p with
    slot := none, receiver := .betweenFrames, wordBits := []
    discardedMark := p.discardedMark || p.slot.isSome
    counters := { p.counters with
      discarded := if p.slot.isSome then satSucc p.counters.discarded else p.counters.discarded } }

/-- A port with a reply staged in its terms (R171). -/
def Port.replied (p : Port) (st : Status) (ws : List Word) : Port :=
  { p with slot := some { status := st, words := ws, terms := p.terms, clocked := 0 }, ready := true }

/-- The state after an accepted call: its reply staged, calls taken counted, nothing else (R170, R171). -/
def State.answered (s : State) (l : Link) (st : Status) (ws : List Word) : State :=
  let p := ((s.port l).heard).replied st ws
  s.setPort l { p with state := .replyPending, counters := { p.counters with taken := satSucc p.counters.taken } }

/-- The state after a refusal by a call's own checks: its reply staged, no counter (R170). -/
def State.declined (s : State) (l : Link) (st : Status) (ws : List Word) : State :=
  s.setPort l { ((s.port l).heard).replied st ws with state := .replyPending }

/-- The state after a refusal by the link checks in an open state, with the counters `count` counts (R170). -/
def State.rejected (s : State) (l : Link) (st : Status) (count : Counters → Counters) : State :=
  let p := ((s.port l).heard).replied st []
  s.setPort l { p with
    state := .replyPending, counters := { count p.counters with refused := satSucc p.counters.refused } }

/-- The state after a frame answered in STARTING or DOWN: the reply staged, the port's state kept (R167, R171). -/
def State.turnedAway (s : State) (l : Link) (st : Status) : State :=
  s.setPort l (((s.port l).heard).replied st [])

/-- A notice flag is set on a port (R175). -/
def Port.hasFlag (p : Port) (n : Notice) : Bool := p.flags.getLsbD n.bit

/-- An optional operand of two words: its value when the presence word is 1 (R183). -/
def given (presence value : Word) : Option Word := if presence = 1 then some value else none

/-- A presence word that is none (R183). -/
abbrev noPresence (presence : Word) : Prop := 1 < presence.toNat

/-- The entry is a PLACE. -/
def Change.isPlace : Change → Bool
  | .place _ _ _ _ => true
  | .global _ _ => false
  | .take _ => false
  | .revert _ => false
  | .override _ _ _ => false

/-- The values that the live plane serves or moves toward, position by position (R129). -/
def State.plane (s : State) : List (Correction × Correction × Nat) :=
  s.positions.map (fun p => (p.target, p.applied, p.remaining))

/-! ### What a command leaves alone -/

/-- `p` with the job and the flags of `q`: a port over which a chain order, a hang's next step or a raised notice may
have passed. -/
def Port.marked (p q : Port) : Port := { p with job := q.job, flags := q.flags }

/-- `p` with the job, the record and the flags of `q`: a port whose job may also have ended. -/
def Port.ended (p q : Port) : Port := { p with job := q.job, record := q.record, flags := q.flags }

/-- `s` with the chain of `t`, and with what a hang that goes on may touch: its job, its claims and requests, its PLACE
entry. All else is as in `s`. -/
def State.chainFrom (s t : State) : State :=
  { s with
    pl := s.pl.marked t.pl, dl := s.dl.marked t.dl, sl := s.sl.marked t.sl
    pool := { s.pool with free := t.pool.free, low := t.pool.low }
    nvPort := { s.nvPort with waiting := t.nvPort.waiting }
    branches := t.branches, wire := t.wire, orders := t.orders, owed := t.owed, spaceWaiters := t.spaceWaiters
    idleWaits := t.idleWaits, awaiting := t.awaiting, changes := t.changes, postWaiters := t.postWaiters }

/-- `s` with what the end of one job may touch in `t`: claims released, requests and orders withdrawn. -/
def State.withdrawnFrom (s t : State) : State :=
  { s with
    pl := t.pl, dl := t.dl, sl := t.sl
    pool := { s.pool with free := t.pool.free, chain := t.pool.chain, image := t.pool.image, low := t.pool.low }
    nvPort := t.nvPort, wire := t.wire, orders := t.orders, owed := t.owed, spaceWaiters := t.spaceWaiters
    idleWaits := t.idleWaits, postWaiters := t.postWaiters }

/-! ### What the rules say of one part, in their own terms -/

/-- `cells` are the cells a walk of R19 visits from `head`: in range, not barred, none twice, at most four, each but the
first named by the entry before it; and the walk went on while it could. -/
structure Walked (chain : List (Nat × ChainEntry)) (barred : Nat → Prop) (head : Nat) (cells : List Nat) : Prop where
  start : cells.head? = some head ∨ (cells = [] ∧ (1536 ≤ head ∨ barred head))
  allowed : ∀ c ∈ cells, c < 1536 ∧ ¬barred c
  once : cells.Nodup
  most : cells.length ≤ 4
  linked : ∀ k c d : Nat, cells[k]? = some c → cells[k + 1]? = some d → chainOf chain c = .next d
  stopped : ∀ c d : Nat, cells.getLast? = some c → chainOf chain c = .next d →
    cells.length = 4 ∨ 1536 ≤ d ∨ barred d ∨ d ∈ cells

/-- The record of a walk is sound (R19): it stopped at a LAST entry, every cell checks correctly (`read` gives what it
holds), the first is the HEAD of the tag, and the kinds of the others are the present groups in chain order. -/
def SoundRecord (chain : List (Nat × ChainEntry)) (read : Nat → Option Group) (tag : Nat) (cells : List Nat) : Prop :=
  cells.getLast?.map (chainOf chain) = some .last ∧
    match cells.map read with
    | some (.head named _ _ p) :: rest => named = tag ∧
        rest.map (Option.map Group.kind) =
          ((if p.survey then [CellKind.survey] else []) ++ (if p.drift then [CellKind.drift] else []) ++
            (if p.trim then [CellKind.trim] else [])).map some
    | _ => False

/-- The Cell Pool after a claim is released (R2, R3, R11, R16): the cells are free and their entries read FREE. -/
structure State.ClaimReleased (s t : State) (claim : List Nat) : Prop where
  free : ∀ c, c ∈ t.pool.free ↔ c ∈ s.pool.free ∨ c ∈ claim
  chain : ∀ c, chainOf t.pool.chain c = if c ∈ claim then .free else chainOf s.pool.chain c
  image : ∀ c, mapGet c t.pool.image = if c ∈ claim then none else mapGet c s.pool.image
  low : claim ≠ [] → t.pool.low = decide (t.pool.free.length < s.settings.watermark)
  kept : t.pool.retired = s.pool.retired ∧ t.pool.index = s.pool.index ∧ t.pool.counter = s.pool.counter

/-- The NV Port after the requests of a link's job are withdrawn (R9): the waiting one is gone, and one in progress runs
to its end with its outcome discarded. `orphan` is the write, if any, that completes without its hang. -/
def State.RequestsWithdrawn (s t : State) (l : Link) (orphan : Option RecWrite) : Prop :=
  t.nvPort =
    { waiting := s.nvPort.waiting.filter (fun r => decide (r.link ≠ l))
      current := s.nvPort.current.map (fun c => if c.req.link = l then { c with live := false } else c)
      orphan := orphan }

/-- The orders that stand ahead of any roll call when a link's hang has been withdrawn (R49, R61): the others' as they
were, then the owed gathers for which the `n` freed places suffice, each for its sweep's originator. -/
def State.ordersAhead (s : State) (l : Link) (n : Nat) : List Order :=
  s.orders.filter (fun o => decide (o.orig ≠ .hang l)) ++
    (s.owed.take n).map (fun b => ⟨.gather, b, ((s.branches[b]?).bind Branch.orig).getD .sweepNow⟩)

/-- The Chain Engine after the orders of a link's hang are withdrawn (R49, R61): none of them waits, the `n` places they
left go to the owed gathers and then to the roll calls of the waiting hangs, and what is on the wire for the hang will
not be reported. -/
structure State.OrdersWithdrawn (s t : State) (l : Link) (n : Nat) : Prop where
  freed : n = (s.orders.filter (fun o => decide (o.orig = .hang l))).length
  given : ∃ calls : List Order, t.orders = s.ordersAhead l n ++ calls ∧ calls.length ≤ n - s.owed.length ∧
    ∀ o ∈ calls, o.kind = .rollCall ∧ ∃ m ∈ s.spaceWaiters, m ≠ l ∧ o.orig = .hang m
  owed : t.owed = s.owed.drop n
  waiter : ∀ m h, s.spaceWaiters.filter (fun k => decide (k ≠ l)) = [m] → s.hangOf m = some h →
    (h.branches.map HangBranch.branch).Nodup →
    let due := (h.branches.filter (fun x => decide (x.outcome = .toQueue))).map HangBranch.branch
    let left := n - s.owed.length
    t.orders = s.ordersAhead l n ++ (due.take left).map (fun b => ⟨.rollCall, b, .hang m⟩) ∧
      t.spaceWaiters = if 0 < left ∧ due.length ≤ left then [] else [m]
  space : l ∉ t.spaceWaiters
  wait : n ≤ s.owed.length → t.spaceWaiters = s.spaceWaiters.filter (fun m => decide (m ≠ l))
  idle : t.idleWaits = s.idleWaits.filter (fun e => decide (e.2 ≠ l))
  post : t.postWaiters = s.postWaiters.filter (fun m => decide (m ≠ l))
  wire : t.wire = s.wire.map (fun w => if w.order.orig = .hang l then { w with dropped := true } else w)

/-- The Chain Engine's queue, waits and wire, and the hangs that wait to post, are as they were. -/
def State.OrdersKept (s t : State) : Prop :=
  t.orders = s.orders ∧ t.owed = s.owed ∧ t.spaceWaiters = s.spaceWaiters ∧ t.idleWaits = s.idleWaits ∧
    t.postWaiters = s.postWaiters ∧ t.wire = s.wire

/-- What abandoning a link's job releases, by its kind (R16, R18, R20, R22, R79): a write's claim and requests, the
requests of an erase, an audit or a save, and a hang's orders with its provisional write, unless that write's swap has
begun, which then completes without the hang. -/
def State.JobReleased (s t : State) (l : Link) : JobWork → Prop
  | .write w =>
    s.ClaimReleased t (w.written ++ w.unwritten) ∧ s.RequestsWithdrawn t l s.nvPort.orphan ∧ s.OrdersKept t
  | .erase _ => t.pool = s.pool ∧ s.RequestsWithdrawn t l s.nvPort.orphan ∧ s.OrdersKept t
  | .audit _ => t.pool = s.pool ∧ s.RequestsWithdrawn t l s.nvPort.orphan ∧ s.OrdersKept t
  | .save _ => t.pool = s.pool ∧ s.RequestsWithdrawn t l s.nvPort.orphan ∧ s.OrdersKept t
  | .hang h => (∃ n, s.OrdersWithdrawn t l n) ∧
    (h.prov = none → t.pool = s.pool ∧ t.nvPort = s.nvPort) ∧
    (∀ w, h.prov = some w → w.revision = none →
      s.ClaimReleased t (w.written ++ w.unwritten) ∧ s.RequestsWithdrawn t l s.nvPort.orphan) ∧
    (∀ w v, h.prov = some w → w.revision = some v → t.pool = s.pool ∧ s.RequestsWithdrawn t l (some w))

/-- What the end of a link's hang, if it runs one, releases; with none running nothing is touched. -/
def State.HangReleased (s t : State) (l : Link) : Option HangWork → Prop
  | none => t.pool = s.pool ∧ t.nvPort = s.nvPort ∧ s.OrdersKept t
  | some h => s.JobReleased t l (.hang h)

/-- An audit with these counts goes on from the last tag it handled (R20): in ascending order a DAMAGED record is passed
over, one locked by another job is passed over and counted, and the first other one is read from its head cell; with none
left the job `j` ends DONE. -/
def State.AuditGoesOn (s t : State) (l : Link) (j : Job) (a : AuditWork) : Prop :=
  let later := t.pool.index.filter (fun e => decide (a.last < e.tag))
  let passed := later.takeWhile (fun e => decide (e.status = .damaged) || s.isLocked e.tag)
  let skipped := a.skipped + (passed.filter (fun e => decide (e.status ≠ .damaged))).length
  (∀ e rest, later = passed ++ e :: rest →
    (t.port l).job = some { j with work := .audit { a with
      last := e.tag, skipped := skipped, reading := some ⟨e.tag, e.head, [], [], false⟩ } } ∧
    (t.port l).record = (s.port l).record ∧ t.nvPort.waiting = s.nvPort.waiting ++ [⟨l, .checkRead e.head⟩]) ∧
  (later = passed →
    (t.port l).job = none ∧ (t.port l).hasFlag .jobDone = true ∧ t.nvPort.waiting = s.nvPort.waiting ∧
    (t.port l).record = ⟨.done, .none, j.committed, .audit ((passed.getLast?.map IndexEntry.tag).getD a.last) a.checked
      a.damaged skipped (some s.pool.retired.length)⟩)

/-- The state at the event of a tick, before phase 1: the filter settled on the active level, the frame state RUNNING and
its timer restarted (R117, R119). -/
def State.ticking (s : State) : State :=
  { s with frame := ⟨.running, true, s.settings.polarity.activeLevel, 0⟩ }

/-- The state of a tick after the oldest `k` entries of its queue have been applied, one after another (R125). -/
def State.afterEntries (s : State) (k : Nat) : State := (s.changes.take k).foldl State.applyChange s.ticking

/-- What a tick makes of the plane (R124): the whole queue applied, oldest entry first, then the drift-dirty positions
taken, then one step of every ramp. -/
structure State.TickPlane (s t : State) : Prop where
  positions : t.positions = (s.afterEntries s.changes.length).takeDirty.positions.map Position.step
  tiles : t.tiles = (s.afterEntries s.changes.length).takeDirty.tiles
  dirty : t.dirty = (s.afterEntries s.changes.length).takeDirty.dirty
  cursor : t.cursor = (s.afterEntries s.changes.length).takeDirty.cursor
  global : t.global = (s.afterEntries s.changes.length).global.step
  history : t.history = (s.afterEntries s.changes.length).history
  lastSkipped : t.lastSkipped = (s.afterEntries s.changes.length).lastSkipped
  settings : t.settings = s.settings
  queue : t.changes.all Change.isPlace = true

/-! ### Invariants -/

/-- Strictly rising. -/
abbrev rising (ns : List Nat) : Prop := ns.Pairwise (· < ·)

/-- The queues and the History stay within their places (R46, R121, R139); a hang waits to post at most once. -/
structure State.Bounded (s : State) : Prop where
  orders : s.orders.length ≤ 8
  changes : s.changes.length ≤ 16
  history : s.history.length ≤ 4
  postWaiters : s.postWaiters.Nodup

/-- Whenever a ramp remaining is zero, the applied value equals the target (R130, R131). -/
structure State.AtRest (s : State) : Prop where
  positions : ∀ p ∈ s.positions, p.remaining = 0 → p.applied = p.target
  global : s.global.remaining = 0 → s.global.applied = s.global.target

/-- In IDLE the slot is empty, in REPLY_PENDING it holds a reply, READY is high only over a reply, and an incomplete word
has at most fifteen bits (R165, R166). -/
structure Port.Consistent (p : Port) : Prop where
  idle : p.state = .idle → p.slot = none
  pending : p.state = .replyPending → p.slot.isSome = true
  ready : p.ready = true → p.slot.isSome = true
  word : p.wordBits.length < 16

/-- Every port is consistent. -/
def State.PortsConsistent (s : State) : Prop := ∀ l, (s.port l).Consistent

/-- The map has C x R positions, and the drift-dirty set names only positions, rising (R28, R96). -/
structure State.Gridded (s : State) : Prop where
  count : s.positions.length = s.settings.columns * s.settings.rows
  dirty : ∀ i ∈ s.dirty, i < s.positions.length

/-- Every table is in its canonical form: keys strictly rising (R2, R6, R39, R96; log 11). -/
structure State.Canonical (s : State) : Prop where
  nvCells : rising (s.nv.cells.map Prod.fst)
  nvChain : rising (s.nv.chain.map Prod.fst)
  nvIndex : rising (s.nv.index.map NvEntry.tag)
  free : rising s.pool.free
  retired : rising s.pool.retired
  chain : rising (s.pool.chain.map Prod.fst)
  image : rising (s.pool.image.map Prod.fst)
  index : rising (s.pool.index.map IndexEntry.tag)
  tiles : rising (s.tiles.map TileStatus.tag)
  dirty : rising s.dirty
  awaiting : rising s.awaiting

/-- The current digest: OVERFLOW with no entries, or at most 128 entries of rising positions; 1 to 8 parts
(R133, R134). -/
structure State.DigestSound (s : State) : Prop where
  entries : s.digest.entries.length ≤ 128
  overflow : s.digest.overflow = true → s.digest.entries = []
  ascending : rising (s.digest.entries.map DigestEntry.position)
  parts : 1 ≤ s.digest.fetched.length ∧ s.digest.fetched.length ≤ 8

end Sys2Proof.Machine
end

