-- ==== Sys2Proof/Certificates/Slice0/Obligations.lean ====
section
/-! DEFINITION. The statements about the model, for the provers. Section and rule numbers are those of spec/. -/

open Sys2Proof Sys2Proof.Machine

/-! ### The step -/

/-- One step takes the front command and runs it on the state with the queue's rest. -/
def Obligations.StepRunsFrontCommand : Prop :=
  ∀ (c : Instr) (rest : List Instr) (s : State),
    s.pending = c :: rest → step s = exec c { s with pending := rest }

/-- No command stops the part, and none touches the queue of commands (10.4 R170; log 2); an empty queue idles, which
is the model's choice (log 7). -/
def Obligations.EveryStepAnswersNext : Prop :=
  (∀ (c : Instr) (s : State), ∃ t, exec c s = .next t ∧ t.pending = s.pending) ∧
  ∀ s : State, s.pending = [] → step s = .next s

/-! ### Power (R10, R23, R24, R65, R99, R136, R166) -/

/-- POWER_UP starts the scan and leaves the ports, the show lock, the chain, the cycle counts, the Tile Status table,
the hold state, the frame state, the queue, the map, the epoch, the digest and the History at their power-up values;
with no NV write in progress it keeps the non-volatile memory (log 8, log 9). -/
def Obligations.PowerUpResets : Prop :=
  ∀ s : State, ∃ t, exec .powerUp s = .next t ∧ t.power = .starting ∧
    (∀ l, (t.port l).state = .starting ∧ (t.port l).terms = ⟨.msbFirst, .on⟩ ∧ (t.port l).slot = none ∧
      (t.port l).receiver = .betweenFrames ∧ (t.port l).wordBits = [] ∧ (t.port l).discardedMark = false ∧
      (t.port l).counters = .zero ∧
      (t.port l).selection = none ∧ (t.port l).job = none ∧ (t.port l).record = .none ∧
      (t.port l).flags = 0 ∧ (t.port l).mask = 0xFFFF) ∧
    t.showLock = false ∧
    (∀ b, b < 4 → t.branches[b]? = some ⟨.idle, 0, none, false, false, false, false, 0⟩) ∧
    t.wire = none ∧ t.orders = [] ∧ t.owed = [] ∧ t.spaceWaiters = [] ∧ t.idleWaits = [] ∧
    t.awaiting = [] ∧ t.cyclesStarted = 0 ∧ t.cyclesSkipped = 0 ∧ t.overruns = 0 ∧ t.resultsDiscarded = 0 ∧
    t.tiles = [] ∧ t.hold = false ∧
    t.frame.state = .lost ∧ t.frame.timerRunning = false ∧ t.changes = [] ∧ t.dirty = [] ∧ t.cursor = 0 ∧
    (∀ p ∈ t.positions, p.hung = .empty ∧ p.override = none ∧ p.adopted = none ∧ p.target = .emptyTarget ∧
      p.applied = .emptyTarget ∧ p.remaining = 0) ∧
    t.epoch = 0 ∧ t.digest.epoch = 0 ∧ t.digest.entries = [] ∧ t.digest.fetched = [true] ∧ t.history = [] ∧
    t.lastSkipped = 0 ∧ (s.nvPort.current = none → t.nv = s.nv)

/-- A power loss tears the cell being written and nothing else of the non-volatile memory, and leaves no job, claim
or request behind (R10); the other volatile values stand at their power-up values until POWER_UP (log 9). -/
def Obligations.PowerLossTearsOnlyTheCellWritten : Prop :=
  ∀ s : State, s.power ≠ .off → ∃ t, exec .powerLoss s = .next t ∧ t.power = .off ∧
    t.nv.chain = s.nv.chain ∧ t.nv.index = s.nv.index ∧ t.nv.counter = s.nv.counter ∧
    (∀ r : NvCurrent, s.nvPort.current = some r →
      (∀ c g, r.req.op = .cellWrite c g → mapGet c t.nv.cells = none ∧ t.nv.settings = s.nv.settings ∧
        ∀ d, d ≠ c → mapGet d t.nv.cells = mapGet d s.nv.cells) ∧
      (∀ c i, r.req.op = .settings c i → t.nv.cells = s.nv.cells ∧
        ∀ d, t.nv.settings[d]? = if d = c ∧ d < s.nv.settings.length then some none else s.nv.settings[d]?) ∧
      ((∀ c g, r.req.op ≠ .cellWrite c g) → (∀ c i, r.req.op ≠ .settings c i) → t.nv = s.nv)) ∧
    (s.nvPort.current = none → t.nv = s.nv) ∧
    t.nvPort.waiting = [] ∧ t.nvPort.current = none ∧ t.pool.free = [] ∧ t.pool.index = [] ∧
    (∀ l, (t.port l).job = none) ∧ t = { State.powerUp t.nv s.pending with power := .off }

/-- The end of the start-up scan: every Tag Index entry that checks correctly is walked in ascending order, and its
record has the cells visited, its stored status if it is sound and DAMAGED if not, and its image if it is sound; every
other cell that is not retired is free; RECORD_DAMAGED, POOL_LOW and SETTINGS_LOST are raised as the scan found; the
settings are loaded all or nothing, the counter stands above every revision, the timer, the filter and the global target
are set, and every link is DOWN (R8, R11, R19, R23, R24, R82, R111, R117, R165). How the scan finds a cell bad is an
operand (log 12); the area check is log 13, that a walk tests its head cell as it tests the others is log 29, that a
dropped entry stays stored is log 43, and that a frame a port is receiving goes on is log 47. -/
def Obligations.StartUpScanRebuilds : Prop :=
  ∀ (sync : Level) (badCells badEntries badSettings : List Nat) (s : State), s.power = .starting →
    ∃ t, exec (.startUpScanEnd sync badCells badEntries badSettings) s = .next t ∧
      let kept := s.nv.index.filter (fun e => decide (e.tag ∉ badEntries))
      let read (c : Nat) : Option Group := if c ∈ badCells then none else mapGet c s.nv.cells
      t.power = .on ∧ (∀ l, t.port l = { s.port l with
        state := .down, wordBits := [], flags := (t.port l).flags }) ∧
      t.pool.index.map (fun x => (x.tag, x.head, x.revision)) = kept.map (fun e => (e.tag, e.head, e.revision)) ∧
      (∀ (k : Nat) (x : IndexEntry) (e : NvEntry), t.pool.index[k]? = some x → kept[k]? = some e →
        Walked s.nv.chain
          (fun c => (c, ChainEntry.retired) ∈ s.nv.chain ∨ ∃ y ∈ t.pool.index.take k, c ∈ y.cells) e.head x.cells ∧
        (SoundRecord s.nv.chain read e.tag x.cells → x.status = e.status ∧
          ∀ c ∈ x.cells, mapGet c t.pool.image = mapGet c s.nv.cells) ∧
        (¬SoundRecord s.nv.chain read e.tag x.cells → x.status = .damaged ∧
          ∀ c ∈ x.cells, mapGet c t.pool.image = none)) ∧
      (∀ c, (∀ x ∈ t.pool.index, c ∉ x.cells) → mapGet c t.pool.image = none) ∧
      (∀ c, chainOf t.pool.chain c =
        if c ∈ t.pool.retired ∨ ∃ x ∈ t.pool.index, c ∈ x.cells then chainOf s.nv.chain c else .free) ∧
      ((t.port .sl).hasFlag .recordDamaged = true ↔ (s.port .sl).hasFlag .recordDamaged = true ∨
        (∃ e ∈ s.nv.index, e.tag ∈ badEntries) ∨
        ∃ p ∈ t.pool.index.zip kept, p.1.status = .damaged ∧ p.2.status ≠ .damaged) ∧
      t.pool.low = decide (t.pool.free.length < t.settings.watermark) ∧
      (∀ l, l ≠ .pl → (t.port l).hasFlag .poolLow = ((s.port l).hasFlag .poolLow || t.pool.low)) ∧
      (∀ (l : Link) (n : Notice), n ≠ .settingsLost → (n ≠ .poolLow ∨ l = .pl) → (n ≠ .recordDamaged ∨ l ≠ .sl) →
        (t.port l).hasFlag n = (s.port l).hasFlag n) ∧
      (∀ c, c ∈ t.pool.retired ↔ (c, ChainEntry.retired) ∈ s.nv.chain) ∧
      (∀ c, c ∈ t.pool.free ↔ c < 1536 ∧ c ∉ t.pool.retired ∧ ∀ e ∈ t.pool.index, c ∉ e.cells) ∧
      (∀ e ∈ t.pool.index, e.revision < t.pool.counter) ∧ s.nv.counter ≤ t.pool.counter ∧ 1 ≤ t.pool.counter ∧
      (t.pool.counter = s.nv.counter ∨ t.pool.counter = 1 ∨ ∃ e ∈ t.pool.index, t.pool.counter = e.revision + 1) ∧
      (∀ img, s.nv.settings = List.replicate 8 (some img) → badSettings = [] → t.settings = img ∧
        ∀ l, (t.port l).hasFlag .settingsLost = (s.port l).hasFlag .settingsLost) ∧
      (s.nv.settings.length = 8 →
        ((∀ img, s.nv.settings ≠ List.replicate 8 (some img)) ∨ badSettings ≠ []) →
        t.settings = .factory ∧ ∀ l, (t.port l).hasFlag .settingsLost = true) ∧
      t.positions = List.replicate (t.settings.columns * t.settings.rows) .atRest ∧
      t.timer = { state := if t.settings.runAtStart then .running else .stopped, counter := t.settings.reload
                  stage := 0 } ∧
      t.frame = { s.frame with settled := sync, candidate := 0 } ∧
      (let w := t.settings.white.getD 0 .unity
       let gain (x : Int) : Int := max 0 (min x 4095)
       let v : GlobalVector := ⟨1000, gain w.r, gain w.g, gain w.b⟩
       t.global = { intent := ⟨1000, 0, 0, 0, 0⟩, target := v, applied := v, remaining := 0 }) ∧
      t = { s with
        power := .on, pl := t.pl, dl := t.dl, sl := t.sl, pool := t.pool, settings := t.settings
        positions := t.positions, dirty := [], cursor := 0, history := [], timer := t.timer, frame := t.frame
        global := t.global }

/-! ### The link wire and the link checks (R165 to R171) -/

/-- IDLE_GAP, OPERAND_COUNT_OVERSIZE, REPLY_CLOCKED_OUT and READY_FALLS; and what the edges of LCK at and after the fall
of READY do: filler clocks a reply out word by word, a word comes in in the port's bit order, an incomplete one waits for
its bits whatever the receiver is in the middle of, a port that discards skips its words while its reply goes out, and an
idle gap drops the bits of an incomplete word (R165, R166, R169, R171). The counters of an oversize frame in every port
state are the model's choice (log 17), and so are the words IDLE_GAP carries (log 31), when the count of words out moves
and when READY is lowered (log 20), the bits READY_FALLS carries, and that a reply word partly out at an idle gap goes out
again from its first bit (log 41). -/
def Obligations.WireEventsMoveTheReceiver : Prop :=
  ∀ (l : Link) (s : State), s.power ≠ .off →
    (∀ ws, (s.port l).receiver = .discarding →
      exec (.idleGap l ws) s = .next (s.setPort l { s.port l with receiver := .betweenFrames, wordBits := [] })) ∧
    (∀ k, (s.port l).receiver = .betweenFrames →
      exec (.idleGap l (List.replicate k 0)) s = .next (s.setPort l { s.port l with wordBits := [] })) ∧
    (∀ (code n : Word) (ws : List Word), (s.port l).receiver = .betweenFrames → code ≠ 0 → n.toNat ≤ 320 →
      ws.length < n.toNat + (if (s.port l).terms.check = .on then 1 else 0) →
      exec (.idleGap l (code :: n :: ws)) s =
        .next (s.setPort l { s.port l with wordBits := [], counters := { (s.port l).counters with
          partialFrames := satSucc (s.port l).counters.partialFrames } })) ∧
    (∀ n e, (s.port l).receiver = .inFrame n e →
      exec (.idleGap l []) s =
        .next (s.setPort l { s.port l with
          receiver := .betweenFrames, wordBits := []
          counters := { (s.port l).counters with
            partialFrames := satSucc (s.port l).counters.partialFrames } })) ∧
    (∀ code count : Word, (s.port l).receiver ≠ .discarding → code ≠ 0 → 320 < count.toNat →
      exec (.operandCountOversize l code count) s =
        .next (s.setPort l
          (let p := ((s.port l).heard).replied .badLength []
           { p with
             receiver := .discarding
             state := if p.state.isOpen then .replyPending else p.state
             counters := { p.counters with badLengths := satSucc p.counters.badLengths } }))) ∧
    (∀ r, (s.port l).slot = some r →
      exec (.replyClockedOut l) s =
        .next (s.setPort l { s.port l with
          slot := none, ready := false
          state := if (s.port l).state = .replyPending then .idle else (s.port l).state })) ∧
    exec (.readyFalls l) s = .next (s.setPort l { s.port l with ready := false }) ∧
    (∀ bits : List Bool, (s.port l).wordBits.length + bits.length < 16 →
      exec (.readyFalls l bits) s = .next (s.setPort l { s.port l with
        ready := false, wordBits := (s.port l).wordBits ++ bits })) ∧
    (∀ (r : Reply) (k : Nat) (bits : List Bool), (s.port l).slot = some r → (s.port l).wordBits.length < 16 →
      ((s.port l).receiver = .betweenFrames ∧ (s.port l).wordBits ++ bits = List.replicate (16 * k) false ∨
        (s.port l).receiver = .discarding ∧ ((s.port l).wordBits ++ bits).length = 16 * k) →
      (r.clocked + k < r.frame.length →
        exec (.readyFalls l bits) s = .next (s.setPort l { s.port l with
          ready := false, wordBits := [], slot := some { r with clocked := r.clocked + k } })) ∧
      (r.clocked < r.frame.length → r.clocked + k = r.frame.length →
        exec (.readyFalls l bits) s = .next (s.setPort l { s.port l with
          ready := false, wordBits := [], slot := none
          state := if (s.port l).state = .replyPending then .idle else (s.port l).state }))) ∧
    (∀ (w : Word) (bits : List Bool), (s.port l).slot = none → (s.port l).wordBits.length < 16 →
      (s.port l).wordBits ++ bits = (List.range 16).map (fun k =>
        w.getLsbD (if (s.port l).terms.order = .msbFirst then 15 - k else k)) →
      let takes (r : Receiver) : Prop := exec (.readyFalls l bits) s =
        .next (s.setPort l { s.port l with ready := false, wordBits := [], receiver := r })
      let check := if (s.port l).terms.check = .on then 1 else 0
      ((s.port l).receiver = .betweenFrames → takes (if w = 0 then .betweenFrames else .inFrame 1 none)) ∧
      ((s.port l).receiver = .inFrame 1 none → w.toNat ≤ 320 → 0 < w.toNat + check →
        takes (.inFrame 2 (some (2 + w.toNat + check)))) ∧
      (∀ n e, (s.port l).receiver = .inFrame n (some e) → n + 1 < e → takes (.inFrame (n + 1) (some e))) ∧
      ((s.port l).receiver = .discarding → takes .discarding)) ∧
    ((s.port l).slot = none → (s.port l).ldo = List.replicate 16 false) ∧
    (∀ (r : Reply) (w : Word), (s.port l).slot = some r → r.frame[r.clocked]? = some w →
      (s.port l).ldo = (List.range 16).map (fun k => w.getLsbD (if r.terms.order = .msbFirst then 15 - k else k)))

/-- While the scan runs every complete frame is answered STARTING, whatever it holds. In DOWN every frame with a good
check but TERMS is answered NOT_OPEN, and nothing else changes; one with a wrong check is answered BAD_CHECK (R167; the
counters of that answer are log 17). -/
def Obligations.ClosedPortsTurnFramesAway : Prop :=
  ((∀ (i : Instr) (c : Call) (s : State), callOf i = some c → s.hears c.link c.frame = true →
    (s.port c.link).state = .starting → exec i s = .next (s.turnedAway c.link .starting)) ∧
  ∀ (l : Link) (code : Word) (f : Frame) (s : State), code ≠ 0 → knownCode code = false → s.hears l f = true →
    (s.port l).state = .starting → exec (.unknownCallFrame l code f) s = .next (s.turnedAway l .starting)) ∧
  ((∀ (i : Instr) (c : Call) (s : State), callOf i = some c → c.code ≠ 1 → s.hears c.link c.frame = true →
    (s.port c.link).state = .down →
    (frameCheckOk c.frame c.code = true → exec i s = .next (s.turnedAway c.link .notOpen)) ∧
    (frameCheckOk c.frame c.code = false → ∃ t, exec i s = .next t ∧ (t.port c.link).state = .down ∧
      ((t.port c.link).slot.map Reply.status) = some .badCheck ∧ ∀ m, m ≠ c.link → t.port m = s.port m)) ∧
  ∀ (l : Link) (code : Word) (f : Frame) (s : State), code ≠ 0 → knownCode code = false → s.hears l f = true →
    (s.port l).state = .down → frameCheckOk f code = true →
    exec (.unknownCallFrame l code f) s = .next (s.turnedAway l .notOpen))

/-- The link checks of every call of the catalogue, in their order: each refusal is staged with word count 0, counts
as refused, and changes nothing else; a frame whose code names no call is refused after the check (R170 steps 1 to 6,
R184). That OVERRIDE and SET ROUTE have one length, with CLEAR or without, is the model's choice (log 45). -/
def Obligations.LinkChecksRefuseInOrder : Prop :=
  (∀ (i : Instr) (c : Call) (s : State), callOf i = some c → s.hears c.link c.frame = true →
    ((s.port c.link).state = .idle ∨ (s.port c.link).state = .replyPending) →
    let badCheck := (s.port c.link).terms.check = .on ∧ frameCheckOk c.frame c.code = false
    let locked := c.link = .sl ∧ s.showLock = true ∧ c.locked = true
    let busy := c.job = true ∧ (s.port c.link).job.isSome = true
    (badCheck ∨ c.lengthOk = false ∨ c.permitted = false ∨ locked ∨ busy) →
    exec i s = .next (
      if badCheck then s.rejected c.link .badCheck (fun k => { k with badChecks := satSucc k.badChecks })
      else if c.lengthOk = false then
        s.rejected c.link .badLength (fun k => { k with badLengths := satSucc k.badLengths })
      else if c.permitted = false then s.rejected c.link .notPermitted (fun k => k)
      else if locked then s.rejected c.link .locked (fun k => k)
      else s.rejected c.link .jobBusy (fun k => k))) ∧
  (∀ (l : Link) (code : Word) (f : Frame) (s : State), code ≠ 0 → knownCode code = false →
    s.takes l f code = true →
    exec (.unknownCallFrame l code f) s = .next (s.rejected l .unknownCall (fun k => k)))

/-! ### Calls of every link (R168, R173, R174, R176, R179, R181, R182) -/

/-- TERMS with two values takes effect and is answered in its new terms, in DOWN as in an open state; with any other
operand it is refused with BAD_VALUE and the port's terms stay (R168). -/
def Obligations.TermsTakeEffectAtOnce : Prop :=
  ∀ (l : Link) (f : Frame) (o c : Word) (s : State), s.hears l f = true → (s.port l).state ≠ .starting →
    ((s.port l).terms.check = .on → frameCheckOk f 1 = true) → f.operands = [o, c] →
    (∀ (order : BitOrder) (check : CheckSetting), o = order.word → c = check.word →
      exec (.terms l f) s = .next (s.setPort l
        (let p := (s.port l).heard
         { p with
           terms := ⟨order, check⟩, state := .replyPending, ready := true
           slot := some { status := .ok, words := [], terms := ⟨order, check⟩, clocked := 0 }
           counters := { p.counters with taken := satSucc p.counters.taken } }))) ∧
    ((1 < o.toNat ∨ 1 < c.toNat) →
      exec (.terms l f) s = .next (
        if (s.port l).state = .down then s.turnedAway l .badValue else s.declined l .badValue []))

/-- LINK RESET answers in the terms in force, takes its port DOWN with everything cleared, and ends the link's job:
before its commit point it is ABANDONED and all it held is released (R9, R16, R61, R79), past it (or detached already)
it goes on detached (R179). That POOL_LOW's condition is evaluated at this release is the model's choice (log 24), and so
is what a provisional write keeps whose swap has begun (log 26). -/
def Obligations.LinkResetTakesThePortDown : Prop :=
  ∀ (l : Link) (f : Frame) (s : State), s.takes l f 2 = true → f.operands = [] →
    let down : Port := { s.port l with
      state := .down, terms := ⟨.msbFirst, .on⟩, receiver := .betweenFrames, wordBits := [], discardedMark := false
      counters := .zero, selection := none, flags := 0, mask := 0xFFFF, ready := true
      slot := some { status := .ok, words := [], terms := (s.port l).terms, clocked := 0 } }
    ((s.port l).job = none → exec (.linkReset l f) s = .next (s.setPort l { down with record := .none })) ∧
    (∀ j : Job, (s.port l).job = some j → (j.detached = true ∨ j.committed = true) →
      exec (.linkReset l f) s =
        .next (s.setPort l { down with job := some { j with detached := true }, record := .none })) ∧
    (∀ j : Job, (s.port l).job = some j → j.detached = false → j.committed = false →
      ∃ t, exec (.linkReset l f) s = .next t ∧
        t.port l = { down with
          job := none
          record := { state := .abandoned, result := .none, committed := false, fields := j.work.fields } } ∧
        (∀ m, m ≠ l → t.port m = (s.port m).marked (t.port m)) ∧ s.JobReleased t l j.work ∧ t = s.withdrawnFrom t)

/-- SENSE LINK's snapshot, after which REPLY_DISCARDED is clear (that its own taking shows in it is log 18); SENSE
WALL's snapshot, item by item (R181, R182). -/
def Obligations.SenseCallsReport : Prop :=
  (∀ (l : Link) (f : Frame) (s : State), s.takes l f 3 = true → f.operands = [] →
    let p := (s.port l).heard
    let k := { p.counters with taken := satSucc p.counters.taken }
    exec (.senseLink l f) s = .next (
      let t := s.answered l .ok
        ([linkWord l, p.terms.order.word, p.terms.check.word, markWord p.discardedMark, wordOfNat k.taken,
          wordOfNat k.refused, wordOfNat k.badChecks, wordOfNat k.badLengths, wordOfNat k.partialFrames,
          wordOfNat k.discarded, markWord p.job.isSome,
          markWord (match p.job with | none => false | some j => j.detached)] ++
          opt32Words p.selection ++
          [if s.showLock then 1 else 0, if p.flags &&& ~~~p.mask = 0 then 0 else 1])
      t.setPort l { t.port l with discardedMark := false })) ∧
  (∀ (l : Link) (f : Frame) (s : State), s.takes l f 9 = true → f.operands = [] →
    exec (.senseWall l f) s = .next (s.answered l .ok
      (words48 s.epoch ++
        [s.frame.state.word, wordOfNat s.changes.length, wordOfNat s.dirty.length, if s.hold then 1 else 0,
         wordOfNat s.history.length, wordOfNat s.lastSkipped, wordOfNat s.freeCount, wordOfNat s.usedCount,
         wordOfNat s.retiredCount, wordOfNat s.claimedCount, wordOfNat s.pool.index.length] ++
        words32 s.pool.counter ++
        [if s.showLock then 1 else 0, wordOfNat s.settings.columns, wordOfNat s.settings.rows])))

/-- READ NOTICES changes nothing, CLEAR NOTICES clears the named flags, SET NOTICE MASK sets the mask; each answers
with what it leaves (R176). -/
def Obligations.NoticeCallsAnswer : Prop :=
  ∀ (l : Link) (f : Frame) (s : State),
    (s.takes l f 4 = true → f.operands = [] →
      exec (.readNotices l f) s = .next (s.answered l .ok [(s.port l).flags, (s.port l).mask])) ∧
    (∀ w : Word, s.takes l f 5 = true → f.operands = [w] →
      exec (.clearNotices l f) s = .next (
        let t := s.answered l .ok [(s.port l).flags &&& ~~~w]
        t.setPort l { t.port l with flags := (s.port l).flags &&& ~~~w })) ∧
    (∀ w : Word, s.takes l f 6 = true → f.operands = [w] →
      exec (.setNoticeMask l f) s = .next (
        let t := s.answered l .ok [w, (s.port l).flags]
        t.setPort l { t.port l with mask := w }))

/-- SENSE JOB reports the record and the detached job; ABANDON JOB abandons before the commit point, which releases all
the job held (R9, R16, R61, R79), answers TOO_LATE past it, and clears the record when nothing runs (R173, R174). That
NO_JOB and TOO_LATE count as calls taken is the model's choice (log 19), and so is what a provisional write keeps whose
swap has begun (log 26). -/
def Obligations.JobCallsAnswer : Prop :=
  ∀ (l : Link) (f : Frame) (s : State), f.operands = [] →
    (s.takes l f 7 = true →
      exec (.senseJob l f) s = .next (s.answered l .ok (
        (s.port l).jobRecord.words ++ (match (s.port l).job with
          | none => [0, 0]
          | some j => if j.detached then [1, j.work.fields.kindWord] else [0, 0])))) ∧
    (s.takes l f 8 = true → (s.port l).job = none →
      exec (.abandonJob l f) s = .next (
        let t := s.answered l .noJob []
        t.setPort l { t.port l with record := .none })) ∧
    (∀ j : Job, s.takes l f 8 = true → (s.port l).job = some j → (j.detached = true ∨ j.committed = true) →
      exec (.abandonJob l f) s = .next (s.answered l .tooLate [])) ∧
    (∀ j : Job, s.takes l f 8 = true → (s.port l).job = some j → j.detached = false → j.committed = false →
      ∃ t, exec (.abandonJob l f) s = .next t ∧
        t.port l = { (s.answered l .ok [j.work.fields.kindWord]).port l with
          job := none, flags := (t.port l).flags
          record := { state := .abandoned, result := .none, committed := false, fields := j.work.fields } } ∧
        (∀ m, m ≠ l → t.port m = (s.port m).marked (t.port m)) ∧ s.JobReleased t l j.work ∧ t = s.withdrawnFrom t)

/-! ### The serving calls (09) -/

/-- FETCH DIGEST: its cases in their order; a part served sets its mark and nothing else (R150 to R155). That STALE and
BAD_PART count neither as calls taken nor as refused is the model's choice (log 19). -/
def Obligations.FetchDigestServesParts : Prop :=
  ∀ (f : Frame) (a b c p : Word) (s : State), s.takes .pl f 0xA = true → f.operands = [a, b, c, p] →
    exec (.fetchDigest .pl f) s = .next (
      if 7 < p.toNat then s.declined .pl .badValue []
      else if epochOf a b c ≠ s.epoch then s.declined .pl .stale (words48 s.epoch)
      else if s.digest.fetched.length ≤ p.toNat then
        s.declined .pl .badPart (words48 s.epoch ++ [wordOfNat s.digest.fetched.length])
      else
        let marks := s.digest.fetched.set p.toNat true
        let part := (s.digest.entries.drop (16 * p.toNat)).take 16
        let t := s.answered .pl .ok
          (words48 s.digest.epoch ++ words48 s.digest.previous ++
            [wordOfNat s.digest.changed,
             (if s.digest.globalChanged then 1 else 0) ||| (if s.digest.overflow then 2 else 0),
             wordOfNat marks.length, p, setWord ((List.range marks.length).filter (fun q => marks.getD q false)),
             wordOfNat part.length] ++
            part.flatMap DigestEntry.words)
        { t with digest := { s.digest with fetched := marks } })

/-- FETCH SPAN is refused with BAD_VALUE outside the wall, else it serves the positions as they stand, with no mark set;
FETCH GLOBAL serves the epoch, both vectors and the remaining count; neither changes anything else (R156, R157, R159). -/
def Obligations.ServingReadsAnswer : Prop :=
  (∀ (f : Frame) (first count : Word) (s : State), s.takes .pl f 0xB = true → f.operands = [first, count] →
    let cells := s.settings.columns * s.settings.rows
    ((count.toNat = 0 ∨ 16 < count.toNat ∨ cells ≤ first.toNat ∨ cells < first.toNat + count.toNat) →
      exec (.fetchSpan .pl f) s = .next (s.declined .pl .badValue [])) ∧
    (1 ≤ count.toNat → count.toNat ≤ 16 → first.toNat + count.toNat ≤ cells → s.positions.length = cells →
      exec (.fetchSpan .pl f) s = .next (s.answered .pl .ok
        (words48 s.epoch ++ [wordOfNat s.settings.columns, wordOfNat s.settings.rows, first, count] ++
          (List.range count.toNat).flatMap (fun k =>
            (((s.positions[first.toNat + k]?).map (fun q =>
              (q.entry s.tiles (first.toNat + k)).words)).getD [])))))) ∧
  (∀ (f : Frame) (s : State), s.takes .pl f 0xC = true → f.operands = [] →
    exec (.fetchGlobal .pl f) s = .next (s.answered .pl .ok
      (words48 s.epoch ++
        [wordOfInt s.global.applied.level, wordOfInt s.global.applied.r, wordOfInt s.global.applied.g,
         wordOfInt s.global.applied.b, wordOfInt s.global.target.level, wordOfInt s.global.target.r,
         wordOfInt s.global.target.g, wordOfInt s.global.target.b, wordOfNat s.global.remaining])))

/-! ### The desk's calls (05, 06, 07, 08, 10) -/

/-- SET GLOBAL and OVERRIDE: BAD_VALUE, then QUEUE_FULL, else an entry with the operands as given joins the queue; the
reply has the depth, and for OVERRIDE the override as it stands (R112, R115, R122, R183). That CLEAR is presence word 0
before the level's word is the model's choice (log 45), and so is that a value word after presence 0 is not looked at
(log 46). -/
def Obligations.IntentCallsQueueAnEntry : Prop :=
  (∀ (f : Frame) (ramp pm m pw w pr r pg g pb b : Word) (s : State), s.takes .dl f 0xD = true →
    f.operands = [ramp, pm, m, pw, w, pr, r, pg, g, pb, b] →
    exec (.setGlobal .dl f) s = .next (
      let o : IntentOps :=
        { master := (given pm m).map BitVec.toNat, white := (given pw w).map BitVec.toNat
          trimR := (given pr r).map BitVec.toInt, trimG := (given pg g).map BitVec.toInt
          trimB := (given pb b).map BitVec.toInt }
      if noPresence pm ∨ noPresence pw ∨ noPresence pr ∨ noPresence pg ∨ noPresence pb ∨ 1023 < ramp.toNat ∨
          o.master.any (fun v => decide (1000 < v)) = true ∨ o.white.any (fun v => decide (15 < v)) = true ∨
          o.trimR.any (fun v => decide (v < -256 ∨ 255 < v)) = true ∨ o.trimG.any (fun v => decide (v < -256 ∨ 255 < v)) = true ∨
          o.trimB.any (fun v => decide (v < -256 ∨ 255 < v)) = true then s.declined .dl .badValue []
      else if 16 ≤ s.changes.length then s.declined .dl .queueFull []
      else
        { s.answered .dl .ok [wordOfNat (s.changes.length + 1)] with
          changes := s.changes ++ [.global ramp.toNat o] })) ∧
  (∀ (f : Frame) (i p v ramp : Word) (s : State), s.takes .dl f 0xE = true → f.operands = [i, p, v, ramp] →
    exec (.override .dl f) s = .next (
      let level := (given p v).map BitVec.toNat
      if noPresence p ∨ s.settings.columns * s.settings.rows ≤ i.toNat ∨ level.any (fun n => decide (1000 < n)) = true ∨
          1023 < ramp.toNat then s.declined .dl .badValue []
      else if 16 ≤ s.changes.length then s.declined .dl .queueFull []
      else
        { s.answered .dl .ok
            (wordOfNat (s.changes.length + 1) :: optWords ((s.positions[i.toNat]?).bind Position.override)) with
          changes := s.changes ++ [.override i.toNat level ramp.toNat] }))

/-- TAKE: BAD_VALUE, then QUEUE_FULL, else a TAKE entry joins, answered with the depth and the pending count. REVERT:
BAD_VALUE, then HISTORY_EMPTY when no point could exist, then QUEUE_FULL, else a REVERT entry joins (R122, R123,
R143). -/
def Obligations.TakeAndRevertQueueAnEntry : Prop :=
  (∀ (f : Frame) (ramp : Word) (s : State), s.takes .dl f 0xF = true → f.operands = [ramp] →
    exec (.take .dl f) s = .next (
      if 1023 < ramp.toNat then s.declined .dl .badValue []
      else if 16 ≤ s.changes.length then s.declined .dl .queueFull []
      else
        { s.answered .dl .ok
            [wordOfNat (s.changes.length + 1),
             wordOfNat (s.positions.filter (fun p => (s.pendingReason p).isSome)).length] with
          changes := s.changes ++ [.take ramp.toNat] })) ∧
  (∀ (f : Frame) (ramp : Word) (s : State), s.takes .dl f 0x11 = true → f.operands = [ramp] →
    exec (.revert .dl f) s = .next (
      if 1023 < ramp.toNat then s.declined .dl .badValue []
      else if s.history = [] ∧ s.changes.all (fun c => !c.isTake) = true then s.declined .dl .historyEmpty []
      else if 16 ≤ s.changes.length then s.declined .dl .queueFull []
      else
        { s.answered .dl .ok [wordOfNat (s.changes.length + 1), wordOfNat s.history.length] with
          changes := s.changes ++ [.revert ramp.toNat] }))

/-- SHOW LOCK, SHOW UNLOCK, HOLD DRIFT and RELEASE DRIFT set their switch and answer the state found (R97, R178); SET
FRAME EDGE sets the working polarity and nothing else (R118). -/
def Obligations.SwitchCallsAnswer : Prop :=
  ∀ (f : Frame) (s : State),
    (f.operands = [] →
      (s.takes .dl f 0x1A = true → exec (.showLock .dl f) s =
        .next { s.answered .dl .ok [if s.showLock then 1 else 0] with showLock := true }) ∧
      (s.takes .dl f 0x1B = true → exec (.showUnlock .dl f) s =
        .next { s.answered .dl .ok [if s.showLock then 1 else 0] with showLock := false }) ∧
      (s.takes .dl f 0x12 = true → exec (.holdDrift .dl f) s =
        .next { s.answered .dl .ok [if s.hold then 1 else 0] with hold := true }) ∧
      (s.takes .dl f 0x13 = true → exec (.releaseDrift .dl f) s =
        .next { s.answered .dl .ok [if s.hold then 1 else 0] with hold := false })) ∧
    (∀ w : Word, f.operands = [w] → s.takes .dl f 0x10 = true →
      (1 < w.toNat → exec (.setFrameEdge .dl f) s = .next (s.declined .dl .badValue [])) ∧
      (∀ p : Polarity, w = p.word → exec (.setFrameEdge .dl f) s =
        .next { s.answered .dl .ok [w] with settings := { s.settings with polarity := p } }))

/-- SET DRIFT PARAMETERS: any given operand out of range changes nothing; else each given operand replaces its copy (R98,
R183). That a value word after presence 0 is not looked at is the model's choice (log 46). -/
def Obligations.SetDriftParametersTakesGivenOperands : Prop :=
  ∀ (f : Frame) (pk k pd d pb b pr r : Word) (s : State), s.takes .dl f 0x14 = true →
    f.operands = [pk, k, pd, d, pb, b, pr, r] →
    exec (.setDriftParameters .dl f) s = .next (
      let bad (p v : Word) (lo hi : Nat) : Bool := decide (noPresence p ∨ (p = 1 ∧ (v.toNat < lo ∨ hi < v.toNat)))
      let new (p v : Word) (old : Nat) := if p = 1 then v.toNat else old
      if bad pk k 0 4 || bad pd d 1 100 || bad pb b 1 64 || bad pr r 0 1023 then s.declined .dl .badValue []
      else
        let g := { s.settings with
          depth := new pk k s.settings.depth, deadband := new pd d s.settings.deadband
          budget := new pb b s.settings.budget, driftRamp := new pr r s.settings.driftRamp }
        { s.answered .dl .ok
            [wordOfNat g.depth, wordOfNat g.deadband, wordOfNat g.budget, wordOfNat g.driftRamp] with
          settings := g })

/-- SET CADENCE: the four working copies, the stage cleared when source or prescaler changes, the state and the counter
kept (R87). SENSE CADENCE's snapshot, item by item (R88). -/
def Obligations.CadenceSettingsCallsAnswer : Prop :=
  (∀ (f : Frame) (src p r y : Word) (s : State), s.takes .dl f 0x15 = true → f.operands = [src, p, r, y] →
    ((1 < src.toNat ∨ 1 < y.toNat ∨ (p ≠ 1 ∧ p ≠ 4 ∧ p ≠ 32 ∧ p ≠ 256) ∨ r = 0) →
      exec (.setCadence .dl f) s = .next (s.declined .dl .badValue [])) ∧
    (∀ (source : CadenceSource) (run : Bool), src = source.word → y = yesNoWord run →
      (p = 1 ∨ p = 4 ∨ p = 32 ∨ p = 256) → r ≠ 0 →
      exec (.setCadence .dl f) s = .next
        { s.answered .dl .ok [src, p, r, y, s.timer.state.word, wordOfNat s.timer.counter] with
          settings := { s.settings with
            source := source, prescaler := p.toNat, reload := r.toNat, runAtStart := run }
          timer := { s.timer with
            stage := if source = s.settings.source ∧ p.toNat = s.settings.prescaler then s.timer.stage else 0 } })) ∧
  (∀ (f : Frame) (s : State), s.takes .dl f 0x19 = true → f.operands = [] →
    exec (.senseCadence .dl f) s = .next (s.answered .dl .ok
      [s.timer.state.word, if s.timer.state = .stopped then 0 else 1, wordOfNat s.timer.counter,
       wordOfNat s.timer.stage, s.settings.source.word, wordOfNat s.settings.prescaler,
       wordOfNat s.settings.reload, if s.settings.runAtStart then 0 else 1, wordOfNat s.cyclesStarted,
       setWord s.awaiting, wordOfNat s.cyclesSkipped, wordOfNat s.overruns, wordOfNat s.resultsDiscarded,
       if s.hold then 1 else 0, wordOfNat s.settings.depth, wordOfNat s.settings.deadband,
       wordOfNat s.settings.budget, wordOfNat s.settings.driftRamp]))

/-- CADENCE RUN starts or resumes the timer with the counter and stage it held; CADENCE RESTART loads the reload and
clears the stage, leaves the state, and starts no cycle (R85, R86). -/
def Obligations.CadenceRunResumesAndRestartReloads : Prop :=
  ∀ (f : Frame) (s : State), f.operands = [] →
    (s.takes .dl f 0x16 = true →
      exec (.cadenceRun .dl f) s = .next
        { s.answered .dl .ok [TimerState.running.word, wordOfNat s.timer.counter] with
          timer := { state := .running, counter := s.timer.counter, stage := s.timer.stage } }) ∧
    (s.takes .dl f 0x18 = true →
      exec (.cadenceRestart .dl f) s = .next
        { s.answered .dl .ok [s.timer.state.word, wordOfNat s.settings.reload] with
          timer := { state := s.timer.state, counter := s.settings.reload, stage := 0 } })

/-- CADENCE STOP: RUNNING becomes STOPPING, any other state is left and answered as found (R84). A pulse of the 1 kHz
base counts up the prescaler stage; at the prescaler it is a count pulse, which decrements the counter or reloads it
with a cycle started, and stops a STOPPING timer; CADENCE_COUNT_PULSE and CADENCE_EXPIRY are that pulse by name, when
it is due (R83, R84; log 5). A STOPPED timer ignores its pulses. A cycle takes the branches in turn: one still
awaited is an overrun, one with a placed tile gets its SWEEP queued or skipped, and CYCLE_OVERRUN is raised once (R89). A
frame tick is a pulse of the FRAME source, before or after the tick's commit (R83, R119; log 6). -/
def Obligations.CadencePulsesCount : Prop :=
  (∀ (f : Frame) (s : State), s.takes .dl f 0x17 = true → f.operands = [] →
    exec (.cadenceStop .dl f) s = .next (
      let found : TimerState := if s.timer.state = .running then .stopping else s.timer.state
      { s.answered .dl .ok [found.word] with timer := { s.timer with state := found } })) ∧
  (∀ s : State, s.power = .on → s.settings.source = .base →
    (s.timer.state = .stopped → exec .sourcePulse s = .next s) ∧
    (s.timer.state ≠ .stopped →
      let after : TimerState := if s.timer.state = .stopping then .stopped else .running
      (s.timer.stage + 1 < s.settings.prescaler →
        exec .sourcePulse s = .next { s with timer := { s.timer with stage := s.timer.stage + 1 } }) ∧
      (s.settings.prescaler ≤ s.timer.stage + 1 → 2 ≤ s.timer.counter → ∀ c, c = .sourcePulse ∨ c = .cadenceCountPulse →
        exec c s = .next { s with timer := { state := after, counter := s.timer.counter - 1, stage := 0 } }) ∧
      (s.settings.prescaler ≤ s.timer.stage + 1 → s.timer.counter = 1 →
        ∀ c, c = .sourcePulse ∨ c = .cadenceCountPulse ∨ c = .cadenceExpiry →
        ∃ t, exec c s = .next t ∧
          t.timer = { state := after, counter := s.settings.reload, stage := 0 } ∧
          t.cyclesStarted = (s.cyclesStarted + 1) % 65536 ∧
          t = { s.chainFrom t with
            timer := t.timer, cyclesStarted := t.cyclesStarted, cyclesSkipped := t.cyclesSkipped
            overruns := t.overruns } ∧
          (let due := [0, 1, 2, 3].filter (fun b => decide (b ∉ s.awaiting ∧
             ∃ p ∈ s.positions, ∃ u ∈ p.hung.occupant, u.branch = b))
           let late := ([0, 1, 2, 3].filter (fun b => decide (b ∈ s.awaiting))).length
           let offered := due.take (8 - s.orders.length)
           let skipped := due.length - offered.length
           (((∃ w, s.wire = some w) ∨ (s.orders = [] ∧ s.owed = [] ∧ s.spaceWaiters = [])) →
             t.overruns = (if late = 0 then s.overruns else min 65535 (s.overruns + late)) ∧
             t.dl.hasFlag .cycleOverrun = (s.dl.hasFlag .cycleOverrun || decide (0 < late))) ∧
           ((∃ w, s.wire = some w) →
             t.orders = s.orders ++ offered.map (fun b => ⟨.sweep, b, .drift⟩) ∧
             (∀ b, b ∈ t.awaiting ↔ b ∈ s.awaiting ∨ b ∈ offered) ∧
             t.cyclesSkipped = (if skipped = 0 then s.cyclesSkipped else min 65535 (s.cyclesSkipped + skipped)) ∧
             t.wire = s.wire ∧ t.branches = s.branches) ∧
           (∀ (b : Nat) (rest : List Nat) (x : Branch), s.wire = none → s.orders = [] → s.owed = [] →
             s.spaceWaiters = [] → due = b :: rest → s.branches[b]? = some x → x.state = .idle →
             t.wire = some ⟨⟨.sweep, b, .drift⟩, false, false, false, 0, false, false, [], []⟩ ∧
             t.branches = s.branches.set b
               { x with state := .starting, serial := (x.serial + 1) % 16, orig := some .drift } ∧
             t.orders = rest.map (fun c => ⟨.sweep, c, .drift⟩) ∧
             (∀ c, c ∈ t.awaiting ↔ c ∈ s.awaiting ∨ c ∈ due) ∧ t.cyclesSkipped = s.cyclesSkipped))))) ∧
  ∀ (s : State) (first : Bool), s.power = .on → ∃ t, exec (.frameTick first) s = .next t ∧
    ((s.settings.source = .base ∨ s.timer.state = .stopped) →
      t.timer = s.timer ∧ t.cyclesStarted = s.cyclesStarted) ∧
    (s.settings.source = .frame → s.timer.state ≠ .stopped →
      let after : TimerState := if s.timer.state = .stopping then .stopped else .running
      (s.timer.stage + 1 < s.settings.prescaler →
        t.timer = { s.timer with stage := s.timer.stage + 1 } ∧ t.cyclesStarted = s.cyclesStarted) ∧
      (s.settings.prescaler ≤ s.timer.stage + 1 → 2 ≤ s.timer.counter →
        t.timer = { state := after, counter := s.timer.counter - 1, stage := 0 } ∧
        t.cyclesStarted = s.cyclesStarted) ∧
      (s.settings.prescaler ≤ s.timer.stage + 1 → s.timer.counter = 1 →
        t.timer = { state := after, counter := s.settings.reload, stage := 0 } ∧
        t.cyclesStarted = (s.cyclesStarted + 1) % 65536))

/-- WALL RESET: the live plane, the queue, the History, the epoch and the digest are reset in one event, the global
vectors stand at the target of the power-up intent under White Point 0, both hangs end, each releasing what it held and
no more, EPOCH_READY is raised on PL, and everything else is kept, the pool, the orders and the requests of others among
it (R61, R65, R79, R80, R111, R134, R138, R180). That POOL_LOW's condition is evaluated at such a release is the model's
choice (log 24), and so is what a provisional write keeps whose swap has begun (log 26). -/
def Obligations.WallResetResetsThePlane : Prop :=
  ∀ (f : Frame) (s : State), s.takes .dl f 0x1C = true → f.operands = [] →
    ∃ t, exec (.wallReset .dl f) s = .next t ∧
      t.changes = [] ∧ t.positions = List.replicate (s.settings.columns * s.settings.rows) .atRest ∧
      t.tiles = [] ∧ t.dirty = [] ∧ t.cursor = 0 ∧ t.history = [] ∧ t.lastSkipped = 0 ∧
      t.global.intent = ⟨1000, 0, 0, 0, 0⟩ ∧ t.global.applied = t.global.target ∧ t.global.remaining = 0 ∧
      (let w := s.settings.white.getD 0 .unity
       let gain (x : Int) : Int := max 0 (min x 4095)
       t.global.target = ⟨1000, gain w.r, gain w.g, gain w.b⟩) ∧
      t.digest.previous = 0 ∧ t.digest.globalChanged = false ∧ t.digest.overflow = false ∧
      t.epoch = 0 ∧ t.digest.epoch = 0 ∧ t.digest.entries = [] ∧ t.digest.changed = 0 ∧
      t.digest.fetched = [true] ∧ t.pl.hasFlag .epochReady = true ∧
      t.pl.hasFlag .digestMissed = s.pl.hasFlag .digestMissed ∧
      (∀ l, l ≠ .pl → ∀ j h, (s.port l).job = some j → j.work = .hang h →
        (t.port l).job = none ∧
        (j.detached = false → (t.port l).record =
          { state := .abandoned, result := .none, committed := j.committed, fields := j.work.fields } ∧
          (t.port l).hasFlag .jobDone = true) ∧
        (j.detached = true → (t.port l).record = (s.port l).record)) ∧
      (∀ l, (s.hangOf l) = none → (t.port l).job = (s.port l).job ∧
        (l ≠ .dl → (t.port l).record = (s.port l).record) ∧
        (t.port l).hasFlag .jobDone = (s.port l).hasFlag .jobDone) ∧
      (∀ (l : Link) (n : Notice), n ≠ .jobDone → n ≠ .poolLow → (n ≠ .epochReady ∨ l ≠ .pl) →
        (t.port l).hasFlag n = (s.port l).hasFlag n) ∧
      (∃ u v : State, s.HangReleased u .dl (s.hangOf .dl) ∧ u.HangReleased v .sl (s.hangOf .sl) ∧
        u.settings = s.settings ∧ u.branches = s.branches ∧ t.pool = v.pool ∧ t.nvPort = v.nvPort ∧
        t.orders = v.orders ∧ t.owed = v.owed ∧ t.spaceWaiters = v.spaceWaiters ∧ t.idleWaits = v.idleWaits ∧
        t.wire = v.wire ∧ t.postWaiters = []) ∧
      (s.hangOf .dl = none → s.hangOf .sl = none → t.pool = s.pool ∧ t.nvPort = s.nvPort ∧ t.orders = s.orders ∧
        t.owed = s.owed ∧ t.spaceWaiters = s.spaceWaiters ∧ t.idleWaits = s.idleWaits ∧ t.wire = s.wire) ∧
      (s.orders.filter (fun o => decide (o.orig = .drift ∨ o.orig = .sweepNow))).Sublist t.orders ∧
      t.dl = ((s.answered .dl .ok
        [wordOfNat ([Link.dl, Link.sl].filter (fun l => (s.hangOf l).isSome)).length]).dl).ended t.dl ∧
      t.sl = s.sl.ended t.sl ∧ t.pl = s.pl.marked t.pl ∧
      t = { s.withdrawnFrom t with
        changes := [], positions := t.positions, tiles := [], dirty := [], cursor := 0, history := []
        lastSkipped := 0, global := t.global, epoch := 0, digest := t.digest }

/-! ### The Record Store's calls (01) -/

/-- SELECT TILE stores the tag, READ RECORD and LIST RECORDS read the volatile image, and none changes a record. An entry
of LIST RECORDS is tag, revision, status, group presence, shown as none for a DAMAGED record, and the locked mark (R25,
R26, R27; the layouts are log 15 and log 16). -/
def Obligations.RecordReadsAnswer : Prop :=
  ∀ (f : Frame) (s : State),
    (∀ hi lo : Word, s.takes .sl f 0x1D = true → f.operands = [hi, lo] →
      exec (.selectTile .sl f) s = .next (
        let tag := hi.toNat * 65536 + lo.toNat
        let t := s.answered .sl .ok [if ∃ e ∈ s.pool.index, e.tag = tag then 1 else 0]
        t.setPort .sl { t.port .sl with selection := if tag = 0 then none else some tag })) ∧
    (s.takes .sl f 0x1E = true → f.operands = [] →
      ((s.port .sl).selection = none →
        exec (.readRecord .sl f) s = .next (s.declined .sl .noSelection [])) ∧
      (∀ tag, (s.port .sl).selection = some tag → s.findEntry tag = none →
        exec (.readRecord .sl f) s = .next (s.declined .sl .noRecord [])) ∧
      (∀ tag e, (s.port .sl).selection = some tag → s.findEntry tag = some e →
        exec (.readRecord .sl f) s = .next (s.answered .sl .ok (
          let c := s.content e
          let locked : Word := if s.isLocked tag then 1 else 0
          if e.status = .damaged then words32 tag ++ words32 e.revision ++ [2, locked]
          else
            words32 tag ++ [wordOfNat c.batch, wordOfInt c.base.r, wordOfInt c.base.g, wordOfInt c.base.b,
              (if c.survey.isSome then 1 else 0) ||| (if c.drift.isSome then 2 else 0) |||
                (if c.trim.isSome then 4 else 0)] ++
              words32 e.revision ++ [if e.status = .ok then 0 else 1, locked] ++
              (c.survey.map Matrix.words).getD [] ++ (c.drift.map DriftCoef.words).getD [] ++
              (c.trim.map Trims.words).getD [])))) ∧
    (∀ hi lo : Word, s.takes .sl f 0x1F = true → f.operands = [hi, lo] →
      exec (.listRecords .sl f) s = .next (
        let found := s.pool.index.filter (fun e => decide (hi.toNat * 65536 + lo.toNat ≤ e.tag))
        let groups (c : Content) : Word := (if c.survey.isSome then 1 else 0) |||
          (if c.drift.isSome then 2 else 0) ||| (if c.trim.isSome then 4 else 0)
        let status (e : IndexEntry) : Word := match e.status with
          | .ok => 0
          | .provisional => 1
          | .damaged => 2
        let entry (e : IndexEntry) : List Word :=
          words32 e.tag ++ words32 e.revision ++
            [status e, if e.status = .damaged then 0 else groups (s.content e), if s.isLocked e.tag then 1 else 0]
        s.answered .sl .ok
          ([wordOfNat s.pool.index.length, wordOfNat (min found.length 32)] ++
            (found.take 32).flatMap entry ++ [if 32 < found.length then 1 else 0])))

/-- SET WATERMARK: BAD_VALUE above 255; else the working copy, and POOL_LOW on DL and SL exactly when the condition
goes from false to true (R11). -/
def Obligations.SetWatermarkEvaluatesThePool : Prop :=
  ∀ (f : Frame) (w : Word) (s : State), s.takes .sl f 0x20 = true → f.operands = [w] →
    (255 < w.toNat → exec (.setWatermark .sl f) s = .next (s.declined .sl .badValue [])) ∧
    (w.toNat ≤ 255 → ∃ t, exec (.setWatermark .sl f) s = .next t ∧
      t.settings = { s.settings with watermark := w.toNat } ∧
      t.pool = { s.pool with low := decide (s.pool.free.length < w.toNat) } ∧
      (∀ l, l ≠ .pl → (t.port l).hasFlag .poolLow =
        ((s.port l).hasFlag .poolLow || (decide (s.pool.free.length < w.toNat) && !s.pool.low))) ∧
      t = { s with
        dl := { s.dl with flags := t.dl.flags }, sl := { (s.answered .sl .ok []).sl with flags := t.sl.flags }
        settings := t.settings, pool := t.pool } ∧
      ∀ (l : Link) (n : Notice), n ≠ .poolLow → (t.port l).hasFlag n = (s.port l).hasFlag n)

/-- WRITE RECORD's own checks in their order; accepted, the job runs with the record's groups fixed, the lowest free
cells are claimed in chain order, a slot is reserved for a new tag, and the first cell write is queued. The new record
has each group of the set list, a SURVEY padded to nine terms, none of the remove list, and the others from an existing
record that is not DAMAGED (R2, R4, R12, R13). -/
def Obligations.WriteRecordClaimsLowestCells : Prop :=
  (∀ (o : WriteOps) (s : State),
    (let lies (lo hi v : Int) : Prop := lo ≤ v ∧ v ≤ hi
     o.valuesOk = true ↔ o.tag ≠ 0 ∧ (o.sets.map SetItem.kind).Nodup ∧ o.removes.Nodup ∧
      (∀ i ∈ o.sets, i.kind ∉ o.removes) ∧
      (∀ batch base, SetItem.head batch base ∈ o.sets → batch ≤ 15 ∧ lies 0 4095 base.r ∧ lies 0 4095 base.g ∧
        lies 0 4095 base.b) ∧
      (∀ n terms, SetItem.survey n terms ∈ o.sets → 1 ≤ n ∧ n ≤ 9 ∧ ∀ (k : Nat) (w : Word), terms[k]? = some w →
        (k < 3 → w.toNat ≤ 4095) ∧ (3 ≤ k → lies (-1024) 1023 w.toInt)) ∧
      (∀ d, SetItem.drift d ∈ o.sets → lies (-300) 300 d.kR ∧ lies (-300) 300 d.kG ∧ lies (-300) 300 d.kB ∧
        lies (-400) 1250 d.tref ∧ lies (-500) 500 d.aR ∧ lies (-500) 500 d.aG ∧ lies (-500) 500 d.aB) ∧
      (∀ t, SetItem.trim t ∈ o.sets → lies (-128) 127 t.tL ∧ lies (-128) 127 t.tR ∧ lies (-128) 127 t.tT ∧
        lies (-128) 127 t.tB)) ∧
    ((o.sets.map SetItem.kind).Nodup → (∀ i ∈ o.sets, i.kind ∉ o.removes) →
      let c := s.newContent o
      let old : Option Content := ((s.findEntry o.tag).filter (fun e => decide (e.status ≠ .damaged))).map s.content
      (∀ batch base, SetItem.head batch base ∈ o.sets → c.batch = batch ∧ c.base = base) ∧
      ((∀ i ∈ o.sets, i.kind ≠ .head) → ∀ x, old = some x → c.batch = x.batch ∧ c.base = x.base) ∧
      (∀ n terms, SetItem.survey n terms ∈ o.sets →
        let gain (k : Nat) : Int := ((terms[k]?).map (fun w => (w.toNat : Int))).getD 2048
        let cross (k : Nat) : Int := ((terms[k]?).map BitVec.toInt).getD 0
        c.survey = some ⟨gain 0, gain 1, gain 2, cross 3, cross 4, cross 5, cross 6, cross 7, cross 8⟩) ∧
      (∀ d, SetItem.drift d ∈ o.sets → c.drift = some d) ∧ (∀ t, SetItem.trim t ∈ o.sets → c.trim = some t) ∧
      ((∀ i ∈ o.sets, i.kind ≠ .survey) →
        c.survey = if .survey ∈ o.removes then none else old.bind Content.survey) ∧
      ((∀ i ∈ o.sets, i.kind ≠ .drift) → c.drift = if .drift ∈ o.removes then none else old.bind Content.drift) ∧
      ((∀ i ∈ o.sets, i.kind ≠ .trim) → c.trim = if .trim ∈ o.removes then none else old.bind Content.trim) ∧
      c.groups o.tag = .head o.tag c.batch c.base ⟨c.survey.isSome, c.drift.isSome, c.trim.isSome⟩ ::
        ((c.survey.map Group.survey).toList ++ (c.drift.map Group.drift).toList ++
          (c.trim.map Group.trim).toList))) ∧
  (∀ (o : WriteOps) (s : State),
    s.writeRefusal o =
      (let entry := s.findEntry o.tag
       let head := o.sets.any (fun i => decide (i.kind = .head))
       if s.isLocked o.tag then some .recordBusy
       else if head = false ∧ (entry = none ∨ entry.map IndexEntry.status = some .damaged) then some .noHead
       else if entry = none ∧ 512 ≤ s.pool.index.length + s.reservations then some .indexFull
       else if s.pool.free.length < ((s.newContent o).groups o.tag).length then some .poolFull
       else if o.valuesOk = false then some .badValue
       else none)) ∧
  (∀ (f : Frame) (o : WriteOps) (s : State), s.takes .sl f 0x21 = true → s.showLock = false →
    (s.port .sl).job = none →
    (parseWrite f.operands = .outside → exec (.writeRecord .sl f) s = .next (s.declined .sl .badValue [])) ∧
    (parseWrite f.operands = .ok o [] →
    let groups := (s.newContent o).groups o.tag
    (∀ st, s.writeRefusal o = some st →
      exec (.writeRecord .sl f) s = .next (s.declined .sl st [])) ∧
    (s.writeRefusal o = none → ∃ t w, exec (.writeRecord .sl f) s = .next t ∧
      (t.port .sl).job = some { detached := false, committed := false, work := .write w } ∧
      w.tag = o.tag ∧ w.groups = groups ∧ w.written = [] ∧ w.unwritten = s.pool.free.take groups.length ∧
      w.reserved = (s.findEntry o.tag).isNone ∧ w.provisional = false ∧
      t.pool.free = s.pool.free.drop groups.length ∧
      t.pool.low = decide (t.pool.free.length < s.settings.watermark) ∧
      (∀ (l : Link) (n : Notice), (t.port l).hasFlag n =
        ((s.port l).hasFlag n || (decide (l ≠ .pl ∧ n = .poolLow) && t.pool.low && !s.pool.low))) ∧
      t = { s with
        dl := { s.dl with flags := t.dl.flags }
        sl := { (s.answered .sl .ok []).sl with job := t.sl.job, flags := t.sl.flags }
        pool := { s.pool with free := t.pool.free, low := t.pool.low }
        nvPort := { s.nvPort with waiting := t.nvPort.waiting } } ∧
      ∃ c g, s.pool.free[0]? = some c ∧ groups[0]? = some g ∧
        t.nvPort.waiting = s.nvPort.waiting ++ [⟨.sl, .cellWrite c g⟩])))

/-- ERASE RECORD: RECORD_BUSY, NO_RECORD, TILE_PLACED, else the job runs and its index remove write is queued (R18).
-/
def Obligations.EraseRecordQueuesItsWrite : Prop :=
  ∀ (f : Frame) (hi lo : Word) (s : State), s.takes .sl f 0x22 = true → s.showLock = false →
    (s.port .sl).job = none → f.operands = [hi, lo] →
    exec (.eraseRecord .sl f) s = .next (
      let tag := hi.toNat * 65536 + lo.toNat
      if s.isLocked tag then s.declined .sl .recordBusy []
      else if (s.findEntry tag).isNone then s.declined .sl .noRecord []
      else if ∃ p ∈ s.positions, p.hung.tag = some tag then s.declined .sl .tilePlaced []
      else
        let t := s.answered .sl .ok []
        { t.setPort .sl { t.port .sl with
            job := some { detached := false, committed := false, work := .erase tag } } with
          nvPort := { s.nvPort with waiting := s.nvPort.waiting ++ [⟨.sl, .remove tag⟩] } })

/-- AUDIT POOL: it takes no operands, starts at the lowest tag it may read, and reads its head cell; with no record
left it is DONE at once; DAMAGED and locked records it passes over (R20). That the tag being read counts as the last
handled is the model's choice (log 37). -/
def Obligations.AuditPoolStartsAtTheLowestTag : Prop :=
  ∀ (f : Frame) (s : State), s.takes .sl f 0x23 = true → (s.port .sl).job = none → f.operands = [] →
    (s.pool.index = [] → ∃ t, exec (.auditPool .sl f) s = .next t ∧ (t.port .sl).job = none ∧
      (t.port .sl).record = ⟨.done, .none, false, .audit 0 0 0 0 (some s.pool.retired.length)⟩ ∧
      (t.port .sl).hasFlag .jobDone = true ∧
      t = { s with sl := ((s.answered .sl .ok []).sl).ended t.sl }) ∧
    (∀ e rest, s.pool.index = e :: rest → 0 < e.tag → e.status ≠ .damaged → s.isLocked e.tag = false →
      ∃ t, exec (.auditPool .sl f) s = .next t ∧
        (t.port .sl).job = some ⟨false, false, .audit
          { last := e.tag, checked := 0, damaged := 0, skipped := 0
            reading := some { tag := e.tag, cell := e.head, visited := [], expected := [], damaging := false } }⟩ ∧
        t.nvPort.waiting = s.nvPort.waiting ++ [⟨.sl, .checkRead e.head⟩] ∧
        t = { s with
          sl := { (s.answered .sl .ok []).sl with job := t.sl.job }
          nvPort := { s.nvPort with waiting := t.nvPort.waiting } }) ∧
    ∃ t, exec (.auditPool .sl f) s = .next t ∧
      s.AuditGoesOn t .sl ⟨false, false, .audit ⟨0, 0, 0, 0, none⟩⟩ ⟨0, 0, 0, 0, none⟩ ∧
      t = { s with
        sl := ((s.answered .sl .ok []).sl).ended t.sl, nvPort := { s.nvPort with waiting := t.nvPort.waiting } }

/-- SAVE SETTINGS: SETTINGS_BUSY while the other link saves; else the image is taken and cell 0's write queued (R22).
-/
def Obligations.SaveSettingsTakesItsImage : Prop :=
  ∀ (l m : Link) (f : Frame) (s : State), ((l = .dl ∧ m = .sl) ∨ (l = .sl ∧ m = .dl ∧ s.showLock = false)) →
    s.takes l f 0x2A = true → (s.port l).job = none → f.operands = [] →
    ((∃ j v, (s.port m).job = some j ∧ j.work = .save v) →
      exec (.saveSettings l f) s = .next (s.declined l .settingsBusy [])) ∧
    ((∀ j v, (s.port m).job = some j → j.work ≠ .save v) →
      exec (.saveSettings l f) s = .next (
        let t := s.answered l .ok []
        { t.setPort l { t.port l with job := some ⟨false, false, .save
            { image := s.settings, cell := 0, written := 0, cellRewrites := 0, rewrites := 0 }⟩ } with
          nvPort := { s.nvPort with waiting := s.nvPort.waiting ++ [⟨l, .settings 0 s.settings⟩] } }))

/-! ### The tables, routes and geometry (02, 06) -/

/-- SET BATCH DEFAULT replaces the entry, re-evaluates PENDING where a copy holds the batch code, and moves no target;
SET WHITE POINT replaces its entry and nothing else (R106, R113, R114). -/
def Obligations.TableCallsReplaceTheirEntry : Prop :=
  ∀ (f : Frame) (s : State), s.showLock = false →
    (∀ c gr gg gb kr kg kb tr ar ag ab : Word, s.takes .sl f 0x24 = true →
      f.operands = [c, gr, gg, gb, kr, kg, kb, tr, ar, ag, ab] →
      let d : BatchDefault :=
        { base := ⟨gr.toNat, gg.toNat, gb.toNat⟩
          coef := ⟨kr.toInt, kg.toInt, kb.toInt, tr.toInt, ar.toInt, ag.toInt, ab.toInt⟩ }
      if 15 < c.toNat ∨ d.base.ok = false ∨ d.coef.ok = false then
        exec (.setBatchDefault .sl f) s = .next (s.declined .sl .badValue [])
      else ∃ t, exec (.setBatchDefault .sl f) s = .next t ∧
        t.settings = { s.settings with batch := s.settings.batch.set c.toNat d } ∧ t.plane = s.plane ∧
        t.positions.length = s.positions.length ∧
        (∀ (i : Nat) (p : Position), s.positions[i]? = some p →
          t.positions[i]? = some (if (p.adopted.map Adopted.batch) = some c.toNat then
            { p with pending := (t.pendingReason p).isSome } else p)) ∧
        t = { s.answered .sl .ok [wordOfNat
            (t.positions.filter (fun p => decide (t.pendingReason p = some .batchChanged))).length] with
          settings := t.settings, positions := t.positions }) ∧
    (∀ i r g b : Word, s.takes .sl f 0x25 = true → f.operands = [i, r, g, b] →
      exec (.setWhitePoint .sl f) s = .next (
        if 15 < i.toNat ∨ 4095 < r.toNat ∨ 4095 < g.toNat ∨ 4095 < b.toNat then s.declined .sl .badValue []
        else
          { s.answered .sl .ok [if i.toNat = s.global.intent.white then 1 else 0] with
            settings := { s.settings with
              white := s.settings.white.set i.toNat ⟨r.toNat, g.toNat, b.toNat⟩ } }))

/-- SET ROUTE: CLEAR is refused only above branch 3; a route is checked for its values and then for conflicts with
the other present routes, and replaces the working copy without touching the live map. A chain index lies so many runs
from the start in the advance direction, and then along its run, back and forth under SERPENTINE (R30, R31, R183). That
CLEAR is presence word 0 before the route's seven words is the model's choice (log 45), and so is that those words are
then not looked at (log 46). -/
def Obligations.SetRouteReplacesTheRoute : Prop :=
  (∀ (r : Route) (columns rows : Nat),
    let dx (d : Direction) : Int := if d = .right then 1 else if d = .left then -1 else 0
    let dy (d : Direction) : Int := if d = .down then 1 else if d = .up then -1 else 0
    (∀ i : Nat,
      let q : Nat := i / r.runLength
      let k : Nat := i - q * r.runLength
      let along : Nat := if r.style = .return ∨ q % 2 = 0 then k else r.runLength - 1 - k
      let col : Int := r.startCol + q * dx r.advance + along * dx r.first
      let row : Int := r.startRow + q * dy r.advance + along * dy r.first
      r.position columns rows i =
        if 0 ≤ col ∧ col < columns ∧ 0 ≤ row ∧ row < rows then some (row.toNat * columns + col.toNat) else none) ∧
    r.positions columns rows = (List.range r.expected).filterMap (r.position columns rows) ∧
    (r.ok columns rows = true ↔ r.startCol < columns ∧ r.startRow < rows ∧ (dx r.first = 0 ↔ dx r.advance ≠ 0) ∧
      1 ≤ r.runLength ∧ r.runLength ≤ 32 ∧ r.expected ≤ 128 ∧
      ∀ i, i < r.expected → r.position columns rows i ≠ none)) ∧
  ∀ (f : Frame) (b p sc sr d a len st n : Word) (s : State), s.takes .sl f 0x26 = true → s.showLock = false →
    f.operands = [b, p, sc, sr, d, a, len, st, n] →
    (1 < p.toNat → exec (.setRoute .sl f) s = .next (s.declined .sl .badValue [])) ∧
    (p = 0 → exec (.setRoute .sl f) s = .next (
      if 3 < b.toNat then s.declined .sl .badValue []
      else { s.answered .sl .ok [0, 0] with
        settings := { s.settings with routes := s.settings.routes.set b.toNat none } })) ∧
    (p = 1 → (3 < d.toNat ∨ 3 < a.toNat ∨ 1 < st.toNat) →
      exec (.setRoute .sl f) s = .next (s.declined .sl .badValue [])) ∧
    (∀ first advance style, p = 1 → d = Direction.word first → a = Direction.word advance →
      st = (if style = TurnStyle.serpentine then 0 else 1) →
      let r : Route := ⟨sc.toNat, sr.toNat, first, advance, len.toNat, style, n.toNat⟩
      let mine := s.routePositions r
      exec (.setRoute .sl f) s = .next (
        if 3 < b.toNat ∨ r.ok s.settings.columns s.settings.rows = false then s.declined .sl .badValue []
        else
          let met := [0, 1, 2, 3].filter (fun c => decide (c ≠ b.toNat) &&
            (((s.settings.routes.getD c none).map (fun q => share mine (s.routePositions q))).getD false))
          if met ≠ [] then s.declined .sl .routeConflict [setWord met]
          else { s.answered .sl .ok (optWords mine.getLast?) with
            settings := { s.settings with routes := s.settings.routes.set b.toNat (some r) } }))

/-- SET GEOMETRY: WALL_LIVE before BAD_VALUE; on acceptance the grid is rebuilt at rest, routes outside it are
cleared, and the epoch, the digest and the queue are kept (R29, R137). -/
def Obligations.SetGeometryRebuildsTheGrid : Prop :=
  ∀ (f : Frame) (c r : Word) (s : State), s.takes .sl f 0x27 = true → s.showLock = false → f.operands = [c, r] →
    let live := (∃ p ∈ s.positions, p.hung ≠ .empty) ∨ s.hangOf .dl ≠ none ∨ s.hangOf .sl ≠ none ∨
      (∃ p ∈ s.positions, p.applied ≠ p.target) ∨ ∃ i v n, Change.override i v n ∈ s.changes
    (live → exec (.setGeometry .sl f) s = .next (s.declined .sl .wallLive [])) ∧
    (¬live → (c.toNat = 0 ∨ 32 < c.toNat ∨ r.toNat = 0 ∨ 16 < r.toNat) →
      exec (.setGeometry .sl f) s = .next (s.declined .sl .badValue [])) ∧
    (¬live → 1 ≤ c.toNat → c.toNat ≤ 32 → 1 ≤ r.toNat → r.toNat ≤ 16 →
      exec (.setGeometry .sl f) s = .next (
        let n := c.toNat * r.toNat
        let gone := [0, 1, 2, 3].filter (fun b =>
          ((s.settings.routes.getD b none).map (fun q => !q.inside c.toNat r.toNat)).getD false)
        { s.answered .sl .ok [wordOfNat n, setWord gone] with
          settings := { s.settings with
            columns := c.toNat, rows := r.toNat
            routes := s.settings.routes.map (fun q => q.filter (fun q => q.inside c.toNat r.toNat)) }
          positions := List.replicate n .atRest, dirty := [], cursor := 0, history := [] }))

/-- READ TILE STATUS: BAD_VALUE for tag 0, NOT_PLACED for a tag that occupies nothing, else the position and its
Tile Status entry; LIST PENDING: BAD_VALUE outside the wall, else the pending count, the TAKEs waiting and at most 32
entries, each of the position, its tag, state and cause, the adopted source and revision, the record condition now and
the pending reason (R41, R116; the layouts are log 15). -/
def Obligations.WallReadsAnswer : Prop :=
  ∀ (f : Frame) (s : State),
    (∀ hi lo : Word, s.takes .sl f 0x28 = true → f.operands = [hi, lo] →
      let tag := hi.toNat * 65536 + lo.toNat
      (tag = 0 → exec (.readTileStatus .sl f) s = .next (s.declined .sl .badValue [])) ∧
      (tag ≠ 0 → (∀ p ∈ s.positions, p.hung.tag ≠ some tag) →
        exec (.readTileStatus .sl f) s = .next (s.declined .sl .notPlaced [])) ∧
      (∀ (i : Nat) (p : Position) (t : TileAt) (st : TileStatus), tag ≠ 0 → s.positions[i]? = some p →
        p.hung.occupant = some t → t.tag = tag → (∀ (j : Nat) (q : Position), j < i → s.positions[j]? = some q →
          q.hung.tag ≠ some tag) → statusOf s.tiles tag = some st →
        exec (.readTileStatus .sl f) s = .next (s.answered .sl .ok
          (words32 tag ++
            [wordOfNat i, wordOfNat (i % s.settings.columns), wordOfNat (i / s.settings.columns),
             wordOfNat p.hung.state.place, t.orientation.word, wordOfNat t.branch, wordOfNat t.chainIndex] ++
            optWords (p.hung.cause.map Cause.place) ++ optWords p.override ++
            [if p.pending then 1 else 0, if st.miss = 3 then 1 else 0, if p.clamped then 1 else 0] ++
            optIntWords st.e ++ optIntWords st.ePosted ++ optWords st.h ++ optWords st.hPosted ++
            [wordOfNat st.miss, wordOfNat st.fresh])))) ∧
    (∀ (l : Link) (start : Word), l ≠ .pl → s.takes l f 0x2E = true → f.operands = [start] →
      (s.settings.columns * s.settings.rows ≤ start.toNat →
        exec (.listPending l f) s = .next (s.declined l .badValue [])) ∧
      (start.toNat < s.settings.columns * s.settings.rows →
        let cause (c : Option Cause) : List Word := match c with
          | none => [0, 0]
          | some .noRecord => [1, 0]
          | some .damaged => [1, 1]
          | some .noSpace => [1, 2]
        let condition (e : Option IndexEntry) : List Word := match e with
          | none => [2, 0, 0, 0, 0]
          | some e => match e.status with
            | .ok => [0, 1] ++ words32 e.revision ++ [0]
            | .provisional => [0, 1] ++ words32 e.revision ++ [1]
            | .damaged => [1, 0, 0, 0, 0]
        let reason (r : Reason) : Word := match r with
          | .newRevision => 0
          | .recordAvailable => 1
          | .recordAbsent => 2
          | .recordDamaged => 3
          | .batchChanged => 4
        let entry (i : Nat) (p : Position) (u : TileAt) (a : Adopted) (r : Reason) : List Word :=
          [wordOfNat i] ++ words32 u.tag ++ [if p.hung.cause = none then 1 else 2] ++ cause p.hung.cause ++
            [if a.source = .record then 0 else 1] ++ words32 a.revision ++ condition (s.findEntry u.tag) ++ [reason r]
        let found := (s.indexed.filter (fun e => decide (start.toNat ≤ e.1))).filterMap (fun e =>
          match e.2.hung.occupant, e.2.adopted, s.pendingReason e.2 with
          | some u, some a, some r => some (entry e.1 e.2 u a r)
          | _, _, _ => none)
        exec (.listPending l f) s = .next (s.answered l .ok
          ([wordOfNat (s.positions.filter (fun p => (s.pendingReason p).isSome)).length,
            wordOfNat (s.changes.filter Change.isTake).length, wordOfNat (min found.length 32)] ++
            (found.take 32).flatten ++ [if 32 < found.length then 1 else 0]))))

/-! ### Hanging (04) -/

/-- HANG: BAD_VALUE, then ROUTE_CONFLICT with every branch involved in a failure, else the job runs in CALLING over an
EMPTY entry for every position whose branch field names a masked branch. Its roll calls join the queue in ascending branch
number while places are free, and are counted in the reply; with more to queue it waits for space. A free transmitter
takes them at once: one for a FAULT branch is FAILED, one for a branch busy otherwise waits on it, the first for an IDLE
branch goes on the wire and that branch is CALLING, and the others stay queued; with every masked branch in FAULT the hang
comes to its PLACE at once, which decides no position (R48, R50, R60, R67 to R70, R75; that the conflict's branches are one
set word is log 33). -/
def Obligations.HangStartsItsRollCalls : Prop :=
  ∀ (l : Link) (f : Frame) (m r p : Word) (s : State), (l = .dl ∨ (l = .sl ∧ s.showLock = false)) →
    s.takes l f 0x29 = true → (s.port l).job = none → f.operands = [m, r, p] →
    let mask := [0, 1, 2, 3].filter (fun b => m.getLsbD b)
    ((m = 0 ∨ 15 < m.toNat ∨ 1023 < r.toNat ∨ 1 < p.toNat ∨ ∃ b ∈ mask, s.settings.routes.getD b none = none) →
      exec (.hang l f) s = .next (s.declined l .badValue [])) ∧
    (∀ rs : List (Nat × Route), m ≠ 0 → m.toNat ≤ 15 → r.toNat ≤ 1023 → p.toNat ≤ 1 → rs.map Prod.fst = mask →
      (∀ e ∈ rs, s.settings.routes.getD e.1 none = some e.2) →
      let covers (e : Nat × Route) (i : Nat) : Prop := i ∈ s.routePositions e.2
      let met (c : Nat) : Prop :=
        (∃ a ∈ rs, ∃ b ∈ rs, a.1 ≠ b.1 ∧ (∃ i, covers a i ∧ covers b i) ∧ (c = a.1 ∨ c = b.1)) ∨
        (∃ a ∈ rs, ∃ (i : Nat) (q : Position) (u : TileAt), s.positions[i]? = some q ∧ covers a i ∧
          q.hung.tile = some u ∧ u.branch ∉ mask ∧ (c = a.1 ∨ c = u.branch)) ∨
        (∃ h : HangWork, s.hangOf (otherLink l) = some h ∧ ∃ b ∈ h.branches,
          (b.branch ∈ mask ∧ c = b.branch) ∨
          ∃ a ∈ rs, (∃ i, covers a i ∧ i ∈ s.routePositions b.route) ∧ (c = a.1 ∨ c = b.branch))
      ((∃ c, met c) → ∃ w : Word, (∀ c : Nat, c < 16 → (w.getLsbD c = true ↔ met c)) ∧
        exec (.hang l f) s = .next (s.declined l .routeConflict [w])) ∧
      ((∀ c, ¬met c) →
        let started (t : State) (queued : Nat) (outcome : Nat → CallOutcome) : Prop := ∃ h : HangWork,
          h.ramp = r.toNat ∧ h.policy = (if p = 0 then .record else .default) ∧ h.phase = .calling ∧
          h.branches = rs.map (fun e => ⟨e.1, e.2, outcome e.1, [], false, false⟩) ∧
          (∀ i x, (i, x) ∈ h.staged ↔ x = .empty ∧ ∃ (q : Position) (u : TileAt), s.positions[i]? = some q ∧
            q.hung.tile = some u ∧ u.branch ∈ mask) ∧
          h.seen = [] ∧ h.strangers = [] ∧ h.counts = .zero ∧ h.prov = none ∧
          (let a := s.answered l .ok [wordOfNat queued]
           t = { a.setPort l { a.port l with job := some ⟨false, false, .hang h⟩ } with
            wire := t.wire, branches := t.branches, orders := t.orders, spaceWaiters := t.spaceWaiters
            idleWaits := t.idleWaits })
        let call (b : Nat) : Order := ⟨.rollCall, b, .hang l⟩
        (s.wire ≠ none →
          let n := min mask.length (8 - s.orders.length)
          (n < mask.length → l ∉ s.spaceWaiters) →
          ∃ t, exec (.hang l f) s = .next t ∧
            started t n (fun b => if b ∈ mask.take n then .queued else .toQueue) ∧
            t.orders = s.orders ++ (mask.take n).map call ∧
            t.spaceWaiters = s.spaceWaiters ++ (if n < mask.length then [l] else []) ∧ t.wire = s.wire ∧
            t.branches = s.branches ∧ t.idleWaits = s.idleWaits) ∧
        (s.wire = none → s.orders = [] → s.owed = [] → s.spaceWaiters = [] →
          ∀ busy rest : List Nat, mask = busy ++ rest →
          let stateOf (b : Nat) : Option BranchState := (s.branches[b]?).map Branch.state
          (∀ b ∈ busy, stateOf b ≠ some .idle ∧ stateOf b ≠ none) → (∀ b, rest.head? = some b → stateOf b = some .idle) →
          (rest = [] → ∃ b ∈ busy, stateOf b ≠ some .fault) →
          ∃ t, exec (.hang l f) s = .next t ∧
            started t mask.length (fun b => if b ∉ busy then .queued
              else if stateOf b = some .fault then .failed .branchFault else .waitingIdle) ∧
            t.wire = rest.head?.map (fun b => ⟨call b, false, false, false, 0, false, false, [], []⟩) ∧
            t.orders = rest.tail.map call ∧ t.spaceWaiters = [] ∧
            t.branches.length = s.branches.length ∧
            (∀ (b : Nat) (x : Branch), s.branches[b]? = some x →
              t.branches[b]? = some (if rest.head? = some b then { x with state := .calling } else x)) ∧
            t.idleWaits = s.idleWaits ++
              (busy.filter (fun b => decide (stateOf b ≠ some .fault))).map (fun b => (b, l))) ∧
        (s.wire = none → s.orders = [] → s.owed = [] → s.spaceWaiters = [] → l ∉ s.postWaiters →
          (∀ b ∈ mask, (s.branches[b]?).map Branch.state = some .fault) →
          let full : Bool := decide (16 ≤ s.changes.length)
          ∃ t h, exec (.hang l f) s = .next t ∧
            h.phase = (if full then .posting else .posted) ∧ h.staged = [] ∧
            h.branches = rs.map (fun e => ⟨e.1, e.2, .failed .branchFault, [], false, false⟩) ∧
            (let a := s.answered l .ok [wordOfNat mask.length]
             t = { a.setPort l { a.port l with job := some ⟨false, !full, .hang h⟩ } with
              changes := s.changes ++ (if full then [] else [.place l r.toNat [] []])
              postWaiters := s.postWaiters ++ (if full then [l] else []) }))))

/-- WAITING_HANG_TOLD_IDLE queues the waiting branch's roll call again; PLACE_POST posts the PLACE of the hang that has
waited longest, its commit point, when the Change Queue has a place (R60, R69, R75; log 3). With its last roll call
reported a hang resolves: the lists are laid along their routes, a tag found again is DUPLICATE, positions not reached are
EMPTY, failed branches keep what they had, every tag placed takes its state from the live map or its record, and
strangers are counted, announced and, under RECORD, written one by one (R66, R70 to R75; that the over-128 marks are set
here is log 39). The outcome of a provisional write decides its stranger's entry, and the hang goes on (R17, R74). -/
def Obligations.WaitingHangGoesOn : Prop :=
  (∀ (s : State) (l : Link) (j : Job) (h : HangWork) (b : Nat) (w : Wire) (x : Branch),
    (s.port l).job = some j → j.work = .hang h → h.phase = .calling → h.prov = none →
    (h.branches.map HangBranch.branch).Pairwise (· < ·) → b ∈ h.branches.map HangBranch.branch →
    (∀ y ∈ h.branches, y.branch ≠ b → y.outcome.isFinal = true) →
    (∀ y ∈ h.branches, y.list.map RollAnswer.chainIndex = List.range y.list.length ∧
      y.route.inside s.settings.columns s.settings.rows = true) →
    (h.branches.flatMap (fun y => s.routePositions y.route)).Nodup →
    (h.staged.map Prod.fst).Pairwise (· < ·) → (∀ e ∈ h.staged, e.2 = .empty) →
    s.wire = some w → w.order = ⟨.rollCall, b, .hang l⟩ → w.echoed = true → w.dropped = false → w.bad = false →
    w.rolls.map RollAnswer.chainIndex = List.range w.rolls.length → s.orders = [] → (∀ e ∈ s.idleWaits, e.1 ≠ b) →
    s.branches[b]? = some x →
    let heard := (h.branches.map (fun y =>
      if y.branch = b then { y with outcome := .reported, list := w.rolls, excess := decide (128 < w.count) } else y))
    let reported := heard.filter (fun y => decide (y.outcome = .reported))
    let found : List (Nat × TileAt × Nat) := reported.flatMap (fun y => y.list.filterMap (fun a =>
      if a.chainIndex < y.route.expected then
        (y.route.position s.settings.columns s.settings.rows a.chainIndex).map (fun i =>
          (i, ⟨a.tag, a.orientation, y.branch, a.chainIndex⟩, a.batch))
      else none))
    let again (n : Nat) (u : TileAt) : Prop := ∃ e ∈ found.take n, e.2.1.tag = u.tag
    let firsts := ((List.range found.length).zip found).filter (fun e => decide (¬again e.1 e.2.2.1))
    let unknown := firsts.filter (fun e => decide (s.findEntry e.2.2.1.tag = none))
    let strangers := (List.range (s.settings.columns * s.settings.rows)).filterMap (fun p =>
      (unknown.find? (fun e => decide (e.2.1 = p))).map (fun e => e.2.2.1.tag))
    ∃ t jt k, exec (.endMarker b) s = .next t ∧ (t.port l).job = some jt ∧ jt.work = .hang k ∧
      k.ramp = h.ramp ∧ k.policy = h.policy ∧
      k.branches = heard.map (fun y => { y with
        over128 := y.over128 || (decide (y.outcome = .reported) && y.excess) }) ∧
      (∀ (n i : Nat) (u : TileAt) (batch : Nat), found[n]? = some (i, u, batch) →
        (again n u → mapGet i k.staged = some (.duplicate u)) ∧
        (¬again n u →
          (∀ (q : Nat) (p : Position), s.positionOf u.tag = some q → s.positions[q]? = some p →
            mapGet i k.staged = some (match p.hung.cause with
              | none => .placed u
              | some c => .unrecorded u c)) ∧
          (∀ e, s.positionOf u.tag = none → s.findEntry u.tag = some e →
            mapGet i k.staged = some (if e.status = .damaged then .unrecorded u .damaged else .placed u)) ∧
          (s.positionOf u.tag = none → s.findEntry u.tag = none →
            (h.policy = .default ∨ (k.phase = .recording ∧ k.strangers = strangers)) →
            mapGet i k.staged = some (.unrecorded u .noRecord)))) ∧
      (∀ y ∈ reported, ∀ (i p : Nat), y.list.length ≤ i → i < y.route.expected →
        y.route.position s.settings.columns s.settings.rows i = some p → mapGet p k.staged = some .empty) ∧
      (∀ p, (∀ y ∈ reported, p ∉ s.routePositions y.route) → mapGet p k.staged =
        if ∃ q ∈ s.positions[p]?, ∃ u ∈ q.hung.tile, ∃ y ∈ heard, y.branch = u.branch ∧ y.outcome.isFailed = true
        then none else mapGet p h.staged) ∧
      k.seen = firsts.map (fun e => ⟨e.2.2.1.tag, e.2.2.2, e.2.2.1.orientation⟩) ∧
      k.counts = { h.counts with
        moved := (firsts.filter (fun e => (s.positionOf e.2.2.1.tag).any (fun q => decide (q ≠ e.2.1)))).length
        strangers := unknown.length, duplicates := found.length - firsts.length
        excess := (reported.map (fun y => y.list.length - y.route.expected)).sum
        short := (reported.map (fun y => y.route.expected - y.list.length)).sum } ∧
      t.dl.hasFlag .stranger = (s.dl.hasFlag .stranger || decide (unknown ≠ [])) ∧
      t.sl.hasFlag .stranger = (s.sl.hasFlag .stranger || decide (unknown ≠ [])) ∧
      ((h.policy = .default ∨ unknown = []) → k.strangers = [] ∧ k.prov = none ∧
        (s.changes.length < 16 → k.phase = .posted ∧ jt.committed = true ∧
          t.changes = s.changes ++ [.place l h.ramp k.staged k.seen]) ∧
        (16 ≤ s.changes.length → k.phase = .posting ∧ jt.committed = j.committed ∧ t.changes = s.changes ∧
          l ∈ t.postWaiters)) ∧
      (∀ (tag : Nat) (more : List Nat) (c : Nat) (cs : List Nat), h.policy = .record → strangers = tag :: more →
        s.isLocked tag = false → s.pool.index.length + s.reservations < 512 → s.pool.free = c :: cs →
        let batch := seenBatch k.seen tag
        let g : Group := .head tag batch (s.settings.batch.getD batch .factory).base ⟨false, false, false⟩
        k.phase = .recording ∧ k.strangers = strangers ∧ t.changes = s.changes ∧ t.pool.free = cs ∧
        t.nvPort.waiting = s.nvPort.waiting ++ [⟨l, .cellWrite c g⟩] ∧
        k.prov = some ⟨tag, [g], [], [c], .cells, 0, 0, 0, true, true, none⟩)) ∧
  (∀ (s : State) (l : Link) (j : Job) (h : HangWork) (p : RecWrite) (c : Instr),
    (s.port l).job = some j → j.work = .hang h → h.prov = some p → p.provisional = true → h.strangers = [p.tag] →
    h.phase = .recording → s.changes.length < 16 → s.positionOf p.tag = none →
    let settled (f : TileAt → Hung) : List (Nat × Hung) := h.staged.map (fun e =>
      match e.2 with
      | .placed u => if u.tag = p.tag then (e.1, f u) else e
      | .unrecorded u _ => if u.tag = p.tag then (e.1, f u) else e
      | _ => e)
    let done : Prop := c = .indexSwapComplete ∧ s.nvPort.current = some ⟨⟨l, .swap⟩, true⟩ ∧ p.revision ≠ none
    let failed : Prop :=
      (c = .retiredWriteComplete ∧ (∃ cell, s.nvPort.current = some ⟨⟨l, .retire cell⟩, true⟩) ∧ 3 ≤ p.replacements) ∨
      (c = .nvRequestBegin ∧ s.nvPort.current = none ∧ s.nvPort.waiting.head? = some ⟨l, .swap⟩ ∧
        s.pool.counter = 4294967295)
    let full : Prop := c = .retiredWriteComplete ∧
      (∃ cell, s.nvPort.current = some ⟨⟨l, .retire cell⟩, true⟩) ∧ p.replacements < 3 ∧ s.pool.free = []
    ∀ staged, ((done ∧ staged = settled .placed) ∨ (failed ∧ staged = h.staged) ∨
        (full ∧ staged = settled (fun u => .unrecorded u .noSpace))) →
      ∃ t, exec c s = .next t ∧
        (t.port l).job = some { j with committed := true, work := .hang { h with
          phase := .posted, prov := none, strangers := [], staged := staged
          counts := { h.counts with provisional := h.counts.provisional + (if c = .indexSwapComplete then 1 else 0) } } } ∧
        t.changes = s.changes ++ [.place l h.ramp staged h.seen] ∧
        (c ≠ .indexSwapComplete → ∀ k, k ∈ t.pool.free ↔ k ∈ s.pool.free ∨ k ∈ p.written ∨ k ∈ p.unwritten)) ∧
  ∀ (l : Link) (j : Job) (h : HangWork) (s : State), (s.port l).job = some j → j.work = .hang h →
    (∀ (b : Nat) (w : Wire), (b, l) ∈ s.idleWaits → (s.branch b).state = .idle → h.outcomeOf b = some .waitingIdle →
      (∀ x ∈ h.branches, x.outcome ≠ .toQueue) → s.wire = some w → s.orders.length < 8 →
      exec (.waitingHangToldIdle l b) s = .next
        { s.setPort l { s.port l with job := some { j with work := .hang { h with
            branches := h.branches.map (fun x => if x.branch = b then { x with outcome := .queued } else x) } } } with
          idleWaits := s.idleWaits.filter (fun e => decide (e ≠ (b, l)))
          orders := s.orders ++ [⟨.rollCall, b, .hang l⟩] }) ∧
    (∀ rest : List Link, s.postWaiters = l :: rest → s.changes.length < 16 →
      exec (.placePost l) s = .next
        { s.setPort l { s.port l with
            job := some { j with committed := true, work := .hang { h with phase := .posted } } } with
          postWaiters := rest, changes := s.changes ++ [.place l h.ramp h.staged h.seen] })

/-! ### The tile chain (03) -/

/-- SWEEP NOW queues a SWEEP whatever the branch's state, sent at once by a free transmitter to an IDLE branch;
SENSE BRANCHES shows every branch, the wire and the queue, and then clears the flags of its reset set; CLEAR BRANCH
returns a FAULT branch to IDLE and answers the state found (R52, R59, R62, R64; the layouts are log 15). That SWEEP NOW
answers depth 1 for an order the transmitter takes in the same event is the model's choice (log 36). -/
def Obligations.ChainCallsAnswer : Prop :=
  ∀ (l : Link) (f : Frame) (w : Word) (s : State), l ≠ .pl → f.operands = [w] →
    (s.takes l f 0x2B = true →
      (3 < w.toNat → exec (.sweepNow l f) s = .next (s.declined l .badValue [])) ∧
      (w.toNat ≤ 3 → 8 ≤ s.orders.length → exec (.sweepNow l f) s = .next (s.declined l .queueFull [])) ∧
      (∀ x : Wire, w.toNat ≤ 3 → s.orders.length < 8 → s.wire = some x → exec (.sweepNow l f) s = .next
        { s.answered l .ok [wordOfNat (s.orders.length + 1)] with
          orders := s.orders ++ [⟨.sweep, w.toNat, .sweepNow⟩] }) ∧
      (∀ x : Branch, w.toNat ≤ 3 → s.wire = none → s.orders = [] → s.owed = [] → s.spaceWaiters = [] →
        s.branches[w.toNat]? = some x → x.state = .idle → exec (.sweepNow l f) s = .next
        { s.answered l .ok [1] with
          branches := s.branches.set w.toNat
            { x with state := .starting, serial := (x.serial + 1) % 16, orig := some .sweepNow }
          wire := some ⟨⟨.sweep, w.toNat, .sweepNow⟩, false, false, false, 0, false, false, [], []⟩ })) ∧
    (s.takes l f 0x2C = true →
      (15 < w.toNat → exec (.senseBranches l f) s = .next (s.declined l .badValue [])) ∧
      (w.toNat ≤ 15 → ∃ t, exec (.senseBranches l f) s = .next t ∧
        t = { s.answered l .ok (
            [0, 1, 2, 3].flatMap (fun b =>
              let x := s.branches.getD b .atRest
              [x.state.word, if x.clash then 1 else 0, if x.timeout then 1 else 0, if x.excess then 1 else 0,
               wordOfNat x.lastCount, wordOfNat x.serial] ++ optWords (x.orig.map Originator.place) ++
                [if b ∈ s.owed then 1 else 0]) ++
            (match s.wire with
             | none => [0, 0, 0, 0]
             | some x => [1, x.order.kind.word, wordOfNat x.order.branch, wordOfNat x.order.orig.place]) ++
            wordOfNat s.orders.length ::
              s.orders.flatMap (fun o => [o.kind.word, wordOfNat o.branch, wordOfNat o.orig.place])) with
          branches := t.branches } ∧
        ∀ b : Nat, t.branches[b]? = (s.branches[b]?).map (fun x =>
          if w.getLsbD b then { x with clash := false, timeout := false, excess := false } else x))) ∧
    (s.takes l f 0x2D = true → (l = .sl → s.showLock = false) →
      (3 < w.toNat → exec (.clearBranch l f) s = .next (s.declined l .badValue [])) ∧
      (∀ x : Branch, w.toNat ≤ 3 → s.branches[w.toNat]? = some x → x.state ≠ .fault →
        exec (.clearBranch l f) s = .next (s.answered l .ok [x.state.word])) ∧
      (∀ x : Branch, w.toNat ≤ 3 → s.branches[w.toNat]? = some x → x.state = .fault →
        (∀ e ∈ s.idleWaits, e.1 ≠ w.toNat) → (s.wire ≠ none ∨ s.orders = []) →
        exec (.clearBranch l f) s = .next
          { s.answered l .ok [6] with branches := s.branches.set w.toNat { x with state := .idle } }))

/-- A free transmitter takes the oldest order and sends it when its branch allows; a place goes to the first owed
gather, else to the first waiting hang, which rejoins while it has more to queue. The place that a take leaves free is
given out within the take; an order for a branch in FAULT is refused with BRANCH_FAULT, at the take and where a place
given out is taken at once (R47, R48, R49, R50, R52, R57, R69, R90; log 3). -/
def Obligations.TransmitterTakesAndPlacesAreGiven : Prop :=
  (∀ (s : State) (o : Order) (rest : List Order) (x : Branch), s.wire = none → s.orders = o :: rest →
    s.branches[o.branch]? = some x →
    (x.state = .idle → o.kind = .sweep →
      let sent : State := { s with
        branches := s.branches.set o.branch
          { x with state := .starting, serial := (x.serial + 1) % 16, orig := some o.orig }
        wire := some ⟨o, false, false, false, 0, false, false, [], []⟩ }
      (∀ (b : Nat) (bs : List Nat) (y : Branch) (g : Originator), s.owed = b :: bs → s.branches[b]? = some y →
        y.orig = some g → exec .transmitterTake s = .next
          { sent with orders := rest ++ [⟨.gather, b, g⟩], owed := bs }) ∧
      (∀ (l : Link) (ls : List Link) (j : Job) (h : HangWork) (b : Nat), s.owed = [] → s.spaceWaiters = l :: ls →
        (s.port l).job = some j → j.work = .hang h → h.toQueue = some b →
        let h' := { h with
          branches := h.branches.map (fun y => if y.branch = b then { y with outcome := .queued } else y) }
        exec .transmitterTake s = .next
          { sent.setPort l { s.port l with job := some { j with work := .hang h' } } with
            orders := rest ++ [⟨.rollCall, b, .hang l⟩]
            spaceWaiters := if h'.toQueue.isSome then ls ++ [l] else ls })) ∧
    (x.state = .fault → rest = [] → s.owed = [] → s.spaceWaiters = [] →
      (o.orig = .sweepNow → exec .transmitterTake s = .next { s with orders := [] }) ∧
      (o.orig = .drift → exec .transmitterTake s = .next { s with
        orders := [], awaiting := s.awaiting.filter (fun b => decide (b ≠ o.branch)) }) ∧
      (∀ (l : Link) (j : Job) (h : HangWork), o.orig = .hang l → (s.port l).job = some j → j.work = .hang h →
        h.phase = .calling → (∃ y ∈ h.branches, y.branch ≠ o.branch ∧ y.outcome.isFinal = false) →
        exec .transmitterTake s = .next
          { s.setPort l { s.port l with job := some { j with work := .hang { h with
              branches := h.branches.map (fun y =>
                if y.branch = o.branch then { y with outcome := .failed .branchFault } else y) } } } with
            orders := [] }))) ∧
  (∀ (s : State) (b : Nat) (x : Branch) (g : Originator), s.wire = none → s.orders = [] → s.spaceWaiters = [] →
    s.owed = [b] → s.branches[b]? = some x → x.orig = some g →
    (x.state = .ready → exec .owedGatherQueue s = .next { s with
      owed := [], branches := s.branches.set b { x with state := .gathering }
      wire := some ⟨⟨.gather, b, g⟩, false, false, false, 0, false, false, [], []⟩ }) ∧
    (x.state = .fault → g = .sweepNow → exec .owedGatherQueue s = .next { s with owed := [] }) ∧
    (x.state = .fault → g = .drift → exec .owedGatherQueue s = .next { s with
      owed := [], awaiting := s.awaiting.filter (fun c => decide (c ≠ b)) })) ∧
  (∀ (s : State) (l : Link) (j : Job) (h : HangWork) (b : Nat) (x : Branch), s.wire = none → s.orders = [] →
    s.owed = [] → s.spaceWaiters = [l] → (s.port l).job = some j → j.work = .hang h → h.toQueue = some b →
    (∀ y ∈ h.branches, y.branch ≠ b → y.outcome ≠ .toQueue) → s.branches[b]? = some x →
    let showing (o : CallOutcome) : State := { s.setPort l { s.port l with job := some { j with work := .hang { h with
      branches := h.branches.map (fun y => if y.branch = b then { y with outcome := o } else y) } } } with
      spaceWaiters := [] }
    (x.state = .idle → exec .spaceWaiterQueue s = .next { showing .queued with
      branches := s.branches.set b { x with state := .calling }
      wire := some ⟨⟨.rollCall, b, .hang l⟩, false, false, false, 0, false, false, [], []⟩ }) ∧
    (x.state = .fault → h.phase = .calling → (∃ y ∈ h.branches, y.branch ≠ b ∧ y.outcome.isFinal = false) →
      exec .spaceWaiterQueue s = .next (showing (.failed .branchFault)))) ∧
  ∀ s : State,
    (∀ (o : Order) (rest : List Order) (x : Branch), s.wire = none → s.orders = o :: rest → s.owed = [] →
      s.spaceWaiters = [] → s.branches[o.branch]? = some x →
      let sent (y : Branch) : State := { s with
        orders := rest, branches := s.branches.set o.branch y
        wire := some ⟨o, false, false, false, 0, false, false, [], []⟩ }
      (o.kind = .rollCall → x.state = .idle →
        exec .transmitterTake s = .next (sent { x with state := .calling })) ∧
      (o.kind = .sweep → x.state = .idle → exec .transmitterTake s = .next
        (sent { x with state := .starting, serial := (x.serial + 1) % 16, orig := some o.orig })) ∧
      (o.kind = .gather → x.state = .ready →
        exec .transmitterTake s = .next (sent { x with state := .gathering })) ∧
      (∀ l, o.orig = .hang l → o.kind = .rollCall → rest = [] → x.state ≠ .idle → x.state ≠ .fault →
        ∀ j h, (s.port l).job = some j → j.work = .hang h → exec .transmitterTake s = .next
          { s.setPort l { s.port l with job := some { j with work := .hang { h with
              branches := h.branches.map (fun y =>
                if y.branch = o.branch then { y with outcome := .waitingIdle } else y) } } } with
            orders := [], idleWaits := s.idleWaits ++ [(o.branch, l)] })) ∧
    (∀ (w : Wire) (b : Nat) (rest : List Nat) (x : Branch) (o : Originator), s.wire = some w → s.owed = b :: rest →
      s.orders.length < 8 → s.branches[b]? = some x → x.orig = some o →
      exec .owedGatherQueue s = .next { s with owed := rest, orders := s.orders ++ [⟨.gather, b, o⟩] }) ∧
    (∀ (w : Wire) (l : Link) (rest : List Link) (j : Job) (h : HangWork) (b : Nat), s.wire = some w → s.owed = [] →
      s.spaceWaiters = l :: rest → s.orders.length < 8 → (s.port l).job = some j → j.work = .hang h →
      h.toQueue = some b →
      let h' := { h with
        branches := h.branches.map (fun y => if y.branch = b then { y with outcome := .queued } else y) }
      exec .spaceWaiterQueue s = .next
        { s.setPort l { s.port l with job := some { j with work := .hang h' } } with
          spaceWaiters := if h'.toQueue.isSome then rest ++ [l] else rest
          orders := s.orders ++ [⟨.rollCall, b, .hang l⟩] })

/-- A SWEEP taken for a branch that is busy is a clash: CLASH and SWEEP_CLASH are set, the originator is told (DRIFT's
awaiting set loses the branch), the branch keeps its state, serial and originator, and the order is gone (R54). -/
def Obligations.SweepClashIsNotPerformed : Prop :=
  ∀ (s : State) (o : Order) (x : Branch), s.wire = none → s.orders = [o] → s.owed = [] → s.spaceWaiters = [] →
    o.kind = .sweep → (o.orig = .drift ∨ o.orig = .sweepNow) → s.branches[o.branch]? = some x → x.state ≠ .idle →
    x.state ≠ .fault →
    ∃ t, exec .transmitterTake s = .next t ∧ t.dl.hasFlag .sweepClash = true ∧ t.sl.hasFlag .sweepClash = true ∧
      t = { s with
        orders := [], branches := s.branches.set o.branch { x with clash := true }
        awaiting := if o.orig = .drift then s.awaiting.filter (fun b => decide (b ≠ o.branch)) else s.awaiting
        dl := { s.dl with flags := t.dl.flags }, sl := { s.sl with flags := t.sl.flags } } ∧
      (∀ n : Notice, n ≠ .sweepClash → t.dl.hasFlag n = s.dl.hasFlag n ∧ t.sl.hasFlag n = s.sl.hasFlag n)

/-- What ends an order's or a sweep's waiting: the echo, 5 ms without it, of which the originator is told, the 1 ms
point, the done report with the branch's serial, held while the branch is STARTING and disregarded in any other state,
and 250 ms in SWEEPING; no other notice is raised or cleared (R43, R45, R52, R53, R55, R56, R69). That a held report is taken after the transmitter's next take
is log 22, that a wire fault's telling comes before the next take is log 38, and that a header or a done report whose bits
15-6 are not zero is disregarded is log 44. -/
def Obligations.SweepEventsMoveTheBranch : Prop :=
  ∀ (s : State) (b : Nat) (x : Branch), s.branches[b]? = some x →
    (∀ w : Wire, s.wire = some w → w.order.branch = b → w.echoed = false →
      (∀ hw, hw ≠ headerWord w.order.kind x.serial → exec (.echoArrive b hw) s = .next s) ∧
      ((w.order.kind ≠ .sweep ∨ w.startPassed = false) →
        exec (.echoArrive b (headerWord w.order.kind x.serial)) s =
          .next { s with wire := some { w with echoed := true } }) ∧
      (s.orders = [] → (w.order.orig = .drift ∨ w.order.orig = .sweepNow ∨ w.dropped = true) →
        ∃ t, exec .wireFault s = .next t ∧ t.dl.hasFlag .branchFault = true ∧ t.sl.hasFlag .branchFault = true ∧
          (∀ n : Notice, n ≠ .branchFault → t.dl.hasFlag n = s.dl.hasFlag n ∧ t.sl.hasFlag n = s.sl.hasFlag n) ∧
          t = { s with
            branches := s.branches.set b { x with state := .fault, orig := none, sweepTimer := false }
            wire := none
            awaiting := if w.order.orig = .drift ∧ w.dropped = false then s.awaiting.filter (fun a => decide (a ≠ b))
              else s.awaiting
            dl := { s.dl with flags := t.dl.flags }, sl := { s.sl with flags := t.sl.flags } }) ∧
      (∀ l j h, s.orders = [] → w.order.orig = .hang l → w.dropped = false → (s.port l).job = some j →
        j.work = .hang h → h.phase = .calling → (∃ y ∈ h.branches, y.branch ≠ b ∧ y.outcome.isFinal = false) →
        ∃ t, exec .wireFault s = .next t ∧ t.dl.hasFlag .branchFault = true ∧ t.sl.hasFlag .branchFault = true ∧
          (∀ n : Notice, n ≠ .branchFault → t.dl.hasFlag n = s.dl.hasFlag n ∧ t.sl.hasFlag n = s.sl.hasFlag n) ∧
          (let told := s.setPort l { s.port l with job := some { j with work := .hang { h with
             branches := h.branches.map (fun y =>
               if y.branch = b then { y with outcome := .failed .branchFault } else y) } } }
           t = { told with
             branches := s.branches.set b { x with state := .fault, orig := none, sweepTimer := false }
             wire := none, dl := { told.dl with flags := t.dl.flags }, sl := { told.sl with flags := t.sl.flags } }))) ∧
    (∀ w : Wire, s.wire = some w → w.order.branch = b → w.order.kind = .sweep → s.orders = [] → w.doneHeld = false →
      let sweeping : State := { s with
        branches := s.branches.set b { x with state := .sweeping, sweepTimer := true }, wire := none }
      (w.startPassed = false → w.echoed = true → exec .sweepStartPoint s = .next sweeping) ∧
      (w.startPassed = false → w.echoed = false →
        exec .sweepStartPoint s = .next { s with wire := some { w with startPassed := true } }) ∧
      (w.startPassed = true → w.echoed = false →
        exec (.echoArrive b (headerWord .sweep x.serial)) s = .next sweeping)) ∧
    (∀ (w : Wire) (o : Originator) (c : Instr), s.wire = some w → w.order.branch = b → w.order.kind = .sweep →
      w.doneHeld = true → x.orig = some o → s.owed = [] → s.spaceWaiters = [] →
      (c = .sweepStartPoint ∧ w.startPassed = false ∧ w.echoed = true ∨
        c = .echoArrive b (headerWord .sweep x.serial) ∧ w.startPassed = true ∧ w.echoed = false) →
      (s.orders = [] → exec c s = .next { s with
        branches := s.branches.set b { x with state := .gathering, sweepTimer := false }
        wire := some ⟨⟨.gather, b, o⟩, false, false, false, 0, false, false, [], []⟩ }) ∧
      (∀ (q : Order) (y : Branch), s.orders = [q] → q.branch ≠ b → s.branches[q.branch]? = some y → y.state = .idle →
        q.kind = .rollCall → exec c s = .next { s with
          branches := (s.branches.set b { x with state := .ready, sweepTimer := false }).set q.branch
            { y with state := .calling }
          wire := some ⟨q, false, false, false, 0, false, false, [], []⟩, orders := [⟨.gather, b, o⟩] })) ∧
    (∀ hw, hw ≠ doneWord x.serial → exec (.doneReport b hw) s = .next s) ∧
    (∀ w : Wire, s.wire = some w → w.order.branch = b → w.order.kind = .sweep → x.state = .starting →
      w.echoed = true →
      exec (.doneReport b (doneWord x.serial)) s = .next { s with wire := some { w with doneHeld := true } }) ∧
    (x.state ≠ .sweeping →
      (x.state = .starting → ∀ w : Wire, s.wire = some w → w.order.branch = b → w.order.kind = .sweep →
        w.echoed = false) →
      exec (.doneReport b (doneWord x.serial)) s = .next s) ∧
    (x.state = .sweeping →
      (∀ o : Originator, s.wire = none → s.orders = [] → s.owed = [] → s.spaceWaiters = [] → x.orig = some o →
        exec (.doneReport b (doneWord x.serial)) s = .next { s with
          branches := s.branches.set b { x with state := .gathering, sweepTimer := false }
          wire := some ⟨⟨.gather, b, o⟩, false, false, false, 0, false, false, [], []⟩ }) ∧
      (8 ≤ s.orders.length ∨ s.owed ≠ [] → exec (.doneReport b (doneWord x.serial)) s = .next { s with
        branches := s.branches.set b { x with state := .ready, sweepTimer := false }, owed := s.owed ++ [b] }) ∧
      (∀ (w : Wire) (o : Originator), s.wire = some w → x.orig = some o →
        exec (.doneReport b (doneWord x.serial)) s = .next (
          let t := { s with branches := s.branches.set b { x with state := .ready, sweepTimer := false } }
          if s.orders.length < 8 ∧ s.owed = [] then { t with orders := s.orders ++ [⟨.gather, b, o⟩] }
          else { t with owed := s.owed ++ [b] })) ∧
      ((∀ e ∈ s.idleWaits, e.1 ≠ b) → (s.wire ≠ none ∨ s.orders = []) → (∀ l, x.orig ≠ some (.hang l)) →
        ∃ t, exec (.sweepTimeout b) s = .next t ∧ t.dl.hasFlag .sweepTimeout = true ∧
          t.sl.hasFlag .sweepTimeout = true ∧
          (∀ n : Notice, n ≠ .sweepTimeout → t.dl.hasFlag n = s.dl.hasFlag n ∧ t.sl.hasFlag n = s.sl.hasFlag n) ∧
          t = { s with
            branches := s.branches.set b
              { x with state := .idle, timeout := true, sweepTimer := false, orig := none }
            awaiting := if x.orig = some .drift then s.awaiting.filter (fun a => decide (a ≠ b)) else s.awaiting
            dl := { s.dl with flags := t.dl.flags }, sl := { s.sl with flags := t.sl.flags } }))

/-- An answer after the echo is counted, and kept among the first 128 if it is good; the first bad answer fails a roll
call; the end marker and a break end the order, and the branch is IDLE with its count and EXCESS set (R43, R44, R50,
R51, R57, R58). That the reserved bits of the batch word and of the mark word are ignored is the model's choice
(log 21), and so is that a GATHER's EXCESS is set at its end and not at its 129th answer (log 42). -/
def Obligations.AnswerStreamsEnd : Prop :=
  ∀ (s : State) (w : Wire) (b : Nat) (x : Branch), s.wire = some w → w.order.branch = b → w.echoed = true →
    s.branches[b]? = some x →
    (∀ hi lo bw : Word, w.order.kind = .rollCall → w.bad = false →
      let check := 1 + hi + lo + bw
      let good : Prop := (hi ≠ 0 ∨ lo ≠ 0) ∧ bw.toNat % 256 ≤ 15 ∧ bw.toNat / 256 % 4 ≤ 1
      (good → exec (.tileAnswer b [1, hi, lo, bw, check]) s = .next { s with wire := some { w with
        count := w.count + 1
        rolls := if w.count < 128 then w.rolls ++ [⟨w.count, hi.toNat * 65536 + lo.toNat, bw.toNat % 256,
            if bw.toNat / 256 % 4 = 0 then .normal else .turned⟩]
          else w.rolls } }) ∧
      (∀ c, (c ≠ check ∨ ¬good) → exec (.tileAnswer b [1, hi, lo, bw, c]) s =
        .next { s with wire := some { w with count := w.count + 1, bad := true } })) ∧
    (∀ hi lo temp hours mark : Word, w.order.kind = .gather →
      let check := 1 + hi + lo + temp + hours + mark
      let good : Prop := (hi ≠ 0 ∨ lo ≠ 0) ∧ -400 ≤ temp.toInt ∧ temp.toInt ≤ 1250
      (good → exec (.tileAnswer b [1, hi, lo, temp, hours, mark, check]) s = .next { s with wire := some { w with
        count := w.count + 1
        samples := if w.count < 128 then w.samples ++ [⟨hi.toNat * 65536 + lo.toNat, temp.toInt, hours.toNat,
            mark.getLsbD 0⟩]
          else w.samples } }) ∧
      (∀ c, (c ≠ check ∨ ¬good) → exec (.tileAnswer b [1, hi, lo, temp, hours, mark, c]) s =
        .next { s with wire := some { w with count := w.count + 1 } })) ∧
    (s.orders = [] → (∀ e ∈ s.idleWaits, e.1 ≠ b) →
      let ended : Branch := { x with
        state := .idle, lastCount := min w.count 128, excess := x.excess || decide (128 < w.count) }
      (w.order.kind = .rollCall → w.dropped = true → ∀ c, c = .endMarker b ∨ c = .answerStreamBreak →
        exec c s = .next { s with branches := s.branches.set b ended, wire := none }) ∧
      (∀ l j h, w.order.kind = .rollCall → w.dropped = false → w.order.orig = .hang l → (s.port l).job = some j →
        j.work = .hang h → h.phase = .calling → (∃ y ∈ h.branches, y.branch ≠ b ∧ y.outcome.isFinal = false) →
        ∀ broken : Bool, exec (if broken then .answerStreamBreak else .endMarker b) s = .next
          { s.setPort l { s.port l with job := some { j with work := .hang { h with
              branches := h.branches.map (fun y =>
                if y.branch = b then
                  (if w.bad then { y with outcome := .failed .badAnswer }
                   else if broken then { y with outcome := .failed .broken }
                   else { y with outcome := .reported, list := w.rolls, excess := decide (128 < w.count) })
                else y) } } } with
            branches := s.branches.set b ended, wire := none }) ∧
      (w.order.kind = .gather → (w.order.orig = .drift ∨ w.order.orig = .sweepNow) →
        ∀ c, c = .endMarker b ∨ c = .answerStreamBreak → ∃ t, exec c s = .next t ∧
          t = { s.useGather b w.samples with
            branches := s.branches.set b { ended with orig := none }, wire := none
            awaiting := if w.order.orig = .drift then s.awaiting.filter (fun a => decide (a ≠ b)) else s.awaiting }))

/-- A gather result is taken answer by answer in list order: the first answer for a tag with an entry is taken, any other
is discarded and counted. A taken fresh answer seeds, reseeds or filters the estimate, a stale one sets the run hours
alone, and its tag is marked by the tests; then every tag of the branch that was not answered is missed, MUTE at the third
miss, and no other tag is touched. A gather result touches the table, the drift-dirty set, the discard count and
TILE_MUTE only (R91 to R95). -/
def Obligations.GatherResultsUpdateTheTable : Prop :=
  ∀ (s : State) (b : Nat) (x : Sample),
    (statusOf s.tiles x.tag = none →
      (s.useGather b [x]).resultsDiscarded = (if s.resultsDiscarded < 65535 then s.resultsDiscarded + 1 else 65535)) ∧
    (∀ st : TileStatus, statusOf s.tiles x.tag = some st →
      let fresh : TileStatus := { st with
        e := some (match st.e with
          | none => x.temp
          | some e => if st.miss = 3 then x.temp else e + (x.temp - e).tdiv (2 ^ s.settings.depth))
        h := some x.hours, miss := 0, fresh := if st.fresh < 65535 then st.fresh + 1 else 65535 }
      let new : TileStatus := if x.fresh then fresh else { st with h := some x.hours }
      statusOf (s.useGather b [x]).tiles x.tag = some new ∧
      (s.useGather b [x]).resultsDiscarded = s.resultsDiscarded ∧
      (∀ i, i ∈ (s.useGather b [x]).dirty ↔ i ∈ s.dirty ∨ (s.positionOf x.tag = some i ∧ new.miss < 3 ∧
        ((∃ e, new.e = some e ∧ (new.ePosted = none ∨ ∃ q, new.ePosted = some q ∧
            s.settings.deadband ≤ (e - q).natAbs)) ∨
         (∃ h, new.h = some h ∧ (new.hPosted = none ∨ ∃ q, new.hPosted = some q ∧ q + 10 ≤ h)))))) ∧
    (∀ (i : Nat) (p : Position) (u : TileAt) (st : TileStatus), s.positions[i]? = some p → p.hung.occupant = some u →
      u.branch = b → u.tag ≠ x.tag → statusOf s.tiles u.tag = some st →
      (∀ (j : Nat) (q : Position), s.positions[j]? = some q → q.hung.tag = some u.tag → j = i) →
      statusOf (s.useGather b [x]).tiles u.tag = some { st with miss := if st.miss < 3 then st.miss + 1 else st.miss } ∧
      (st.miss = 2 → (s.useGather b [x]).dl.hasFlag .tileMute = true ∧
        (s.useGather b [x]).sl.hasFlag .tileMute = true)) ∧
    (∀ xs : List Sample,
      let t := s.useGather b xs
      let first (tag : Nat) : Option Sample := xs.find? (fun x => x.tag == tag)
      let unused := ((List.range xs.length).filter (fun k => (xs[k]?).any (fun x =>
        (statusOf s.tiles x.tag).isNone || (xs.take k).any (fun y => y.tag == x.tag)))).length
      let new (x : Sample) (st : TileStatus) : TileStatus :=
        if x.fresh then { st with
          e := some (match st.e with
            | none => x.temp
            | some e => if st.miss = 3 then x.temp else e + (x.temp - e).tdiv (2 ^ s.settings.depth))
          h := some x.hours, miss := 0, fresh := if st.fresh < 65535 then st.fresh + 1 else 65535 }
        else { st with h := some x.hours }
      let unanswered (tag : Nat) : Nat := if (first tag).isSome then 0 else (s.positions.filter (fun p =>
        decide (p.hung.occupant.map (fun u => (u.tag, u.branch)) = some (tag, b)))).length
      let missed (st : TileStatus) (n : Nat) : TileStatus :=
        if st.miss < 3 then { st with miss := min 3 (st.miss + n) } else st
      t.resultsDiscarded = (if unused = 0 then s.resultsDiscarded else min 65535 (s.resultsDiscarded + unused)) ∧
      t.tiles.map TileStatus.tag = s.tiles.map TileStatus.tag ∧
      (∀ (x : Sample) (st : TileStatus), first x.tag = some x → statusOf s.tiles x.tag = some st →
        statusOf t.tiles x.tag = some (new x st)) ∧
      (∀ (tag : Nat) (st : TileStatus), first tag = none → statusOf s.tiles tag = some st →
        statusOf t.tiles tag = some (missed st (unanswered tag))) ∧
      (∀ i, i ∈ t.dirty ↔ i ∈ s.dirty ∨ ∃ x st, first x.tag = some x ∧ statusOf s.tiles x.tag = some st ∧
        s.positionOf x.tag = some i ∧ (new x st).miss < 3 ∧
        ((∃ e, (new x st).e = some e ∧ (st.ePosted = none ∨ ∃ q, st.ePosted = some q ∧
            s.settings.deadband ≤ (e - q).natAbs)) ∨
         (st.hPosted = none ∨ ∃ q, st.hPosted = some q ∧ q + 10 ≤ x.hours))) ∧
      (∀ l, l ≠ .pl → ((t.port l).hasFlag .tileMute = true ↔ (s.port l).hasFlag .tileMute = true ∨
        ∃ tag st, statusOf s.tiles tag = some st ∧ st.miss < 3 ∧ (missed st (unanswered tag)).miss = 3)) ∧
      ∀ (l : Link) (n : Notice), n ≠ .tileMute → (t.port l).hasFlag n = (s.port l).hasFlag n) ∧
    ∀ xs : List Sample, s.useGather b xs = { s with
      tiles := (s.useGather b xs).tiles, dirty := (s.useGather b xs).dirty
      resultsDiscarded := (s.useGather b xs).resultsDiscarded
      dl := { s.dl with flags := (s.useGather b xs).dl.flags }
      sl := { s.sl with flags := (s.useGather b xs).sl.flags } }

/-! ### The NV Port (01) -/

/-- The free NV Port begins its oldest request; a swap takes its revision and commits its write, an index remove and
the first settings write commit their jobs; a swap at the end of the counter does not begin, and its job FAILS
(R8, R9, R15, R18, R22; the three named beginnings are log 3). -/
def Obligations.NvPortBeginsTheOldestRequest : Prop :=
  ∀ (s : State) (r : NvRequest) (rest : List NvRequest), s.nvPort.current = none → s.nvPort.waiting = r :: rest →
    let begun : State := { s with nvPort := { s.nvPort with waiting := rest, current := some ⟨r, true⟩ } }
    (((∃ c g, r.op = .cellWrite c g) ∨ (∃ c, r.op = .retire c) ∨ (∃ c e, r.op = .chainEntry c e) ∨
        (∃ tag, r.op = .damage tag) ∨ (∃ c, r.op = .checkRead c) ∨ ∃ c img, c ≠ 0 ∧ r.op = .settings c img) →
      exec .nvRequestBegin s = .next begun) ∧
    (∀ j : Job, (s.port r.link).job = some j →
      let committed : State := begun.setPort r.link { s.port r.link with job := some { j with committed := true } }
      (∀ tag, r.op = .remove tag → ∀ c, c = .nvRequestBegin ∨ c = .eraseWriteBegin → exec c s = .next committed) ∧
      (∀ img, r.op = .settings 0 img → ∀ c, c = .nvRequestBegin ∨ c = .settingsWriteBegin →
        exec c s = .next committed) ∧
      (r.op = .swap → ∀ c, c = .nvRequestBegin ∨ c = .indexSwapBegin →
        (∀ w : RecWrite, j.work = .write w → w.provisional = false → s.pool.counter ≠ 4294967295 →
          exec c s = .next (begun.setPort r.link { s.port r.link with job := some { j with
            committed := true, work := .write { w with revision := some s.pool.counter } } })) ∧
        (∀ (h : HangWork) (w : RecWrite), j.work = .hang h → h.prov = some w → w.provisional = true →
          s.pool.counter ≠ 4294967295 →
          exec c s = .next (begun.setPort r.link { s.port r.link with job := some { j with
            work := .hang { h with prov := some { w with revision := some s.pool.counter } } } })) ∧
        (∀ w : RecWrite, j.work = .write w → w.provisional = false → j.detached = false →
          s.pool.counter = 4294967295 → ∃ t, exec c s = .next t ∧ (t.port r.link).job = none ∧
            (t.port r.link).record = ⟨.failed, .revisionExhausted, j.committed,
              .write w.tag w.phase w.written.length w.retired none⟩ ∧
            (t.port r.link).hasFlag .jobDone = true ∧
            (∀ k, k ∈ t.pool.free ↔ k ∈ s.pool.free ∨ k ∈ w.written ∨ k ∈ w.unwritten) ∧
            t = { s with
              pl := s.pl.ended t.pl, dl := s.dl.ended t.dl, sl := s.sl.ended t.sl
              pool := { s.pool with
                free := t.pool.free, chain := t.pool.chain, image := t.pool.image, low := t.pool.low }
              nvPort := { s.nvPort with waiting := rest } })))

/-- The cell phase and the chain phase of a record write, request by request: a good cell goes on, a bad one is retired
and replaced at most three times, and each chain entry names the cell after it (R14, R15). What a cell of the NV memory
holds after its verify, good or failed, is the model's choice (log 28). A cell, RETIRED or chain entry write whose job
has ended writes the non-volatile memory and no more: its outcome is discarded and nothing is retired (R9, R16). A claim
for a replacement evaluates POOL_LOW (R11). -/
def Obligations.RecordWriteGoesOnRequestByRequest : Prop :=
  (∀ (s : State) (l : Link) (op : NvOp), s.nvPort.current = some ⟨⟨l, op⟩, false⟩ →
    let stored (nv : NvMemory) : State := { s with nv := nv, nvPort := { s.nvPort with current := none } }
    (∀ cell g, op = .cellWrite cell g →
      exec (.cellWriteComplete true) s = .next (stored { s.nv with cells := mapSet cell g s.nv.cells }) ∧
      ∃ t, exec (.cellWriteComplete false) s = .next t ∧ mapGet cell t.nv.cells = none ∧
        (∀ d, d ≠ cell → mapGet d t.nv.cells = mapGet d s.nv.cells) ∧
        t = stored { s.nv with cells := t.nv.cells }) ∧
    (∀ cell, op = .retire cell →
      exec .retiredWriteComplete s = .next (stored { s.nv with chain := mapSet cell .retired s.nv.chain })) ∧
    (∀ cell e, op = .chainEntry cell e →
      exec .chainEntryWriteComplete s = .next (stored { s.nv with chain := chainSet cell e s.nv.chain }))) ∧
  ∀ (s : State) (l : Link) (op : NvOp) (w : RecWrite), s.nvPort.current = some ⟨⟨l, op⟩, true⟩ →
    s.writeOf l = some w →
    (∀ cell g, op = .cellWrite cell g → ∃ t, exec (.cellWriteComplete true) s = .next t ∧
      t = { s.setPort l { s.port l with job := (t.port l).job } with
        nv := { s.nv with cells := mapSet cell g s.nv.cells }
        pool := { s.pool with image := mapSet cell g s.pool.image }
        nvPort := { s.nvPort with current := none, waiting := t.nvPort.waiting } } ∧
      (∀ c cs g', w.unwritten = cell :: c :: cs → w.groups[w.written.length + 1]? = some g' →
        t.writeOf l = some { w with
          written := w.written ++ [cell], unwritten := c :: cs, replacements := 0, phase := .cells } ∧
        t.nvPort.waiting = s.nvPort.waiting ++ [⟨l, .cellWrite c g'⟩]) ∧
      (∀ first, w.unwritten = [cell] → w.chained = 0 → (w.written ++ [cell])[0]? = some first →
        t.writeOf l = some { w with
          written := w.written ++ [cell], unwritten := [], replacements := 0, phase := .chain } ∧
        t.nvPort.waiting = s.nvPort.waiting ++ [⟨l, .chainEntry first
          (match (w.written ++ [cell])[1]? with | none => .last | some c => .next c)⟩])) ∧
    (∀ cell g, op = .cellWrite cell g → ∃ t, exec (.cellWriteComplete false) s = .next t ∧
      mapGet cell t.nv.cells = none ∧ chainOf t.pool.chain cell = .retired ∧
      (∀ c, c ∈ t.pool.retired ↔ c = cell ∨ c ∈ s.pool.retired) ∧
      t.writeOf l = some { w with unwritten := w.unwritten.tail, retired := w.retired + 1 } ∧
      t.sl.hasFlag .cellRetired = true ∧ (∀ d, d ≠ cell → mapGet d t.nv.cells = mapGet d s.nv.cells) ∧
      t = { s with
        pl := s.pl.marked t.pl, dl := s.dl.marked t.dl, sl := s.sl.marked t.sl
        nv := { s.nv with cells := t.nv.cells }
        pool := { s.pool with retired := t.pool.retired, chain := chainSet cell .retired s.pool.chain }
        nvPort := { s.nvPort with current := none, waiting := s.nvPort.waiting ++ [⟨l, .retire cell⟩] } }) ∧
    (∀ cell, op = .retire cell →
      (∀ c cs g, w.replacements < 3 → s.pool.free = c :: cs → w.groups[w.written.length]? = some g →
        ∃ t, exec .retiredWriteComplete s = .next t ∧
          t.writeOf l = some { w with
            unwritten := c :: w.unwritten, replacements := w.replacements + 1, phase := .cells } ∧
          t.pool.low = decide (cs.length < s.settings.watermark) ∧
          (∀ (m : Link) (n : Notice), (t.port m).hasFlag n =
            ((s.port m).hasFlag n || (decide (m ≠ .pl ∧ n = .poolLow) && t.pool.low && !s.pool.low))) ∧
          t = { s with
            pl := s.pl.marked t.pl, dl := s.dl.marked t.dl, sl := s.sl.marked t.sl
            nv := { s.nv with chain := mapSet cell .retired s.nv.chain }
            pool := { s.pool with free := cs, low := t.pool.low }
            nvPort := { s.nvPort with
              current := none, waiting := s.nvPort.waiting ++ [⟨l, .cellWrite c g⟩] } }) ∧
      (∀ j, (s.port l).job = some j → j.work = .write w → w.provisional = false → j.detached = false →
        (3 ≤ w.replacements ∨ s.pool.free = []) → ∃ t, exec .retiredWriteComplete s = .next t ∧
          (t.port l).job = none ∧
          (t.port l).record = ⟨.failed, if 3 ≤ w.replacements then .verifyFailed else .poolFull, j.committed,
            .write w.tag w.phase w.written.length w.retired none⟩ ∧
          (t.port l).hasFlag .jobDone = true ∧
          (∀ k, k ∈ t.pool.free ↔ k ∈ s.pool.free ∨ k ∈ w.written ∨ k ∈ w.unwritten) ∧
          t = { s with
            pl := s.pl.ended t.pl, dl := s.dl.ended t.dl, sl := s.sl.ended t.sl
            nv := { s.nv with chain := mapSet cell .retired s.nv.chain }
            pool := { s.pool with
              free := t.pool.free, chain := t.pool.chain, image := t.pool.image, low := t.pool.low }
            nvPort := { s.nvPort with current := none } })) ∧
    (∀ cell e, op = .chainEntry cell e → w.unwritten = [] → ∃ t, exec .chainEntryWriteComplete s = .next t ∧
      t = { s.setPort l { s.port l with job := (t.port l).job } with
        nv := { s.nv with chain := chainSet cell e s.nv.chain }
        pool := { s.pool with chain := chainSet cell e s.pool.chain }
        nvPort := { s.nvPort with current := none, waiting := t.nvPort.waiting } } ∧
      (∀ c, w.written[w.chained + 1]? = some c →
        t.writeOf l = some { w with chained := w.chained + 1, phase := .chain } ∧
        t.nvPort.waiting = s.nvPort.waiting ++ [⟨l, .chainEntry c
          (match w.written[w.chained + 2]? with | none => .last | some d => .next d)⟩]) ∧
      (w.written[w.chained + 1]? = none →
        t.writeOf l = some { w with chained := w.chained + 1, phase := .swap } ∧
        t.nvPort.waiting = s.nvPort.waiting ++ [⟨l, .swap⟩]))

/-- A completed swap puts the record's new entry in the index with its revision, moves the counter on, frees the old
cells, whose entries read FREE, and ends the job; an erase's removes the entry and frees its cells. A job that LINK RESET
detached ends with no record and no notice. PENDING of the position that the tag occupies is the pending test's value. No
other index entry, no other job, no other notice and nothing served changes, and the stored index stays within 512 records
(R3, R6, R8, R15, R16, R17, R18, R37, R79, R106, R179; that a stored entry a scan has dropped stays among the others until
its place is needed is log 43). -/
def Obligations.SwapAndEraseTakeEffectAtCompletion : Prop :=
  ∀ (s : State) (l : Link),
    let watched : Prop := s.pool.low = decide (s.pool.free.length < s.settings.watermark)
    (∀ (w : RecWrite) (v : Nat), w.revision = some v →
      ((s.nvPort.current = some ⟨⟨l, .swap⟩, true⟩ ∧ s.writeOf l = some w) ∨
        (s.nvPort.current = some ⟨⟨l, .swap⟩, false⟩ ∧ s.nvPort.orphan = some w)) →
      ∃ t, exec .indexSwapComplete s = .next t ∧ t.nvPort.current = none ∧
        t.findEntry w.tag = some ⟨w.tag, w.written.headD 0, v, if w.provisional then .provisional else .ok,
          w.written⟩ ∧
        (∀ tag, tag ≠ w.tag → t.findEntry tag = s.findEntry tag) ∧ t.pool.counter = v + 1 ∧ t.nv.counter = v + 1 ∧
        (rising (s.nv.index.map NvEntry.tag) →
          let others := s.nv.index.filter (fun x => decide (x.tag ≠ w.tag))
          (others.length < 512 → ∀ x, x ∈ t.nv.index ↔
            x = ⟨w.tag, w.written.headD 0, v, if w.provisional then .provisional else .ok⟩ ∨ x ∈ others) ∧
          (512 ≤ others.length → ∀ d, others.find? (fun x => (s.findEntry x.tag).isNone) = some d →
            ∀ x, x ∈ t.nv.index ↔
              x = ⟨w.tag, w.written.headD 0, v, if w.provisional then .provisional else .ok⟩ ∨ x ∈ others ∧ x ≠ d) ∧
          (s.nv.index.length ≤ 512 → (s.pool.index.filter (fun x => decide (x.tag ≠ w.tag))).length < 512 →
            t.nv.index.length ≤ 512)) ∧
        (let old := ((s.findEntry w.tag).map IndexEntry.cells).getD []
         (∀ c, chainOf t.pool.chain c = if c ∈ old then .free else chainOf s.pool.chain c) ∧
         ∀ c, mapGet c t.pool.image = if c ∈ old then none else mapGet c s.pool.image) ∧
        (∀ (i : Nat) (p q : Position), s.positions[i]? = some p → t.positions[i]? = some q → q = { p with
          pending := if s.positionOf w.tag = some i then (t.pendingReason p).isSome else p.pending }) ∧
        t.positions.length = s.positions.length ∧
        t = { s with
          pl := s.pl.ended t.pl, dl := s.dl.ended t.dl, sl := s.sl.ended t.sl
          nv := { s.nv with index := t.nv.index, counter := v + 1 }
          pool := { t.pool with retired := s.pool.retired }, nvPort := t.nvPort, positions := t.positions
          changes := t.changes, postWaiters := t.postWaiters } ∧
        (∀ j, (s.port l).job = some j → j.work = .write w → w.provisional = false → j.detached = false →
          s.nvPort.current = some ⟨⟨l, .swap⟩, true⟩ →
          t.changes = s.changes ∧ t.postWaiters = s.postWaiters ∧ t.nvPort = { s.nvPort with current := none } ∧
          (∀ m, m ≠ l → t.port m = { s.port m with flags := (t.port m).flags }) ∧
          (t.port l).job = none ∧ (t.port l).hasFlag .jobDone = true ∧
          (t.port l).record = ⟨.done, .none, j.committed,
            .write w.tag w.phase w.written.length w.retired (some v)⟩ ∧
          (∀ k, k ∈ t.pool.free ↔ k ∈ s.pool.free ∨ ∃ e, s.findEntry w.tag = some e ∧ k ∈ e.cells) ∧
          (watched → ∀ (m : Link) (n : Notice), (m ≠ l ∨ n ≠ .jobDone) →
            (t.port m).hasFlag n = (s.port m).hasFlag n)) ∧
        (∀ j, (s.port l).job = some j → j.work = .write w → w.provisional = false → j.detached = true →
          s.nvPort.current = some ⟨⟨l, .swap⟩, true⟩ →
          t.changes = s.changes ∧ t.postWaiters = s.postWaiters ∧ t.nvPort = { s.nvPort with current := none } ∧
          (∀ m, t.port m = { s.port m with
            job := if m = l then none else (s.port m).job, flags := (t.port m).flags }) ∧
          (t.port l).hasFlag .jobDone = (s.port l).hasFlag .jobDone ∧
          (watched → ∀ m, (t.port m).flags = (s.port m).flags) ∧
          (∀ k, k ∈ t.pool.free ↔ k ∈ s.pool.free ∨ ∃ e, s.findEntry w.tag = some e ∧ k ∈ e.cells)) ∧
        (s.nvPort.current = some ⟨⟨l, .swap⟩, false⟩ →
          t.changes = s.changes ∧ t.postWaiters = s.postWaiters ∧
          t.nvPort = { s.nvPort with current := none, orphan := none } ∧
          (∀ m, t.port m = { s.port m with flags := (t.port m).flags }) ∧
          (watched → ∀ m, (t.port m).flags = (s.port m).flags) ∧
          (∀ k, k ∈ t.pool.free ↔ k ∈ s.pool.free ∨ ∃ e, s.findEntry w.tag = some e ∧ k ∈ e.cells))) ∧
    (∀ (tag : Nat) (e : IndexEntry) (j : Job) (live : Bool), s.nvPort.current = some ⟨⟨l, .remove tag⟩, live⟩ →
      (s.port l).job = some j → s.findEntry tag = some e →
      ∃ t, exec .eraseWriteComplete s = .next t ∧ t.nvPort.current = none ∧ t.findEntry tag = none ∧
        (∀ other, other ≠ tag → t.findEntry other = s.findEntry other) ∧ (∀ x ∈ t.nv.index, x.tag ≠ tag) ∧
        (∀ k, k ∈ t.pool.free ↔ k ∈ s.pool.free ∨ k ∈ e.cells) ∧ (t.port l).job = none ∧
        (∀ c, chainOf t.pool.chain c = if c ∈ e.cells then .free else chainOf s.pool.chain c) ∧
        (∀ c, mapGet c t.pool.image = if c ∈ e.cells then none else mapGet c s.pool.image) ∧
        (∀ x, x ∈ t.nv.index ↔ x ∈ s.nv.index ∧ x.tag ≠ tag) ∧
        (∀ m, m ≠ l → t.port m = { s.port m with flags := (t.port m).flags }) ∧
        (j.detached = false → (t.port l).hasFlag .jobDone = true ∧
          (t.port l).record = ⟨.done, .none, j.committed, .erase tag (some e.cells.length)⟩) ∧
        (j.detached = true → (t.port l).record = (s.port l).record ∧
          (t.port l).hasFlag .jobDone = (s.port l).hasFlag .jobDone) ∧
        (watched → ∀ (m : Link) (n : Notice), (m ≠ l ∨ n ≠ .jobDone) →
          (t.port m).hasFlag n = (s.port m).hasFlag n) ∧
        (∀ (i : Nat) (p q : Position), s.positions[i]? = some p → t.positions[i]? = some q → q = { p with
          pending := if s.positionOf tag = some i then (t.pendingReason p).isSome else p.pending }) ∧
        t.positions.length = s.positions.length ∧
        t = { s with
          pl := s.pl.ended t.pl, dl := s.dl.ended t.dl, sl := s.sl.ended t.sl
          nv := { s.nv with index := t.nv.index }
          pool := { t.pool with retired := s.pool.retired, counter := s.pool.counter }
          nvPort := { s.nvPort with current := none }, positions := t.positions })

/-- An audit's check read counts one cell, and the reading goes on to the next cell of the chain while R19's tests
hold; the first that fails, by the check, the kind, the tag, the two entries or the chain's end, asks for the status
write, whose completion makes the record DAMAGED and re-evaluates PENDING of the position of its tag; after a sound record
or that write the audit goes on to the next record it may read, or ends, and such a write in progress takes effect although
its audit has ended (R19, R20, R37; that the tag being read counts as the last handled is log 37, and what the write of an
ended audit raises is log 27). A saved settings cell goes on to the next, is rewritten at most three times, and ends the
job with cell 7; a save that LINK RESET detached goes on so too, and its result and notice are dropped (R22). No other
notice changes. -/
def Obligations.AuditAndSaveGoOnRequestByRequest : Prop :=
  ∀ (s : State) (l : Link),
    let damaged (tag : Nat) (t : State) : Prop :=
      t.pool.index = s.pool.index.map (fun e => if e.tag = tag then { e with status := .damaged } else e) ∧
      t.nv.index = s.nv.index.map (fun e => if e.tag = tag then { e with status := .damaged } else e) ∧
      t.sl.hasFlag .recordDamaged = true ∧
      (∀ (i : Nat) (p q : Position), s.positions[i]? = some p → t.positions[i]? = some q → q = { p with
        pending := if s.positionOf tag = some i then (t.pendingReason p).isSome else p.pending }) ∧
      t.positions.length = s.positions.length
    (∀ tag : Nat, s.nvPort.current = some ⟨⟨l, .damage tag⟩, false⟩ →
      ∃ t, exec .auditStatusWriteComplete s = .next t ∧ damaged tag t ∧
        (∀ n : Notice, n ≠ .recordDamaged → t.sl.hasFlag n = s.sl.hasFlag n) ∧
        t = { s with
          sl := { s.sl with flags := t.sl.flags }, nv := { s.nv with index := t.nv.index }
          pool := { s.pool with index := t.pool.index }, nvPort := { s.nvPort with current := none }
          positions := t.positions }) ∧
    ∀ (op : NvOp) (j : Job), s.nvPort.current = some ⟨⟨l, op⟩, true⟩ → (s.port l).job = some j →
    (∀ (a : AuditWork) (r : AuditRead) (cell : Nat) (good : Bool), op = .checkRead cell → j.work = .audit a →
      j.detached = false → a.reading = some r →
      let held := mapGet r.cell s.nv.cells
      let entry := chainOf s.nv.chain r.cell
      let counted : AuditWork := { a with checked := a.checked + 1 }
      let fits (due : List CellKind) : Prop := good = true ∧ chainOf s.pool.chain r.cell = entry ∧
        ((r.visited = [] ∧ ∃ batch base p, held = some (.head r.tag batch base p) ∧
            due = (if p.survey then [.survey] else []) ++ (if p.drift then [.drift] else []) ++
              (if p.trim then [.trim] else [])) ∨
          (r.visited ≠ [] ∧ ∃ g, held = some g ∧ r.expected = g.kind :: due))
      let goesTo (c : Nat) (due : List CellKind) : Prop := fits due ∧ entry = .next c ∧ c < 1536 ∧
        c ∉ s.pool.retired ∧ c ≠ r.cell ∧ c ∉ r.visited ∧ r.visited.length < 3
      (∀ c due, goesTo c due → exec (.auditCheckReadComplete good) s = .next
        { s.setPort l { s.port l with job := some { j with work := .audit { counted with
            reading := some { r with cell := c, visited := r.cell :: r.visited, expected := due } } } } with
          nvPort := { s.nvPort with current := none, waiting := s.nvPort.waiting ++ [⟨l, .checkRead c⟩] } }) ∧
      (fits [] → entry = .last → (∀ e ∈ s.pool.index, a.last < e.tag → e.tag ≠ r.tag) →
        ∃ t, exec (.auditCheckReadComplete good) s = .next t ∧ s.AuditGoesOn t l j counted ∧
          (∀ n : Notice, n ≠ .jobDone → (t.port l).hasFlag n = (s.port l).hasFlag n) ∧
          t = { s.setPort l ((s.port l).ended (t.port l)) with
            nvPort := { s.nvPort with current := none, waiting := t.nvPort.waiting } }) ∧
      (¬(fits [] ∧ entry = .last) → (∀ c due, ¬goesTo c due) → exec (.auditCheckReadComplete good) s = .next
        { s.setPort l { s.port l with job := some { j with work := .audit { counted with
            reading := some { r with damaging := true } } } } with
          nvPort := { s.nvPort with current := none, waiting := s.nvPort.waiting ++ [⟨l, .damage r.tag⟩] } })) ∧
    (∀ (tag : Nat) (a : AuditWork), op = .damage tag → j.work = .audit a → j.detached = false →
      (∀ e ∈ s.pool.index, a.last < e.tag → a.reading.map AuditRead.tag ≠ some e.tag) →
      ∃ t, exec .auditStatusWriteComplete s = .next t ∧ damaged tag t ∧
        s.AuditGoesOn t l j { a with damaged := a.damaged + 1 } ∧
        (∀ (m : Link) (n : Notice), (m ≠ l ∨ n ≠ .jobDone) → (m ≠ .sl ∨ n ≠ .recordDamaged) →
          (t.port m).hasFlag n = (s.port m).hasFlag n) ∧
        t = { s with
          pl := s.pl.ended t.pl, dl := s.dl.ended t.dl, sl := s.sl.ended t.sl
          nv := { s.nv with index := t.nv.index }, pool := { s.pool with index := t.pool.index }
          nvPort := { s.nvPort with current := none, waiting := t.nvPort.waiting }, positions := t.positions } ∧
        ∀ m, m ≠ l → t.port m = { s.port m with flags := (t.port m).flags }) ∧
    (∀ (c : Nat) (img : Settings) (v : SaveWork) (good : Bool), op = .settings c img → j.work = .save v →
      ∃ t, exec (.settingsCellWriteComplete good) s = .next t ∧
        t = { s.setPort l ((s.port l).ended (t.port l)) with
          nv := { s.nv with settings := s.nv.settings.set c (if good then some img else none) }
          nvPort := { s.nvPort with current := none, waiting := t.nvPort.waiting } } ∧
        (let ends (record : JobRecord) : Prop := (t.port l).job = none ∧ t.nvPort.waiting = s.nvPort.waiting ∧
          (j.detached = false → (t.port l).hasFlag .jobDone = true ∧ (t.port l).record = record ∧
            ∀ n : Notice, n ≠ .jobDone → (t.port l).hasFlag n = (s.port l).hasFlag n) ∧
          (j.detached = true → (t.port l).record = (s.port l).record ∧ (t.port l).flags = (s.port l).flags)
         let goesOn (u : SaveWork) : Prop := (t.port l).job = some { j with work := .save u } ∧
          (t.port l).record = (s.port l).record ∧ (t.port l).flags = (s.port l).flags ∧
          t.nvPort.waiting = s.nvPort.waiting ++ [⟨l, .settings u.cell v.image⟩]
         (good = true → v.cell = 7 → ends ⟨.done, .none, j.committed, .save (v.written + 1) v.rewrites⟩) ∧
         (good = true → v.cell ≠ 7 →
          goesOn { v with written := v.written + 1, cell := v.cell + 1, cellRewrites := 0 }) ∧
         (good = false → v.cellRewrites < 3 →
          goesOn { v with cellRewrites := v.cellRewrites + 1, rewrites := v.rewrites + 1 }) ∧
         (good = false → 3 ≤ v.cellRewrites →
          ends ⟨.failed, .verifyFailed, j.committed, .save v.written v.rewrites⟩)))

/-! ### Targets, frame ticks and ramps (06, 07) -/

/-- The target of an occupied position: each matrix term is the source term times its row's drift multiplier, rounded
halves away from zero and clamped, the trims turned with the tile, the level the override or 1000; any other position
has the EMPTY target. A computation keeps the applied value, restarts the ramp, copies E and H, and takes the position
out of the drift-dirty set (R107 to R110, R129). -/
def Obligations.TargetsAreComputed : Prop :=
  (∀ (term m : Int), let v := roundDiv (term * m) 1000000
    (0 ≤ term * m → 2000000 * v ≤ 2 * (term * m) + 1000000 ∧ 2 * (term * m) + 1000000 < 2000000 * (v + 1)) ∧
    (term * m < 0 → 2000000 * (v - 1) < 2 * (term * m) - 1000000 ∧ 2 * (term * m) - 1000000 ≤ 2000000 * v)) ∧
  (∀ (tiles : List TileStatus) (p : Position), (p.hung.occupant = none ∨ p.adopted = none) →
    targetOf tiles p = (.emptyTarget, false)) ∧
  (∀ (tiles : List TileStatus) (p : Position) (t : TileAt) (a : Adopted), p.hung.occupant = some t →
    p.adopted = some a →
    let e : Option Int := (statusOf tiles t.tag).bind TileStatus.e
    let hours : Int := (((statusOf tiles t.tag).bind TileStatus.h).getD 0 : Nat)
    let heat : Int := (e.map (fun v => v - a.coef.tref)).getD 0
    let mul (k ag : Int) : Int := 1000000 + 10 * k * heat + ag * hours
    let m : Matrix := a.survey.getD ⟨a.base.r, a.base.g, a.base.b, 0, 0, 0, 0, 0, 0⟩
    let red (x : Int) := roundDiv (x * mul a.coef.kR a.coef.aR) 1000000
    let green (x : Int) := roundDiv (x * mul a.coef.kG a.coef.aG) 1000000
    let blue (x : Int) := roundDiv (x * mul a.coef.kB a.coef.aB) 1000000
    let gain (x : Int) : Int := max 0 (min x 4095)
    let cross (x : Int) : Int := max (-1024) (min x 1023)
    let s : Trims := a.trim.getD ⟨0, 0, 0, 0⟩
    let turned := t.orientation = .turned
    targetOf tiles p =
      (⟨gain (red m.gR), gain (green m.gG), gain (blue m.gB), cross (red m.xRG), cross (red m.xRB),
        cross (green m.xGR), cross (green m.xGB), cross (blue m.xBR), cross (blue m.xBG),
        if turned then s.tR else s.tL, if turned then s.tL else s.tR, if turned then s.tB else s.tT,
        if turned then s.tT else s.tB, (p.override.map (fun (v : Nat) => (v : Int))).getD 1000⟩,
       decide (gain (red m.gR) ≠ red m.gR ∨ gain (green m.gG) ≠ green m.gG ∨ gain (blue m.gB) ≠ blue m.gB ∨
         cross (red m.xRG) ≠ red m.xRG ∨ cross (red m.xRB) ≠ red m.xRB ∨ cross (green m.xGR) ≠ green m.xGR ∨
         cross (green m.xGB) ≠ green m.xGB ∨ cross (blue m.xBR) ≠ blue m.xBR ∨ cross (blue m.xBG) ≠ blue m.xBG))) ∧
  (∀ (s : State) (ramp i : Nat) (p : Position), s.positions[i]? = some p →
    let t := s.compute ramp i
    t = { s with positions := t.positions, tiles := t.tiles, dirty := s.dirty.filter (fun j => decide (j ≠ i)) } ∧
    t.positions = s.positions.set i { p with
      target := (targetOf s.tiles p).1, clamped := (targetOf s.tiles p).2, remaining := max ramp 1 } ∧
    t.tiles = s.tiles.map (fun x =>
      if p.hung.tag = some x.tag then { x with ePosted := x.e, hPosted := x.h } else x))

/-- Phase 3: with remaining count n each term becomes a + trunc((g - a) / n), between where it was and its target, and
the count n - 1; a target set with ramp r is reached at the r-th step, a ramp of 0 or 1 at the first; a position at
rest is not stepped (R130, R131). A tick with nothing queued and drift held steps exactly the ramps. -/
def Obligations.RampsStepTowardTheirTargets : Prop :=
  (∀ (a g : Int) (n : Nat), 1 ≤ n → min a g ≤ a + (g - a).tdiv n ∧ a + (g - a).tdiv n ≤ max a g) ∧
  (∀ p : Position, (p.remaining = 0 → p.step = p) ∧
    (1 ≤ p.remaining →
      let f (a g : Int) : Int := a + (g - a).tdiv p.remaining
      let a := p.applied
      let g := p.target
      p.step = { p with
        remaining := p.remaining - 1
        applied := ⟨f a.gR g.gR, f a.gG g.gG, f a.gB g.gB, f a.xRG g.xRG, f a.xRB g.xRB, f a.xGR g.xGR,
          f a.xGB g.xGB, f a.xBR g.xBR, f a.xBG g.xBG, f a.tL g.tL, f a.tR g.tR, f a.tT g.tT, f a.tB g.tB,
          f a.level g.level⟩ }) ∧
    (1 ≤ p.remaining → (Nat.repeat Position.step p.remaining p) = { p with applied := p.target, remaining := 0 })) ∧
  (∀ g : Global, (g.remaining = 0 → g.step = g) ∧
    (1 ≤ g.remaining →
      let f (a x : Int) : Int := a + (x - a).tdiv g.remaining
      g.step = { g with
        remaining := g.remaining - 1
        applied := ⟨f g.applied.level g.target.level, f g.applied.r g.target.r, f g.applied.g g.target.g,
          f g.applied.b g.target.b⟩ }) ∧
    (1 ≤ g.remaining → (Nat.repeat Global.step g.remaining g) = { g with applied := g.target, remaining := 0 })) ∧
  (∀ s : State, s.power = .on → s.changes = [] → s.hold = true →
    ∃ t, exec (.frameTick false) s = .next t ∧ t.positions = s.positions.map Position.step ∧
      t.global = s.global.step ∧ t.history = s.history ∧ t.dirty = s.dirty ∧ t.cursor = s.cursor)

/-- The filter takes two agreeing samples; the active level accepted is a tick, which makes the state RUNNING; 100 ms
without one in RUNNING is FRAME_LOST on every link. No tick touches the settings, the records, the non-volatile
memory, the show lock or the hold state (R117, R119; log 4, log 6). -/
def Obligations.FrameEventsFollowTheFilter : Prop :=
  ∀ (s : State) (first : Bool), s.power = .on →
    (∀ level, level = s.frame.settled → exec (.filterClockSample level first) s =
      .next { s with frame := { s.frame with candidate := 0 } }) ∧
    (∀ level, level ≠ s.frame.settled → s.frame.candidate = 0 → exec (.filterClockSample level first) s =
      .next { s with frame := { s.frame with candidate := 1 } }) ∧
    (∀ level, level ≠ s.frame.settled → s.frame.candidate = 1 →
      level ≠ (if s.settings.polarity = .rising then .high else .low) →
      exec (.filterClockSample level first) s =
        .next { s with frame := { s.frame with settled := level, candidate := 0 } }) ∧
    (∀ level, level ≠ s.frame.settled → s.frame.candidate = 1 →
      level = (if s.settings.polarity = .rising then .high else .low) →
      exec (.filterClockSample level first) s = exec (.frameTick first) s) ∧
    (∃ t, exec (.frameTick first) s = .next t ∧ t.frame =
      ⟨.running, true, if s.settings.polarity = .rising then .high else .low, 0⟩ ∧
      t = { s.chainFrom t with
        pl := s.pl.ended t.pl, dl := s.dl.ended t.dl, sl := s.sl.ended t.sl, frame := t.frame, timer := t.timer
        cyclesStarted := t.cyclesStarted, cyclesSkipped := t.cyclesSkipped, overruns := t.overruns
        positions := t.positions, tiles := t.tiles, dirty := t.dirty, cursor := t.cursor, global := t.global
        epoch := t.epoch, digest := t.digest, history := t.history, lastSkipped := t.lastSkipped }) ∧
    (s.frame.state = .lost → exec .frameLost s = .next s) ∧
    (s.frame.state = .running → ∃ t, exec .frameLost s = .next t ∧
      (∀ l n, (t.port l).hasFlag n = ((s.port l).hasFlag n || decide (n = .frameLost))) ∧
      t = { s with
        frame := { s.frame with state := .lost, timerRunning := false }
        pl := { s.pl with flags := t.pl.flags }, dl := { s.dl with flags := t.dl.flags }
        sl := { s.sl with flags := t.sl.flags } })

/-- A tick that moved something served, by whatever entries, drift or ramps, and wherever a FRAME source's pulse falls,
raises EPOCH_READY over a new digest of the
changed positions, and DIGEST_MISSED when the old one was not fully fetched; a tick that moved nothing leaves the digest
as it was (R132 to R135; past the epoch's end, log 14). -/
def Obligations.ChangingTicksBuildADigest : Prop :=
  ∀ (s : State) (first : Bool), s.power = .on →
    ∃ t, exec (.frameTick first) s = .next t ∧ t.positions.length = s.positions.length ∧
      let moved := (List.range s.positions.length).filter (fun i =>
        decide ((t.positions[i]?).map Position.applied ≠ (s.positions[i]?).map Position.applied))
      let globalMoved := t.global.applied ≠ s.global.applied
      ((moved = [] ∧ ¬globalMoved) → t.digest = s.digest ∧ t.epoch = s.epoch ∧
        t.pl.hasFlag .epochReady = s.pl.hasFlag .epochReady ∧
        t.pl.hasFlag .digestMissed = s.pl.hasFlag .digestMissed ∧
        (first = false → s.changes = [] → s.hold = true → ∀ n : Notice, t.pl.hasFlag n = s.pl.hasFlag n)) ∧
      ((moved ≠ [] ∨ globalMoved) →
        (s.epoch ≠ BitVec.allOnes 48 → t.epoch = s.epoch + 1) ∧ t.pl.hasFlag .epochReady = true ∧
        t.pl.hasFlag .digestMissed = (s.pl.hasFlag .digestMissed || !s.digest.fetched.all (fun b => b)) ∧
        t.digest.epoch = t.epoch ∧ t.digest.previous = s.digest.epoch ∧ t.digest.changed = moved.length ∧
        t.digest.globalChanged = decide globalMoved ∧ t.digest.overflow = decide (128 < moved.length) ∧
        (128 < moved.length → t.digest.entries = [] ∧ t.digest.fetched = [false]) ∧
        (moved.length ≤ 128 →
          t.digest.entries.map DigestEntry.position = moved ∧
          (∀ e ∈ t.digest.entries, ∀ p, t.positions[e.position]? = some p → e = p.entry t.tiles e.position) ∧
          t.digest.fetched = List.replicate (max ((moved.length + 15) / 16) 1) false))

/-- Drift-dirty positions are taken up to the budget, first those above the cursor, then the others, and computed with
the drift ramp; on hold none is. A tick with an empty queue takes them, steps every ramp once, and copies the estimates
it used (R97, R107, R127, R130). -/
def Obligations.DriftDirtyPositionsAreTaken : Prop :=
  (∀ s : State, s.power = .on → s.changes = [] → s.hold = false → s.dirty.Pairwise (· < ·) →
    (∀ i ∈ s.dirty, i < s.positions.length) →
    let order := (s.dirty.filter (fun i => decide (s.cursor < i))) ++ (s.dirty.filter (fun i => decide (i ≤ s.cursor)))
    let taken := order.take s.settings.budget
    ∃ t, exec (.frameTick false) s = .next t ∧ t.dirty = s.dirty.filter (fun i => !taken.contains i) ∧
      t.cursor = taken.getLast?.getD s.cursor ∧ t.positions.length = s.positions.length ∧
      (∀ (i : Nat) (p : Position), s.positions[i]? = some p → t.positions[i]? = some (
        if i ∈ taken then { p with
          target := (targetOf s.tiles p).1, clamped := (targetOf s.tiles p).2
          remaining := max s.settings.driftRamp 1 }.step
        else p.step)) ∧
      t.tiles = s.tiles.map (fun x => if ∃ i ∈ taken, (s.positions[i]?).bind (fun p => p.hung.tag) = some x.tag then
        { x with ePosted := x.e, hPosted := x.h } else x) ∧
      t.global = s.global.step ∧ t.history = s.history ∧ t.settings = s.settings) ∧
  ∀ s : State,
    (s.hold = true → s.takeDirty = s) ∧
    (s.hold = false → s.dirty.Pairwise (· < ·) → (∀ i ∈ s.dirty, i < s.positions.length) →
      let order := (s.dirty.filter (fun i => decide (s.cursor < i))) ++ (s.dirty.filter (fun i => decide (i ≤ s.cursor)))
      let taken := order.take s.settings.budget
      s.takeDirty.dirty = s.dirty.filter (fun i => !taken.contains i) ∧
      s.takeDirty.cursor = taken.getLast?.getD s.cursor ∧
      (∀ (i : Nat) (p : Position), s.positions[i]? = some p → s.takeDirty.positions[i]? = some (
        if i ∈ taken then { p with
          target := (targetOf s.tiles p).1, clamped := (targetOf s.tiles p).2
          remaining := max s.settings.driftRamp 1 }
        else p)))

/-- A GLOBAL entry replaces the intent's given fields and restarts the global ramp to the recomputed target; an OVERRIDE
entry sets or clears the override and retargets its position. Nothing but a PLACE posted by a waiting hang is in the
queue after the tick. A tick applies every entry of its queue, oldest first, each over what the ones before it left,
then takes drift and steps the ramps; with the FRAME source's pulse before the commit it does so on the state `u` that the
pulse leaves, in which only the timer and the chain have moved (R75, R111, R112, R115, R121, R124, R125; that the pulse's
place is an operand is log 6). -/
def Obligations.IntentEntriesApplyAtTheTick : Prop :=
  (∀ s : State, s.power = .on → ∃ t, exec (.frameTick false) s = .next t ∧ s.TickPlane t) ∧
  (∀ s : State, s.power = .on → ∃ t u more, exec (.frameTick true) s = .next t ∧ u.TickPlane t ∧
    (s.settings.source = .base ∨ s.timer.state = .stopped → u = s) ∧
    u = { s.chainFrom u with
      timer := u.timer, cyclesStarted := u.cyclesStarted, cyclesSkipped := u.cyclesSkipped, overruns := u.overruns } ∧
    u.changes = s.changes ++ more ∧ more.all Change.isPlace = true) ∧
  (∀ (s : State) (k : Nat),
    let m := s.afterEntries k
    let n := s.afterEntries (k + 1)
    (s.changes.length ≤ k → n = m) ∧
    (∀ (ramp : Nat) (o : IntentOps), s.changes[k]? = some (.global ramp o) →
      let i : Intent := ⟨o.master.getD m.global.intent.master, o.white.getD m.global.intent.white,
        o.trimR.getD m.global.intent.trimR, o.trimG.getD m.global.intent.trimG, o.trimB.getD m.global.intent.trimB⟩
      let w := m.settings.white.getD i.white .unity
      let gain (x : Int) : Int := max 0 (min x 4095)
      n = { m with global := { m.global with
        intent := i, target := ⟨i.master, gain (w.r + i.trimR), gain (w.g + i.trimG), gain (w.b + i.trimB)⟩
        remaining := max ramp 1 } }) ∧
    (∀ (i : Nat) (level : Option Nat) (ramp : Nat) (p : Position), s.changes[k]? = some (.override i level ramp) →
      m.positions[i]? = some p →
      n = { m with
        positions := m.positions.set i { p with
          override := level, target := (targetOf m.tiles { p with override := level }).1
          clamped := (targetOf m.tiles { p with override := level }).2, remaining := max ramp 1 }
        tiles := m.tiles.map (fun x =>
          if p.hung.tag = some x.tag then { x with ePosted := x.e, hPosted := x.h } else x)
        dirty := m.dirty.filter (fun j => decide (j ≠ i)) })) ∧
  ∀ s : State, s.power = .on → s.hold = true →
    (∀ (ramp : Nat) (o : IntentOps), s.changes = [.global ramp o] →
      ∃ t, exec (.frameTick false) s = .next t ∧ t.changes.all Change.isPlace = true ∧
        let w := s.settings.white.getD t.global.intent.white .unity
        let gain (x : Int) : Int := max 0 (min x 4095)
        t.global.intent = ⟨o.master.getD s.global.intent.master, o.white.getD s.global.intent.white,
          o.trimR.getD s.global.intent.trimR, o.trimG.getD s.global.intent.trimG,
          o.trimB.getD s.global.intent.trimB⟩ ∧
        t.global.target = ⟨t.global.intent.master, gain (w.r + t.global.intent.trimR),
          gain (w.g + t.global.intent.trimG), gain (w.b + t.global.intent.trimB)⟩ ∧
        t.global.remaining = max ramp 1 - 1 ∧ t.positions = s.positions.map Position.step ∧
        t.settings = s.settings ∧ t.history = s.history) ∧
    (∀ (i : Nat) (level : Option Nat) (ramp : Nat) (p : Position), s.changes = [.override i level ramp] →
      s.positions[i]? = some p → ∃ t, exec (.frameTick false) s = .next t ∧ t.changes.all Change.isPlace = true ∧
        t.positions = (s.positions.set i { p with
          override := level, target := (targetOf s.tiles { p with override := level }).1
          clamped := (targetOf s.tiles { p with override := level }).2, remaining := max ramp 1 }).map Position.step ∧
        t.global = s.global.step ∧ t.settings = s.settings ∧ t.history = s.history)

/-- A TAKE entry adopts every pending position by its reason and restarts its ramp, over a restore point of the plane as
it stood; the others are left. Onto a full History the point replaces the newest, with HISTORY_OVERRUN. With nothing
pending it has no effect. So it does wherever it stands in the queue (R102 to R105, R107, R125, R126, R141, R142; the
cause of a DEFAULT copy adopted again is log 40). A restore point holds, for every occupied position in ascending order,
its tag, copy and cause (R140). The names used here and wherever else a statement adopts or tests are spelled out first:
what an adoption from a record and from the batch default fills, the record condition, and the five pending reasons in
their order (R102, R103, R105). -/
def Obligations.TakeAdoptsPendingPositions : Prop :=
  (∀ (s : State) (e : IndexEntry) (batch : Nat) (base : Gains) (survey : Option Matrix) (drift : Option DriftCoef)
      (trim : Option Trims) (d : BatchDefault),
    e.cells.map (fun c => mapGet c s.pool.image) =
      (Group.head e.tag batch base ⟨survey.isSome, drift.isSome, trim.isSome⟩ ::
        ((survey.map Group.survey).toList ++ (drift.map Group.drift).toList ++ (trim.map Group.trim).toList)).map some →
    s.settings.batch[batch]? = some d →
    s.adoptRecord e =
      { tag := e.tag, source := .record, revision := e.revision, batch := batch, base := base, survey := survey
        coef := drift.getD d.coef, driftSource := if drift.isSome then .drift else .batch, trim := trim }) ∧
  (∀ (s : State) (tag batch : Nat) (d : BatchDefault), s.settings.batch[batch]? = some d →
    s.adoptDefault tag batch =
      { tag := tag, source := .default, revision := 0, batch := batch, base := d.base, survey := none
        coef := d.coef, driftSource := .batch, trim := none }) ∧
  (∀ (s : State) (tag : Nat), s.findEntry tag = s.pool.index.find? (fun e => e.tag == tag) ∧
    (s.findEntry tag = none → s.condition tag = .absent) ∧
    ∀ e, s.findEntry tag = some e →
      s.condition tag = if e.status = .damaged then .damaged else .usable e.revision e.status) ∧
  (∀ (s : State) (a : Adopted) (d : BatchDefault), s.settings.batch[a.batch]? = some d →
    let usable (test : Nat → Bool) : Prop :=
      (s.findEntry a.tag).any (fun e => decide (e.status ≠ .damaged) && test e.revision) = true
    let newRevision := a.source = .record ∧ usable (fun v => decide (v ≠ a.revision))
    let available := a.source = .default ∧ usable (fun _ => true)
    let absent := a.source = .record ∧ s.findEntry a.tag = none
    let damaged := a.source = .record ∧ (s.findEntry a.tag).map IndexEntry.status = some .damaged
    let changed := a.source = .default ∧ a.base ≠ d.base ∨ a.driftSource = .batch ∧ a.coef ≠ d.coef
    (newRevision → s.reasonOf a = some .newRevision) ∧
    (¬newRevision → available → s.reasonOf a = some .recordAvailable) ∧
    (¬newRevision → ¬available → absent → s.reasonOf a = some .recordAbsent) ∧
    (¬newRevision → ¬available → ¬absent → damaged → s.reasonOf a = some .recordDamaged) ∧
    (¬newRevision → ¬available → ¬absent → ¬damaged → changed → s.reasonOf a = some .batchChanged) ∧
    (¬newRevision → ¬available → ¬absent → ¬damaged → ¬changed → s.reasonOf a = none)) ∧
  (∀ (s : State) (p : Position),
    (p.hung = .empty → s.pendingReason p = none) ∧ (∀ u, p.hung = .duplicate u → s.pendingReason p = none) ∧
    ∀ (u : TileAt) (a : Adopted), p.adopted = some a → (p.hung = .placed u ∨ ∃ c, p.hung = .unrecorded u c) →
      s.pendingReason p = s.reasonOf a) ∧
  (∀ s : State,
    s.restorePoint.map PosRecord.position = (List.range s.positions.length).filter (fun i =>
      ((s.positions[i]?).bind (fun p => p.hung.occupant)).isSome && ((s.positions[i]?).bind Position.adopted).isSome) ∧
    ∀ r ∈ s.restorePoint, ∃ p u, s.positions[r.position]? = some p ∧ p.hung.occupant = some u ∧ r.tag = u.tag ∧
      p.adopted = some r.copy ∧ r.cause = p.hung.cause) ∧
  (∀ (s : State) (k ramp : Nat), s.changes[k]? = some (.take ramp) →
    let m := s.afterEntries k
    let n := s.afterEntries (k + 1)
    ((∀ p ∈ m.positions, m.pendingReason p = none) → n = m) ∧
    ((∃ p ∈ m.positions, m.pendingReason p ≠ none) →
      n.history = m.restorePoint :: (if m.history.length < 4 then m.history else m.history.tail) ∧
      n.dl.hasFlag .historyOverrun = (m.dl.hasFlag .historyOverrun || decide (4 ≤ m.history.length)) ∧
      n = { m with
        positions := n.positions, tiles := n.tiles, dirty := n.dirty, history := n.history
        dl := { m.dl with flags := n.dl.flags } }) ∧
    (∀ i, i ∈ n.dirty ↔ i ∈ m.dirty ∧ ∀ p, m.positions[i]? = some p → m.pendingReason p = none) ∧
    n.positions.length = m.positions.length ∧
    (∀ (i : Nat) (p : Position), m.positions[i]? = some p → m.pendingReason p = none → n.positions[i]? = some p) ∧
    (∀ (i : Nat) (p : Position) (u : TileAt) (a : Adopted) (r : Reason), m.positions[i]? = some p →
      p.hung.occupant = some u → p.adopted = some a → m.pendingReason p = some r →
      ∃ copy cause, n.positions[i]? = some { p with
          hung := if copy.source = .record then .placed u else .unrecorded u cause
          adopted := some copy, pending := false, remaining := max ramp 1
          target := (targetOf m.tiles { p with hung := .placed u, adopted := some copy }).1
          clamped := (targetOf m.tiles { p with hung := .placed u, adopted := some copy }).2 } ∧
        (match r, a.source with
         | .recordAbsent, _ => cause = .noRecord ∧ copy = m.adoptDefault a.tag a.batch
         | .recordDamaged, _ => cause = .damaged ∧ copy = m.adoptDefault a.tag a.batch
         | .batchChanged, .default =>
           cause = (if m.condition a.tag = .damaged then .damaged else .noRecord) ∧ copy = m.adoptDefault a.tag a.batch
         | _, _ => ∃ e, m.findEntry a.tag = some e ∧ copy = m.adoptRecord e))) ∧
  ∀ (s : State) (ramp : Nat), s.power = .on → s.hold = true → s.changes = [.take ramp] →
    ∃ t, exec (.frameTick false) s = .next t ∧ t.changes.all Change.isPlace = true ∧ t.tiles.length = s.tiles.length ∧
      ((∀ p ∈ s.positions, s.pendingReason p = none) → t.history = s.history ∧
        t.positions = s.positions.map Position.step) ∧
      ((∃ p ∈ s.positions, s.pendingReason p ≠ none) →
        t.history = s.restorePoint :: (if s.history.length < 4 then s.history else s.history.tail) ∧
        (4 ≤ s.history.length → t.dl.hasFlag .historyOverrun = true) ∧
        (s.history.length < 4 → t.dl.hasFlag .historyOverrun = s.dl.hasFlag .historyOverrun)) ∧
      (∀ (i : Nat) (p : Position), s.positions[i]? = some p → s.pendingReason p = none →
        t.positions[i]? = some p.step) ∧
      (∀ (i : Nat) (p : Position) (u : TileAt) (a : Adopted) (r : Reason), s.positions[i]? = some p →
        p.hung.occupant = some u → p.adopted = some a → s.pendingReason p = some r →
        ∃ q copy, t.positions[i]? = some q ∧ q.adopted = some copy ∧ q.override = p.override ∧ q.pending = false ∧
          q.remaining = max ramp 1 - 1 ∧
          (match r, a.source with
           | .recordAbsent, _ => q.hung = .unrecorded u .noRecord ∧ copy = s.adoptDefault a.tag a.batch
           | .recordDamaged, _ => q.hung = .unrecorded u .damaged ∧ copy = s.adoptDefault a.tag a.batch
           | .batchChanged, .default =>
             q.hung = .unrecorded u (if s.condition a.tag = .damaged then .damaged else .noRecord) ∧
             copy = s.adoptDefault a.tag a.batch
           | _, _ => q.hung = .placed u ∧ ∃ e, s.findEntry a.tag = some e ∧ copy = s.adoptRecord e))

/-- A REVERT entry pops the newest restore point: a position with the record's tag and another copy takes the record's
copy and restarts its ramp, one with an equal copy is left, and the others are counted as skipped. Over an empty
History it changes nothing but HISTORY_EMPTY. So it does wherever it stands in the queue (R107, R125, R144 to R147). -/
def Obligations.RevertRestoresThePoppedPoint : Prop :=
  (∀ (s : State) (k ramp : Nat), s.changes[k]? = some (.revert ramp) →
    let m := s.afterEntries k
    let n := s.afterEntries (k + 1)
    (m.history = [] → n = { m with dl := { m.dl with flags := n.dl.flags } } ∧
      ∀ x, n.dl.hasFlag x = (m.dl.hasFlag x || decide (x = .historyEmpty))) ∧
    (∀ point rest, m.history = point :: rest → (point.map PosRecord.position).Pairwise (· < ·) →
      n.lastSkipped = (point.filter (fun r =>
        decide (((m.positions[r.position]?).bind (fun p => p.hung.tag)) ≠ some r.tag))).length ∧
      n = { m with
        history := rest, lastSkipped := n.lastSkipped, positions := n.positions, tiles := n.tiles, dirty := n.dirty } ∧
      n.positions.length = m.positions.length ∧
      (∀ (i : Nat) (p : Position), m.positions[i]? = some p →
        ((∀ r ∈ point, r.position = i → p.hung.tag ≠ some r.tag ∨ p.adopted = some r.copy) →
          n.positions[i]? = some p ∧ (i ∈ n.dirty ↔ i ∈ m.dirty)) ∧
        (∀ (r : PosRecord) (u : TileAt), r ∈ point → r.position = i → p.hung.occupant = some u → u.tag = r.tag →
          p.adopted ≠ some r.copy → i ∉ n.dirty ∧ ∃ q, n.positions[i]? = some q ∧ q = { p with
            adopted := some r.copy, remaining := max ramp 1, pending := (m.reasonOf r.copy).isSome
            target := (targetOf m.tiles { p with adopted := some r.copy }).1
            clamped := (targetOf m.tiles { p with adopted := some r.copy }).2
            hung := match r.copy.source with
              | .record => .placed u
              | .default => .unrecorded u (match m.condition r.tag with
                | .damaged => .damaged
                | .absent => .noRecord
                | .usable _ _ => r.cause.getD .noRecord) })))) ∧
  ∀ (s : State) (ramp : Nat), s.power = .on → s.hold = true → s.changes = [.revert ramp] →
    ∃ t, exec (.frameTick false) s = .next t ∧ t.changes.all Change.isPlace = true ∧
      (s.history = [] → t.history = [] ∧ t.lastSkipped = s.lastSkipped ∧ t.dl.hasFlag .historyEmpty = true ∧
        t.positions = s.positions.map Position.step) ∧
      (∀ point rest, s.history = point :: rest → (point.map PosRecord.position).Pairwise (· < ·) →
        t.history = rest ∧
        t.lastSkipped = (point.filter (fun r =>
          decide (((s.positions[r.position]?).bind (fun p => p.hung.tag)) ≠ some r.tag))).length ∧
        (∀ (i : Nat) (p : Position), s.positions[i]? = some p →
          ((∀ r ∈ point, r.position = i → p.hung.tag ≠ some r.tag ∨ p.adopted = some r.copy) →
            t.positions[i]? = some p.step) ∧
          (∀ (r : PosRecord) (u : TileAt), r ∈ point → r.position = i → p.hung.occupant = some u → u.tag = r.tag →
            p.adopted ≠ some r.copy → ∃ q, t.positions[i]? = some q ∧ q.adopted = some r.copy ∧
              q.override = p.override ∧ q.remaining = max ramp 1 - 1 ∧
              q.hung = (match r.copy.source with
                | .record => .placed u
                | .default => .unrecorded u (match s.condition r.tag with
                  | .damaged => .damaged
                  | .absent => .noRecord
                  | .usable _ _ => r.cause.getD .noRecord)))))

/-- A PLACE entry, wherever it stands in the queue, lays its staged map over the live map in one event: a tag that stays
or moves keeps its copy and its cause; a new tag adopts its record or the batch default; vacated and EMPTY positions are
EMPTY; overrides stay; every position whose entry changed in its state, its tag or its orientation is retargeted with the
hang ramp, and the others keep their target and ramp; the Tile Status table follows; and the hang ends with its counts
(R40, R76, R77, R78, R125; that a DUPLICATE entry with another tag or orientation is a changed one is log 25, what the
placed count takes in is log 35). A position that the hang does not decide stands, unless the tag it shows, DUPLICATE or
not, is placed elsewhere: then it is EMPTY (R68, R72). -/
def Obligations.PlaceAppliesTheStagedMap : Prop :=
  ∀ (s : State) (k : Nat) (l : Link) (ramp : Nat) (staged : List (Nat × Hung)) (seen : List TileSeen) (j : Job)
    (h : HangWork), s.power = .on → s.changes[k]? = some (.place l ramp staged seen) →
    let m := s.afterEntries k
    let n := s.afterEntries (k + 1)
    (m.port l).job = some j → j.work = .hang h →
    let changed (a b : Hung) : Prop := a.state ≠ b.state ∨
      a.tile.map (fun u => (u.tag, u.orientation)) ≠ b.tile.map (fun u => (u.tag, u.orientation))
    (∃ t, exec (.frameTick false) s = .next t ∧ s.TickPlane t) ∧
    n = { m with
      pl := m.pl.ended n.pl, dl := m.dl.ended n.dl, sl := m.sl.ended n.sl
      positions := n.positions, tiles := n.tiles, dirty := n.dirty } ∧
    n.positions.length = m.positions.length ∧
    (∀ (i : Nat) (p : Position), m.positions[i]? = some p → ∃ q, n.positions[i]? = some q ∧
      q.override = p.override ∧ q.applied = p.applied ∧
      (changed p.hung q.hung → q.target = (targetOf n.tiles q).1 ∧ q.clamped = (targetOf n.tiles q).2 ∧
        q.remaining = max ramp 1) ∧
      (¬changed p.hung q.hung → q.target = p.target ∧ q.clamped = p.clamped ∧ q.remaining = p.remaining) ∧
      (i ∈ n.dirty ↔ i ∈ m.dirty ∧ ¬changed p.hung q.hung) ∧
      (mapGet i staged = none → (∀ u, p.hung.tile = some u → ∀ e ∈ staged, e.2.tag ≠ some u.tag) → q = p) ∧
      (mapGet i staged = none → (∃ u, p.hung.tile = some u ∧ ∃ e ∈ staged, e.2.tag = some u.tag) →
        q.hung = .empty ∧ q.adopted = none ∧ q.target = .emptyTarget ∧ q.pending = false) ∧
      (mapGet i staged = some .empty → q.hung = .empty ∧ q.adopted = none ∧ q.pending = false ∧
        (p.hung ≠ .empty → q.target = .emptyTarget ∧ q.remaining = max ramp 1)) ∧
      (∀ u, mapGet i staged = some (.duplicate u) → q.hung = .duplicate u ∧ q.adopted = none ∧ q.pending = false ∧
        (p.hung.state ≠ .duplicate → q.target = .emptyTarget ∧ q.remaining = max ramp 1)) ∧
      (∀ (x : Hung) (u : TileAt), mapGet i staged = some x → x.occupant = some u →
        q.pending = (m.pendingReason q).isSome ∧
        (∀ (a : Nat) (r : Position), m.positionOf u.tag = some a → m.positions[a]? = some r →
          q.adopted = r.adopted ∧ q.hung = (match r.hung.cause with
            | none => .placed u
            | some c => .unrecorded u c)) ∧
        (m.positionOf u.tag = none →
          (∀ e, m.findEntry u.tag = some e → e.status ≠ .damaged →
            q.hung = .placed u ∧ q.adopted = some (m.adoptRecord e)) ∧
          (∀ e, m.findEntry u.tag = some e → e.status = .damaged → q.hung = .unrecorded u .damaged ∧
            q.adopted = some (m.adoptDefault u.tag (seenBatch seen u.tag))) ∧
          (m.findEntry u.tag = none →
            q.hung = .unrecorded u (if x.cause = some .noSpace then .noSpace else .noRecord) ∧
            q.adopted = some (m.adoptDefault u.tag (seenBatch seen u.tag)))))) ∧
    (∀ tag : Nat, (∃ x ∈ n.tiles, x.tag = tag) ↔ ∃ p ∈ n.positions, p.hung.tag = some tag) ∧
    ((m.tiles.map TileStatus.tag).Pairwise (· < ·) → ∀ x ∈ n.tiles,
      (∀ y, statusOf m.tiles x.tag = some y → x.e = y.e ∧ x.h = y.h ∧ x.miss = y.miss ∧ x.fresh = y.fresh) ∧
      (statusOf m.tiles x.tag = none → x.e = none ∧ x.h = none ∧ x.miss = 0 ∧ x.fresh = 0)) ∧
    (n.port l).job = none ∧ (j.detached = true → (n.port l).record = (m.port l).record) ∧
    (j.detached = false → (n.port l).hasFlag .jobDone = true ∧ (n.port l).record =
      ⟨if ∃ b ∈ h.branches, b.outcome.isFailed = true then .donePartial else .done, .none, j.committed,
        .hang h.ramp h.policy h.phase (h.branches.map (fun b => ⟨b.branch, b.outcome, b.over128⟩)) { h.counts with
          placed := ((List.range n.positions.length).filter (fun i =>
            ((n.positions[i]?).bind (fun q => q.hung.tag)).isSome &&
              decide (∃ b ∈ h.branches, i ∈ m.routePositions b.route))).length
          moved := (staged.filter (fun e =>
            (e.2.tag.bind m.positionOf).any (fun i => decide (i ≠ e.1)))).length
          unrecorded := ((List.range n.positions.length).filter (fun i =>
            (mapGet i staged).isSome &&
              decide ((n.positions[i]?).map (fun q => q.hung.state) = some .unrecorded))).length }⟩)

/-! ### Whole-machine rules -/

/-- Only a tick, a power event, the scan's end, WALL RESET and SET GEOMETRY move what is served or the History; a fetch
sets a mark of the digest and nothing else (R129, R132, R136 to R139). -/
def Obligations.ServedValuesMoveOnlyAtTicks : Prop :=
  ∀ (c : Instr) (s t : State), exec c s = .next t →
    (∀ b, c ≠ .frameTick b) → (∀ v b, c ≠ .filterClockSample v b) → c ≠ .powerUp → c ≠ .powerLoss →
    (∀ v x y z, c ≠ .startUpScanEnd v x y z) → (∀ l f, c ≠ .wallReset l f) →
    t.epoch = s.epoch ∧ t.global = s.global ∧ t.lastSkipped = s.lastSkipped ∧
    t.digest = { s.digest with fetched := t.digest.fetched } ∧
    ((∀ l f, c ≠ .fetchDigest l f) → t.digest = s.digest) ∧
    ((∀ l f, c ≠ .setGeometry l f) → t.plane = s.plane ∧ t.history = s.history)

/-- Whenever a ramp remaining is zero the applied value equals the target, after every step (R130, R131). -/
def Obligations.RestMeansAtTarget : Prop :=
  ∀ (s t : State), s.AtRest → step s = .next t → t.AtRest

/-- Every port keeps its slot and READY in line with its state, and fewer than sixteen bits of an incomplete word (R165,
R166, R171). -/
def Obligations.PortsStayConsistent : Prop :=
  ∀ (s t : State), s.PortsConsistent → step s = .next t → t.PortsConsistent

/-- The queues and the History keep within their places (R46, R121, R139); the map keeps C x R positions and the dirty
set names only positions (R28, R96); the digest is OVERFLOW with no entries, or at most 128 entries of rising positions
in 1 to 8 parts (R133). -/
def Obligations.QueuesGridAndDigestKeepTheirBounds : Prop :=
  (∀ (s t : State), s.Bounded → step s = .next t → t.Bounded) ∧
  (∀ (s t : State), s.Gridded → step s = .next t → t.Gridded) ∧
  ∀ (s t : State), s.DigestSound → step s = .next t → t.DigestSound

/-- Every table keeps its canonical form: the free list, the Tag Index and the other tables strictly rising (R2, R6,
R96; log 11). -/
def Obligations.TablesStayCanonical : Prop :=
  ∀ (s t : State), s.Canonical → step s = .next t → t.Canonical

/-- The state after reset meets the invariants (log 8). -/
def Obligations.ResetMeetsTheInvariants : Prop :=
  State.reset.Bounded ∧ State.reset.AtRest ∧ State.reset.PortsConsistent ∧ State.reset.Gridded ∧
    State.reset.Canonical ∧ State.reset.DigestSound
end

