-- ==== Sys2Proof/Laws/State.lean ====
section
/-! SUPPORT. One lemma per field of State for the two updates every meaning makes: a port replaced, a notice raised.
-/
namespace Sys2Proof.Machine

/-! ### A port replaced -/

@[simp] theorem State.port_setPort (s : State) (l : Link) (p : Port) : (s.setPort l p).port l = p := by
  cases l <;> rfl

theorem State.port_setPort_of_ne (s : State) (l m : Link) (p : Port) (h : m ≠ l) :
    (s.setPort l p).port m = s.port m := by
  cases l <;> cases m <;> first | rfl | exact absurd rfl h

@[simp] theorem State.setPort_setPort (s : State) (l : Link) (p q : Port) :
    (s.setPort l p).setPort l q = s.setPort l q := by
  cases l <;> rfl

@[simp] theorem State.setPort_port (s : State) (l : Link) : s.setPort l (s.port l) = s := by
  cases l <;> rfl

@[simp] theorem State.setPort_power (s : State) (l : Link) (p : Port) : (s.setPort l p).power = s.power := by
  cases l <;> rfl
@[simp] theorem State.setPort_showLock (s : State) (l : Link) (p : Port) : (s.setPort l p).showLock = s.showLock := by
  cases l <;> rfl
@[simp] theorem State.setPort_nv (s : State) (l : Link) (p : Port) : (s.setPort l p).nv = s.nv := by
  cases l <;> rfl
@[simp] theorem State.setPort_pool (s : State) (l : Link) (p : Port) : (s.setPort l p).pool = s.pool := by
  cases l <;> rfl
@[simp] theorem State.setPort_nvPort (s : State) (l : Link) (p : Port) : (s.setPort l p).nvPort = s.nvPort := by
  cases l <;> rfl
@[simp] theorem State.setPort_settings (s : State) (l : Link) (p : Port) : (s.setPort l p).settings = s.settings := by
  cases l <;> rfl
@[simp] theorem State.setPort_positions (s : State) (l : Link) (p : Port) : (s.setPort l p).positions = s.positions := by
  cases l <;> rfl
@[simp] theorem State.setPort_tiles (s : State) (l : Link) (p : Port) : (s.setPort l p).tiles = s.tiles := by
  cases l <;> rfl
@[simp] theorem State.setPort_branches (s : State) (l : Link) (p : Port) : (s.setPort l p).branches = s.branches := by
  cases l <;> rfl
@[simp] theorem State.setPort_wire (s : State) (l : Link) (p : Port) : (s.setPort l p).wire = s.wire := by
  cases l <;> rfl
@[simp] theorem State.setPort_orders (s : State) (l : Link) (p : Port) : (s.setPort l p).orders = s.orders := by
  cases l <;> rfl
@[simp] theorem State.setPort_owed (s : State) (l : Link) (p : Port) : (s.setPort l p).owed = s.owed := by
  cases l <;> rfl
@[simp] theorem State.setPort_spaceWaiters (s : State) (l : Link) (p : Port) : (s.setPort l p).spaceWaiters = s.spaceWaiters := by
  cases l <;> rfl
@[simp] theorem State.setPort_idleWaits (s : State) (l : Link) (p : Port) : (s.setPort l p).idleWaits = s.idleWaits := by
  cases l <;> rfl
@[simp] theorem State.setPort_timer (s : State) (l : Link) (p : Port) : (s.setPort l p).timer = s.timer := by
  cases l <;> rfl
@[simp] theorem State.setPort_awaiting (s : State) (l : Link) (p : Port) : (s.setPort l p).awaiting = s.awaiting := by
  cases l <;> rfl
@[simp] theorem State.setPort_cyclesStarted (s : State) (l : Link) (p : Port) : (s.setPort l p).cyclesStarted = s.cyclesStarted := by
  cases l <;> rfl
@[simp] theorem State.setPort_cyclesSkipped (s : State) (l : Link) (p : Port) : (s.setPort l p).cyclesSkipped = s.cyclesSkipped := by
  cases l <;> rfl
@[simp] theorem State.setPort_overruns (s : State) (l : Link) (p : Port) : (s.setPort l p).overruns = s.overruns := by
  cases l <;> rfl
@[simp] theorem State.setPort_resultsDiscarded (s : State) (l : Link) (p : Port) : (s.setPort l p).resultsDiscarded = s.resultsDiscarded := by
  cases l <;> rfl
@[simp] theorem State.setPort_hold (s : State) (l : Link) (p : Port) : (s.setPort l p).hold = s.hold := by
  cases l <;> rfl
@[simp] theorem State.setPort_frame (s : State) (l : Link) (p : Port) : (s.setPort l p).frame = s.frame := by
  cases l <;> rfl
@[simp] theorem State.setPort_changes (s : State) (l : Link) (p : Port) : (s.setPort l p).changes = s.changes := by
  cases l <;> rfl
@[simp] theorem State.setPort_postWaiters (s : State) (l : Link) (p : Port) : (s.setPort l p).postWaiters = s.postWaiters := by
  cases l <;> rfl
@[simp] theorem State.setPort_dirty (s : State) (l : Link) (p : Port) : (s.setPort l p).dirty = s.dirty := by
  cases l <;> rfl
@[simp] theorem State.setPort_cursor (s : State) (l : Link) (p : Port) : (s.setPort l p).cursor = s.cursor := by
  cases l <;> rfl
@[simp] theorem State.setPort_global (s : State) (l : Link) (p : Port) : (s.setPort l p).global = s.global := by
  cases l <;> rfl
@[simp] theorem State.setPort_epoch (s : State) (l : Link) (p : Port) : (s.setPort l p).epoch = s.epoch := by
  cases l <;> rfl
@[simp] theorem State.setPort_digest (s : State) (l : Link) (p : Port) : (s.setPort l p).digest = s.digest := by
  cases l <;> rfl
@[simp] theorem State.setPort_history (s : State) (l : Link) (p : Port) : (s.setPort l p).history = s.history := by
  cases l <;> rfl
@[simp] theorem State.setPort_lastSkipped (s : State) (l : Link) (p : Port) : (s.setPort l p).lastSkipped = s.lastSkipped := by
  cases l <;> rfl
@[simp] theorem State.setPort_pending (s : State) (l : Link) (p : Port) : (s.setPort l p).pending = s.pending := by
  cases l <;> rfl

/-! ### A notice raised -/

@[simp] theorem State.raise_port (s : State) (l : Link) (n : Notice) :
    (s.raise l n).port l = (s.port l).raise n := by
  simp [State.raise]

theorem State.raise_port_of_ne (s : State) (l m : Link) (n : Notice) (h : m ≠ l) :
    (s.raise l n).port m = s.port m := by
  simp [State.raise, State.port_setPort_of_ne _ _ _ _ h]

@[simp] theorem State.raise_power (s : State) (l : Link) (n : Notice) : (s.raise l n).power = s.power := by
  simp [State.raise]
@[simp] theorem State.raise_showLock (s : State) (l : Link) (n : Notice) : (s.raise l n).showLock = s.showLock := by
  simp [State.raise]
@[simp] theorem State.raise_nv (s : State) (l : Link) (n : Notice) : (s.raise l n).nv = s.nv := by
  simp [State.raise]
@[simp] theorem State.raise_pool (s : State) (l : Link) (n : Notice) : (s.raise l n).pool = s.pool := by
  simp [State.raise]
@[simp] theorem State.raise_nvPort (s : State) (l : Link) (n : Notice) : (s.raise l n).nvPort = s.nvPort := by
  simp [State.raise]
@[simp] theorem State.raise_settings (s : State) (l : Link) (n : Notice) : (s.raise l n).settings = s.settings := by
  simp [State.raise]
@[simp] theorem State.raise_positions (s : State) (l : Link) (n : Notice) : (s.raise l n).positions = s.positions := by
  simp [State.raise]
@[simp] theorem State.raise_tiles (s : State) (l : Link) (n : Notice) : (s.raise l n).tiles = s.tiles := by
  simp [State.raise]
@[simp] theorem State.raise_branches (s : State) (l : Link) (n : Notice) : (s.raise l n).branches = s.branches := by
  simp [State.raise]
@[simp] theorem State.raise_wire (s : State) (l : Link) (n : Notice) : (s.raise l n).wire = s.wire := by
  simp [State.raise]
@[simp] theorem State.raise_orders (s : State) (l : Link) (n : Notice) : (s.raise l n).orders = s.orders := by
  simp [State.raise]
@[simp] theorem State.raise_owed (s : State) (l : Link) (n : Notice) : (s.raise l n).owed = s.owed := by
  simp [State.raise]
@[simp] theorem State.raise_spaceWaiters (s : State) (l : Link) (n : Notice) : (s.raise l n).spaceWaiters = s.spaceWaiters := by
  simp [State.raise]
@[simp] theorem State.raise_idleWaits (s : State) (l : Link) (n : Notice) : (s.raise l n).idleWaits = s.idleWaits := by
  simp [State.raise]
@[simp] theorem State.raise_timer (s : State) (l : Link) (n : Notice) : (s.raise l n).timer = s.timer := by
  simp [State.raise]
@[simp] theorem State.raise_awaiting (s : State) (l : Link) (n : Notice) : (s.raise l n).awaiting = s.awaiting := by
  simp [State.raise]
@[simp] theorem State.raise_cyclesStarted (s : State) (l : Link) (n : Notice) : (s.raise l n).cyclesStarted = s.cyclesStarted := by
  simp [State.raise]
@[simp] theorem State.raise_cyclesSkipped (s : State) (l : Link) (n : Notice) : (s.raise l n).cyclesSkipped = s.cyclesSkipped := by
  simp [State.raise]
@[simp] theorem State.raise_overruns (s : State) (l : Link) (n : Notice) : (s.raise l n).overruns = s.overruns := by
  simp [State.raise]
@[simp] theorem State.raise_resultsDiscarded (s : State) (l : Link) (n : Notice) : (s.raise l n).resultsDiscarded = s.resultsDiscarded := by
  simp [State.raise]
@[simp] theorem State.raise_hold (s : State) (l : Link) (n : Notice) : (s.raise l n).hold = s.hold := by
  simp [State.raise]
@[simp] theorem State.raise_frame (s : State) (l : Link) (n : Notice) : (s.raise l n).frame = s.frame := by
  simp [State.raise]
@[simp] theorem State.raise_changes (s : State) (l : Link) (n : Notice) : (s.raise l n).changes = s.changes := by
  simp [State.raise]
@[simp] theorem State.raise_postWaiters (s : State) (l : Link) (n : Notice) : (s.raise l n).postWaiters = s.postWaiters := by
  simp [State.raise]
@[simp] theorem State.raise_dirty (s : State) (l : Link) (n : Notice) : (s.raise l n).dirty = s.dirty := by
  simp [State.raise]
@[simp] theorem State.raise_cursor (s : State) (l : Link) (n : Notice) : (s.raise l n).cursor = s.cursor := by
  simp [State.raise]
@[simp] theorem State.raise_global (s : State) (l : Link) (n : Notice) : (s.raise l n).global = s.global := by
  simp [State.raise]
@[simp] theorem State.raise_epoch (s : State) (l : Link) (n : Notice) : (s.raise l n).epoch = s.epoch := by
  simp [State.raise]
@[simp] theorem State.raise_digest (s : State) (l : Link) (n : Notice) : (s.raise l n).digest = s.digest := by
  simp [State.raise]
@[simp] theorem State.raise_history (s : State) (l : Link) (n : Notice) : (s.raise l n).history = s.history := by
  simp [State.raise]
@[simp] theorem State.raise_lastSkipped (s : State) (l : Link) (n : Notice) : (s.raise l n).lastSkipped = s.lastSkipped := by
  simp [State.raise]
@[simp] theorem State.raise_pending (s : State) (l : Link) (n : Notice) : (s.raise l n).pending = s.pending := by
  simp [State.raise]

/-! ### A reply staged -/

@[simp] theorem State.reply_power (s : State) (l : Link) (st : Status) (ws : List Word) :
    (s.reply l st ws).power = s.power := by
  simp [State.reply]
@[simp] theorem State.reply_showLock (s : State) (l : Link) (st : Status) (ws : List Word) :
    (s.reply l st ws).showLock = s.showLock := by
  simp [State.reply]
@[simp] theorem State.reply_nv (s : State) (l : Link) (st : Status) (ws : List Word) :
    (s.reply l st ws).nv = s.nv := by
  simp [State.reply]
@[simp] theorem State.reply_pool (s : State) (l : Link) (st : Status) (ws : List Word) :
    (s.reply l st ws).pool = s.pool := by
  simp [State.reply]
@[simp] theorem State.reply_nvPort (s : State) (l : Link) (st : Status) (ws : List Word) :
    (s.reply l st ws).nvPort = s.nvPort := by
  simp [State.reply]
@[simp] theorem State.reply_settings (s : State) (l : Link) (st : Status) (ws : List Word) :
    (s.reply l st ws).settings = s.settings := by
  simp [State.reply]
@[simp] theorem State.reply_positions (s : State) (l : Link) (st : Status) (ws : List Word) :
    (s.reply l st ws).positions = s.positions := by
  simp [State.reply]
@[simp] theorem State.reply_tiles (s : State) (l : Link) (st : Status) (ws : List Word) :
    (s.reply l st ws).tiles = s.tiles := by
  simp [State.reply]
@[simp] theorem State.reply_branches (s : State) (l : Link) (st : Status) (ws : List Word) :
    (s.reply l st ws).branches = s.branches := by
  simp [State.reply]
@[simp] theorem State.reply_wire (s : State) (l : Link) (st : Status) (ws : List Word) :
    (s.reply l st ws).wire = s.wire := by
  simp [State.reply]
@[simp] theorem State.reply_orders (s : State) (l : Link) (st : Status) (ws : List Word) :
    (s.reply l st ws).orders = s.orders := by
  simp [State.reply]
@[simp] theorem State.reply_owed (s : State) (l : Link) (st : Status) (ws : List Word) :
    (s.reply l st ws).owed = s.owed := by
  simp [State.reply]
@[simp] theorem State.reply_spaceWaiters (s : State) (l : Link) (st : Status) (ws : List Word) :
    (s.reply l st ws).spaceWaiters = s.spaceWaiters := by
  simp [State.reply]
@[simp] theorem State.reply_idleWaits (s : State) (l : Link) (st : Status) (ws : List Word) :
    (s.reply l st ws).idleWaits = s.idleWaits := by
  simp [State.reply]
@[simp] theorem State.reply_timer (s : State) (l : Link) (st : Status) (ws : List Word) :
    (s.reply l st ws).timer = s.timer := by
  simp [State.reply]
@[simp] theorem State.reply_awaiting (s : State) (l : Link) (st : Status) (ws : List Word) :
    (s.reply l st ws).awaiting = s.awaiting := by
  simp [State.reply]
@[simp] theorem State.reply_cyclesStarted (s : State) (l : Link) (st : Status) (ws : List Word) :
    (s.reply l st ws).cyclesStarted = s.cyclesStarted := by
  simp [State.reply]
@[simp] theorem State.reply_cyclesSkipped (s : State) (l : Link) (st : Status) (ws : List Word) :
    (s.reply l st ws).cyclesSkipped = s.cyclesSkipped := by
  simp [State.reply]
@[simp] theorem State.reply_overruns (s : State) (l : Link) (st : Status) (ws : List Word) :
    (s.reply l st ws).overruns = s.overruns := by
  simp [State.reply]
@[simp] theorem State.reply_resultsDiscarded (s : State) (l : Link) (st : Status) (ws : List Word) :
    (s.reply l st ws).resultsDiscarded = s.resultsDiscarded := by
  simp [State.reply]
@[simp] theorem State.reply_hold (s : State) (l : Link) (st : Status) (ws : List Word) :
    (s.reply l st ws).hold = s.hold := by
  simp [State.reply]
@[simp] theorem State.reply_frame (s : State) (l : Link) (st : Status) (ws : List Word) :
    (s.reply l st ws).frame = s.frame := by
  simp [State.reply]
@[simp] theorem State.reply_changes (s : State) (l : Link) (st : Status) (ws : List Word) :
    (s.reply l st ws).changes = s.changes := by
  simp [State.reply]
@[simp] theorem State.reply_postWaiters (s : State) (l : Link) (st : Status) (ws : List Word) :
    (s.reply l st ws).postWaiters = s.postWaiters := by
  simp [State.reply]
@[simp] theorem State.reply_dirty (s : State) (l : Link) (st : Status) (ws : List Word) :
    (s.reply l st ws).dirty = s.dirty := by
  simp [State.reply]
@[simp] theorem State.reply_cursor (s : State) (l : Link) (st : Status) (ws : List Word) :
    (s.reply l st ws).cursor = s.cursor := by
  simp [State.reply]
@[simp] theorem State.reply_global (s : State) (l : Link) (st : Status) (ws : List Word) :
    (s.reply l st ws).global = s.global := by
  simp [State.reply]
@[simp] theorem State.reply_epoch (s : State) (l : Link) (st : Status) (ws : List Word) :
    (s.reply l st ws).epoch = s.epoch := by
  simp [State.reply]
@[simp] theorem State.reply_digest (s : State) (l : Link) (st : Status) (ws : List Word) :
    (s.reply l st ws).digest = s.digest := by
  simp [State.reply]
@[simp] theorem State.reply_history (s : State) (l : Link) (st : Status) (ws : List Word) :
    (s.reply l st ws).history = s.history := by
  simp [State.reply]
@[simp] theorem State.reply_lastSkipped (s : State) (l : Link) (st : Status) (ws : List Word) :
    (s.reply l st ws).lastSkipped = s.lastSkipped := by
  simp [State.reply]
@[simp] theorem State.reply_pending (s : State) (l : Link) (st : Status) (ws : List Word) :
    (s.reply l st ws).pending = s.pending := by
  simp [State.reply]

end Sys2Proof.Machine
end

