-- ==== Sys2Proof/Laws/Calls.lean ====
section
/-! SUPPORT. What a taken frame can do: one lemma per shared operation of the link ports (`discardOld`, `stage`,
`takeFrame`, `takeCall`), in the terms of Safety (`heard`, `answered`, `declined`, `rejected`, `turnedAway`). -/
namespace Sys2Proof.Machine

/-! ### Call codes (R184) -/

/-- A catalogue call is the command of its code. -/
theorem ofCode_callOf (i : Instr) (c : Call) (h : callOf i = some c) : Instr.ofCode c.link c.code c.frame = i := by
  cases i <;> simp only [callOf, Option.some.injEq, reduceCtorEq] at h <;> subst h <;> rfl

/-- A code of the catalogue names one of its calls. -/
theorem callOf_ofCode (l : Link) (code : Word) (f : Frame) (h : knownCode code = true) :
    (callOf (Instr.ofCode l code f)).map Call.code = some code := by
  have key : ∀ m, 1 ≤ m → m ≤ 46 → (callOf (Instr.ofCode l (BitVec.ofNat 16 m) f)).map Call.code =
      some (BitVec.ofNat 16 m) := by
    intro m h1 h2
    iterate 47 (rcases m with _ | m; · first | rfl | omega)
    omega
  have h' := of_decide_eq_true h
  have := key code.toNat h'.1 h'.2
  rwa [BitVec.ofNat_toNat, BitVec.setWidth_eq] at this

/-- A code outside the catalogue is a frame that names no call. -/
theorem ofCode_unknown (l : Link) (code : Word) (f : Frame) (h : knownCode code = false) :
    Instr.ofCode l code f = .unknownCallFrame l code f := by
  have h' := of_decide_eq_false h
  unfold Instr.ofCode
  split <;> first | rfl | omega

/-- The words of a call's frame spell the call. -/
theorem decodeFrame_callOf (i : Instr) (c : Call) (h : callOf i = some c) (hlen : c.frame.operands.length ≤ 320)
    (hcode : c.code ≠ 0) :
    decodeFrame c.link true (c.code :: wordOfNat c.frame.operands.length :: (c.frame.operands ++ [c.frame.check])) =
      some i := by
  have h0 : ¬(c.code = 0#16) := hcode
  have hn : (wordOfNat c.frame.operands.length).toNat = c.frame.operands.length := by
    simp only [wordOfNat, BitVec.toNat_ofNat]
    omega
  have hm : ¬(Config.maxOperands < c.frame.operands.length) := Nat.not_lt.mpr hlen
  simp [decodeFrame, h0, hn, hm, ofCode_callOf i c h]

/-! ### Bits on the wire (R165) -/

/-- The bits of a set word are its members (R183). -/
theorem getLsbD_setWord (ms : List Nat) (i : Nat) (hi : i < 16) : (setWord ms).getLsbD i = ms.contains i := by
  have key : ∀ (ms : List Nat) (w : Word),
      (ms.foldl (fun w b => w ||| ((1 : Word) <<< b)) w).getLsbD i = (w.getLsbD i || ms.contains i) := by
    intro ms
    induction ms with
    | nil => simp
    | cons m ms ih =>
      intro w
      rw [List.foldl_cons, ih]
      have : ((1 : Word) <<< m).getLsbD i = (i == m) := by
        rw [BitVec.getLsbD_shiftLeft]
        by_cases h : i < m
        · simp [h, Nat.ne_of_lt h]
        · simp only [hi, h, decide_true, decide_false, Bool.not_false, Bool.true_and]
          by_cases h2 : i = m
          · subst h2; simp
          · have h3 : i - m ≠ 0 := by omega
            simp [BitVec.getLsbD_one, h2, h3]
      rw [BitVec.getLsbD_or, this, List.contains_cons, Bool.or_assoc]
  have := key ms 0
  rwa [show (0 : Word).getLsbD i = false from BitVec.getLsbD_zero, Bool.false_or] at this

/-- A word clocked out in a bit order and clocked in again in that order is the word (R165). -/
theorem wireWord_wireBits (o : BitOrder) (w : Word) : wireWord o (wireBits o w) = w := by
  apply BitVec.eq_of_getLsbD_eq
  intro i hi
  rw [wireWord, getLsbD_setWord _ _ hi]
  have hb : ∀ k, k < 16 → (wireBits o w).getD k false = w.getLsbD (o.place k) := by
    intro k hk
    simp [wireBits, List.getD, List.getElem?_map, List.getElem?_range hk]
  have hm : i ∈ ((List.range 16).filter (fun k => (wireBits o w).getD k false)).map o.place ↔
      w.getLsbD i = true := by
    simp only [List.mem_map, List.mem_filter, List.mem_range]
    constructor
    · rintro ⟨k, ⟨hk, hw⟩, rfl⟩; rwa [hb k hk] at hw
    · intro hw
      cases o with
      | msbFirst =>
        refine ⟨15 - i, ⟨by omega, ?_⟩, by simp only [BitOrder.place]; omega⟩
        rw [hb _ (by omega)]; simp only [BitOrder.place]
        rwa [show 15 - (15 - i) = i by omega]
      | lsbFirst =>
        refine ⟨i, ⟨hi, ?_⟩, rfl⟩
        rw [hb _ hi]; exact hw
  rw [Bool.eq_iff_iff, List.contains_iff_mem]
  exact hm

/-- Edges of LCK touch the receiver, the bits of its word, the slot, READY and the port's state alone. -/
theorem clock_touches (bits : List Bool) (p : Port) :
    p.clock bits = { p with
      receiver := (p.clock bits).receiver, wordBits := (p.clock bits).wordBits, slot := (p.clock bits).slot
      ready := (p.clock bits).ready, state := (p.clock bits).state } := by
  induction bits generalizing p with
  | nil => rfl
  | cons b bits ih =>
    unfold Port.clock
    split
    · rw [ih]
    · dsimp only
      split
      · rfl
      · rw [ih]
        simp only [Port.wordOut]
        split
        · rfl
        · split <;> rfl

@[simp] theorem wordOut_wordBits (p : Port) : p.wordOut.wordBits = p.wordBits := by
  unfold Port.wordOut
  split
  · rfl
  · split <;> rfl

/-- An incomplete word keeps at most fifteen bits. -/
theorem clock_wordBits (bits : List Bool) (p : Port) (h : p.wordBits.length < 16) :
    (p.clock bits).wordBits.length < 16 := by
  induction bits generalizing p with
  | nil => exact h
  | cons b bits ih =>
    unfold Port.clock
    split
    · next h1 =>
      refine ih _ ?_
      simp only [List.length_append, List.length_singleton]
      omega
    · dsimp only
      split
      · simp
      · exact ih _ (by simp)

/-- Edges that do not complete a word only add their bits to it. -/
theorem clock_short (bits : List Bool) (p : Port) (h : p.wordBits.length + bits.length < 16) :
    p.clock bits = { p with wordBits := p.wordBits ++ bits } := by
  induction bits generalizing p with
  | nil => simp [Port.clock]
  | cons b bits ih =>
    simp only [List.length_cons] at h
    unfold Port.clock
    rw [if_pos (by omega), ih _ (by simp only [List.length_append, List.length_singleton]; omega)]
    simp

/-! ### Ports -/

/-- Discarding the old reply and standing between frames is `heard`. -/
theorem discardOld_heard (p : Port) : { p.discardOld with receiver := .betweenFrames, wordBits := [] } = p.heard := by
  rcases p with ⟨st, t, slot, r, rc, wb, d, k, sel, j, rec, fl, m⟩
  cases slot <;> simp [Port.discardOld, Port.heard]

@[simp] theorem heard_state (p : Port) : p.heard.state = p.state := rfl
@[simp] theorem heard_terms (p : Port) : p.heard.terms = p.terms := rfl
@[simp] theorem heard_job (p : Port) : p.heard.job = p.job := rfl
@[simp] theorem heard_slot (p : Port) : p.heard.slot = none := rfl
@[simp] theorem heard_ready (p : Port) : p.heard.ready = p.ready := rfl
@[simp] theorem heard_receiver (p : Port) : p.heard.receiver = .betweenFrames := rfl
@[simp] theorem heard_wordBits (p : Port) : p.heard.wordBits = [] := rfl
@[simp] theorem heard_selection (p : Port) : p.heard.selection = p.selection := rfl
@[simp] theorem heard_record (p : Port) : p.heard.record = p.record := rfl
@[simp] theorem heard_flags (p : Port) : p.heard.flags = p.flags := rfl
@[simp] theorem heard_mask (p : Port) : p.heard.mask = p.mask := rfl

/-- The state in which a call that passed the link checks is judged by its own checks. -/
def State.called (s : State) (l : Link) : State := s.setPort l (s.port l).heard.countTaken

/-- A frame that is heard is judged, or turned away, over the heard port. -/
theorem takeFrame_hears (code : Word) (od : Bool) (judged : State → State) (l : Link) (f : Frame) (s : State)
    (h : s.hears l f = true) :
    takeFrame code od judged l f s =
      (match (s.port l).state with
       | .starting => (s.setPort l (s.port l).heard).reply l .starting []
       | .down =>
         if od then judged (s.setPort l (s.port l).heard)
         else if frameCheckOk f code then (s.setPort l (s.port l).heard).reply l .notOpen []
         else (s.setPort l (s.port l).heard).setPort l ((s.port l).heard.refuseLink .badCheck)
       | .idle => judged (s.setPort l (s.port l).heard)
       | .replyPending => judged (s.setPort l (s.port l).heard)) := by
  have h' := of_decide_eq_true h
  have h1 : ¬(s.power = .off ∨ (s.port l).receiver = .discarding) := fun h2 => h2.elim h'.1 h'.2.1
  have h3 : ¬(Config.maxOperands < f.operands.length) := Nat.not_lt.mpr h'.2.2
  simp only [takeFrame, if_neg h1, if_neg h3, discardOld_heard, State.port_setPort, heard_state] <;> rfl

/-- In an open port a frame is judged. -/
theorem takeFrame_open (code : Word) (od : Bool) (judged : State → State) (l : Link) (f : Frame) (s : State)
    (h : s.hears l f = true) (ho : (s.port l).state = .idle ∨ (s.port l).state = .replyPending) :
    takeFrame code od judged l f s = judged (s.setPort l (s.port l).heard) := by
  rw [takeFrame_hears code od judged l f s h]
  rcases ho with ho | ho <;> rw [ho]

theorem hears_of_takes {s : State} {l : Link} {f : Frame} {code : Word} (h : s.takes l f code = true) :
    s.hears l f = true := (Bool.and_eq_true_iff.mp h).1

theorem open_of_takes {s : State} {l : Link} {f : Frame} {code : Word} (h : s.takes l f code = true) :
    (s.port l).state = .idle ∨ (s.port l).state = .replyPending :=
  (of_decide_eq_true (Bool.and_eq_true_iff.mp h).2).1

theorem check_of_takes {s : State} {l : Link} {f : Frame} {code : Word} (h : s.takes l f code = true) :
    (s.port l).terms.check = .on → frameCheckOk f code = true :=
  (of_decide_eq_true (Bool.and_eq_true_iff.mp h).2).2

/-- A reply staged on an open heard port is `declined`. -/
theorem reply_declined (s : State) (l : Link) (st : Status) (ws : List Word)
    (ho : (s.port l).state = .idle ∨ (s.port l).state = .replyPending) :
    (s.setPort l (s.port l).heard).reply l st ws = s.declined l st ws := by
  rcases ho with ho | ho <;>
    simp [State.reply, State.declined, Port.stage, Port.replied, ho, PortState.isOpen]

/-- A reply staged on a called open port is `answered`. -/
theorem reply_answered (s : State) (l : Link) (st : Status) (ws : List Word)
    (ho : (s.port l).state = .idle ∨ (s.port l).state = .replyPending) :
    (s.called l).reply l st ws = s.answered l st ws := by
  rcases ho with ho | ho <;>
    simp [State.reply, State.answered, State.called, Port.stage, Port.replied, Port.countTaken, ho, PortState.isOpen]

/-- A call that passes the link checks ends as its own checks end it. -/
theorem takeCall_takes (c : CallRow) (od : Bool) (len : List Word → Bool) (own : State → Answer) (l : Link)
    (f : Frame) (s : State) {code : Word} (h : s.takes l f code = true) (hcode : c.code = code)
    (hlen : len f.operands = true)
    (hp : c.permits l = true) (hlock : l = .sl → s.showLock = true → c.locked = true → False)
    (hjob : c.job = true → (s.port l).job = none) :
    takeCall c od len own l f s =
      (match own (s.called l) with
       | .refuse st ws => s.declined l st ws
       | .accept st ws s' => s'.reply l st ws
       | .staged s' => s') := by
  subst hcode
  have ho := open_of_takes h
  have hc := check_of_takes h
  have hs : (s.setPort l (s.port l).heard).showLock = s.showLock := by cases l <;> rfl
  have hr : linkRefusal c len l f (s.setPort l (s.port l).heard) = none := by
    have h1 : ¬((s.port l).terms.check = .on ∧ frameCheckOk f c.code = false) := by
      intro h2; rw [hc h2.1] at h2; exact absurd h2.2 (by decide)
    have h2 : ¬(l = .sl ∧ s.showLock = true ∧ c.locked = true) := fun h3 => hlock h3.1 h3.2.1 h3.2.2
    have h3 : ¬(c.job = true ∧ (s.port l).job.isSome = true) := by
      intro h4; rw [hjob h4.1] at h4; exact absurd h4.2 (by decide)
    simp only [linkRefusal, State.port_setPort, heard_terms, heard_job, hs, if_neg h1, if_neg h2, if_neg h3, hlen, hp]
    simp
  unfold takeCall
  rw [takeFrame_open _ _ _ _ _ _ (hears_of_takes h) ho]
  simp only [judge, hr, State.port_setPort, State.setPort_setPort]
  have hcal : s.setPort l (s.port l).heard.countTaken = s.called l := rfl
  rw [hcal]
  cases own (s.called l) with
  | refuse st ws => exact reply_declined s l st ws ho
  | accept st ws s' => rfl
  | staged s' => rfl

end Sys2Proof.Machine
end

