-- ==== Sys2Proof/Laws/Tables.lean ====
section
/-! SUPPORT. The sorted tables: what is read after a write, and that every table operation keeps the canonical form,
keys strictly rising (R2, R6, R39, R96; log 11). -/
namespace Sys2Proof.Machine

/-! ### Sets of numbers -/

theorem mem_insertAsc (n m : Nat) (ms : List Nat) : m ∈ insertAsc n ms ↔ m = n ∨ m ∈ ms := by
  induction ms with
  | nil => simp [insertAsc]
  | cons x xs ih =>
    unfold insertAsc
    split
    · simp
    · split
      · subst_vars; simp
      · simp only [List.mem_cons, ih]; constructor <;> (rintro (h | h | h) <;> simp [h])

theorem rising_insertAsc (n : Nat) (ms : List Nat) (h : rising ms) : rising (insertAsc n ms) := by
  induction ms with
  | nil => simp [insertAsc, rising]
  | cons x xs ih =>
    have hx := List.pairwise_cons.mp h
    unfold insertAsc
    split
    · refine List.pairwise_cons.mpr ⟨fun a ha => ?_, h⟩
      rcases List.mem_cons.mp ha with rfl | ha
      · assumption
      · exact Nat.lt_trans (by assumption) (hx.1 a ha)
    · split
      · exact h
      · refine List.pairwise_cons.mpr ⟨fun a ha => ?_, ih hx.2⟩
        rcases (mem_insertAsc n a xs).mp ha with rfl | ha
        · omega
        · exact hx.1 a ha

theorem mem_insertAll (ns ms : List Nat) (m : Nat) : m ∈ insertAll ns ms ↔ m ∈ ns ∨ m ∈ ms := by
  unfold insertAll
  induction ns generalizing ms with
  | nil => simp
  | cons n ns ih =>
    simp only [List.foldl_cons, ih, mem_insertAsc, List.mem_cons, or_assoc, or_left_comm]

theorem rising_insertAll (ns ms : List Nat) (h : rising ms) : rising (insertAll ns ms) := by
  unfold insertAll
  induction ns generalizing ms with
  | nil => exact h
  | cons n ns ih => exact ih _ (rising_insertAsc n ms h)

theorem mem_removeNat (n m : Nat) (ms : List Nat) : m ∈ removeNat n ms ↔ m ∈ ms ∧ m ≠ n := by
  simp [removeNat]

theorem rising_filter (p : Nat → Bool) (ms : List Nat) (h : rising ms) : rising (ms.filter p) :=
  List.Pairwise.sublist List.filter_sublist h

theorem rising_drop (n : Nat) (ms : List Nat) (h : rising ms) : rising (ms.drop n) :=
  List.Pairwise.sublist (List.drop_sublist n ms) h

/-! ### Tables of numbers -/

@[simp] theorem mapGet_mapSet_same {α : Type} (k : Nat) (v : α) (m : List (Nat × α)) :
    mapGet k (mapSet k v m) = some v := by
  induction m with
  | nil => simp [mapSet, mapGet]
  | cons e m ih =>
    obtain ⟨j, w⟩ := e
    unfold mapSet
    split
    · simp [mapGet]
    · split
      · simp [mapGet]
      · rw [mapGet, if_neg (by assumption), ih]

theorem mapGet_mapSet_other {α : Type} (k i : Nat) (v : α) (m : List (Nat × α)) (h : i ≠ k) :
    mapGet i (mapSet k v m) = mapGet i m := by
  induction m with
  | nil => simp [mapSet, mapGet, Ne.symm h]
  | cons e m ih =>
    obtain ⟨j, w⟩ := e
    unfold mapSet
    split
    · rw [mapGet, if_neg (Ne.symm h)]
    · split
      · subst_vars; simp [mapGet, Ne.symm h]
      · simp only [mapGet, ih]

@[simp] theorem mapGet_mapErase_same {α : Type} (k : Nat) (m : List (Nat × α)) :
    mapGet k (mapErase k m) = none := by
  induction m with
  | nil => rfl
  | cons e m ih =>
    obtain ⟨j, w⟩ := e
    by_cases hj : j = k
    · simpa [mapErase, hj] using ih
    · simp only [mapErase, List.filter_cons, ne_eq, hj, not_false_iff, decide_true, if_true, mapGet, if_false]
      simpa [mapErase] using ih

theorem mapGet_mapErase_other {α : Type} (k i : Nat) (m : List (Nat × α)) (h : i ≠ k) :
    mapGet i (mapErase k m) = mapGet i m := by
  induction m with
  | nil => rfl
  | cons e m ih =>
    obtain ⟨j, w⟩ := e
    by_cases hj : j = k
    · subst hj
      simp only [mapGet, if_neg (Ne.symm h)]
      simpa [mapErase] using ih
    · simp only [mapErase, List.filter_cons, ne_eq, hj, not_false_iff, decide_true, if_true, mapGet]
      rw [show (List.filter (fun e => decide (e.1 ≠ k)) m) = mapErase k m from rfl, ih]

theorem mem_keys_mapSet {α : Type} (k j : Nat) (v : α) (m : List (Nat × α)) :
    j ∈ (mapSet k v m).map Prod.fst ↔ j = k ∨ j ∈ m.map Prod.fst := by
  induction m with
  | nil => simp [mapSet]
  | cons e m ih =>
    obtain ⟨i, w⟩ := e
    unfold mapSet
    split
    · simp
    · split
      · subst_vars; simp
      · simp only [List.map_cons, List.mem_cons, ih]; constructor <;> (rintro (h | h | h) <;> simp [h])

theorem rising_mapSet {α : Type} (k : Nat) (v : α) (m : List (Nat × α)) (h : rising (m.map Prod.fst)) :
    rising ((mapSet k v m).map Prod.fst) := by
  induction m with
  | nil => simp [mapSet, rising]
  | cons e m ih =>
    obtain ⟨i, w⟩ := e
    have hx := List.pairwise_cons.mp h
    unfold mapSet
    split
    · refine List.pairwise_cons.mpr ⟨fun a ha => ?_, h⟩
      rcases List.mem_cons.mp ha with rfl | ha
      · assumption
      · exact Nat.lt_trans (by assumption) (hx.1 a ha)
    · split
      · subst_vars; exact h
      · refine List.pairwise_cons.mpr ⟨fun a ha => ?_, ih hx.2⟩
        rcases (mem_keys_mapSet k a v m).mp ha with rfl | ha
        · dsimp only; omega
        · exact hx.1 a ha

theorem rising_filter_keys {α : Type} (p : Nat × α → Bool) (m : List (Nat × α)) (h : rising (m.map Prod.fst)) :
    rising ((m.filter p).map Prod.fst) :=
  List.Pairwise.sublist (List.Sublist.map _ List.filter_sublist) h

theorem rising_mapErase {α : Type} (k : Nat) (m : List (Nat × α)) (h : rising (m.map Prod.fst)) :
    rising ((mapErase k m).map Prod.fst) := rising_filter_keys _ m h

theorem rising_chainSet (k : Nat) (e : ChainEntry) (m : List (Nat × ChainEntry)) (h : rising (m.map Prod.fst)) :
    rising ((chainSet k e m).map Prod.fst) := by
  cases e <;> first | exact rising_mapErase k m h | exact rising_mapSet k _ m h

/-- The Chain Table reads back what was written. -/
@[simp] theorem chainOf_chainSet_same (k : Nat) (e : ChainEntry) (m : List (Nat × ChainEntry)) :
    chainOf (chainSet k e m) k = e := by
  cases e <;> simp [chainOf, chainSet]

theorem chainOf_chainSet_other (k i : Nat) (e : ChainEntry) (m : List (Nat × ChainEntry)) (h : i ≠ k) :
    chainOf (chainSet k e m) i = chainOf m i := by
  cases e <;> simp [chainOf, chainSet, mapGet_mapErase_other, mapGet_mapSet_other, h]

/-! ### Entries by index -/

theorem updateAt_eq_modify {α : Type} (f : α → α) (i : Nat) (l : List α) : updateAt f i l = l.modify i f := by
  induction l generalizing i with
  | nil => cases i <;> simp [updateAt]
  | cons x xs ih => cases i with
    | zero => rfl
    | succ n => simp [updateAt, ih]

/-- Changing the entry that stands at `i` is setting it. -/
theorem updateAt_eq_set {α : Type} (f : α → α) (i : Nat) (l : List α) (x : α) (h : l[i]? = some x) :
    updateAt f i l = l.set i (f x) := by
  induction l generalizing i with
  | nil => simp at h
  | cons y ys ih => cases i with
    | zero => simp at h; subst h; rfl
    | succ n => simp at h; simp [updateAt, ih n h]

theorem updateAt_const {α : Type} (v : α) (i : Nat) (l : List α) : updateAt (fun _ => v) i l = l.set i v := by
  induction l generalizing i with
  | nil => cases i <;> simp [updateAt]
  | cons y ys ih => cases i with
    | zero => rfl
    | succ n => simp [updateAt, ih]

@[simp] theorem length_updateAt {α : Type} (f : α → α) (i : Nat) (l : List α) : (updateAt f i l).length = l.length := by
  rw [updateAt_eq_modify]; simp

theorem getElem?_updateAt {α : Type} (f : α → α) (i j : Nat) (l : List α) :
    (updateAt f i l)[j]? = if i = j then (l[j]?).map f else l[j]? := by
  rw [updateAt_eq_modify, List.getElem?_modify]
  split <;> cases l[j]? <;> simp [*]

/-! ### The Tag Index and the Tile Status table -/

/-- An entry put into the index is the one found for its tag. -/
theorem find_putEntry_same (e : IndexEntry) (l : List IndexEntry) :
    (putEntry e l).find? (fun x => x.tag == e.tag) = some e := by
  induction l with
  | nil => simp [putEntry]
  | cons x xs ih =>
    unfold putEntry
    split
    · simp
    · split
      · simp
      · rw [List.find?_cons_of_neg (by simp; omega), ih]

theorem find_putEntry_other (e : IndexEntry) (tag : Nat) (l : List IndexEntry) (h : tag ≠ e.tag) :
    (putEntry e l).find? (fun x => x.tag == tag) = l.find? (fun x => x.tag == tag) := by
  induction l with
  | nil => simp [putEntry, Ne.symm h]
  | cons x xs ih =>
    unfold putEntry
    split
    · rw [List.find?_cons_of_neg (by simp; omega)]
    · split
      · rw [List.find?_cons_of_neg (by simp; omega), List.find?_cons_of_neg (by simp; omega)]
      · simp only [List.find?_cons, ih]

theorem mem_tags_putEntry (e : IndexEntry) (t : Nat) (l : List IndexEntry) :
    t ∈ (putEntry e l).map IndexEntry.tag ↔ t = e.tag ∨ t ∈ l.map IndexEntry.tag := by
  induction l with
  | nil => simp [putEntry]
  | cons x xs ih =>
    unfold putEntry
    split
    · simp
    · split
      · rename_i h; simp [h]
      · simp only [List.map_cons, List.mem_cons, ih]; constructor <;> (rintro (h | h | h) <;> simp [h])

theorem rising_putEntry (e : IndexEntry) (l : List IndexEntry) (h : rising (l.map IndexEntry.tag)) :
    rising ((putEntry e l).map IndexEntry.tag) := by
  induction l with
  | nil => simp [putEntry, rising]
  | cons x xs ih =>
    have hx := List.pairwise_cons.mp h
    unfold putEntry
    split
    · refine List.pairwise_cons.mpr ⟨fun a ha => ?_, h⟩
      rcases List.mem_cons.mp ha with rfl | ha
      · assumption
      · exact Nat.lt_trans (by assumption) (hx.1 a ha)
    · split
      · rename_i h1 h2
        refine List.pairwise_cons.mpr ⟨fun a ha => ?_, hx.2⟩
        rw [h2]; exact hx.1 a ha
      · refine List.pairwise_cons.mpr ⟨fun a ha => ?_, ih hx.2⟩
        rcases (mem_tags_putEntry e a xs).mp ha with rfl | ha
        · omega
        · exact hx.1 a ha

theorem mem_tags_putNvEntry (e : NvEntry) (t : Nat) (l : List NvEntry) :
    t ∈ (putNvEntry e l).map NvEntry.tag ↔ t = e.tag ∨ t ∈ l.map NvEntry.tag := by
  induction l with
  | nil => simp [putNvEntry]
  | cons x xs ih =>
    unfold putNvEntry
    split
    · simp
    · split
      · rename_i h; simp [h]
      · simp only [List.map_cons, List.mem_cons, ih]; constructor <;> (rintro (h | h | h) <;> simp [h])

theorem rising_putNvEntry (e : NvEntry) (l : List NvEntry) (h : rising (l.map NvEntry.tag)) :
    rising ((putNvEntry e l).map NvEntry.tag) := by
  induction l with
  | nil => simp [putNvEntry, rising]
  | cons x xs ih =>
    have hx := List.pairwise_cons.mp h
    unfold putNvEntry
    split
    · refine List.pairwise_cons.mpr ⟨fun a ha => ?_, h⟩
      rcases List.mem_cons.mp ha with rfl | ha
      · assumption
      · exact Nat.lt_trans (by assumption) (hx.1 a ha)
    · split
      · rename_i h1 h2
        refine List.pairwise_cons.mpr ⟨fun a ha => ?_, hx.2⟩
        rw [h2]; exact hx.1 a ha
      · refine List.pairwise_cons.mpr ⟨fun a ha => ?_, ih hx.2⟩
        rcases (mem_tags_putNvEntry e a xs).mp ha with rfl | ha
        · omega
        · exact hx.1 a ha

/-- The stored index keeps its form when a place is made in it. -/
theorem rising_roomInNvIndex (tag : Nat) (live : List Nat) (l : List NvEntry) (h : rising (l.map NvEntry.tag)) :
    rising ((roomInNvIndex tag live l).map NvEntry.tag) := by
  unfold roomInNvIndex
  split
  · exact h.sublist (List.eraseP_sublist.map _)
  · exact h

theorem length_putNvEntry (e : NvEntry) (l : List NvEntry) (h : rising (l.map NvEntry.tag)) :
    (putNvEntry e l).length = (l.filter (fun x => decide (x.tag ≠ e.tag))).length + 1 := by
  induction l with
  | nil => rfl
  | cons x xs ih =>
    have hx := List.pairwise_cons.mp h
    have above : ∀ y ∈ xs, x.tag < y.tag := fun y hy => hx.1 _ (List.mem_map_of_mem hy)
    unfold putNvEntry
    split
    · rw [List.filter_eq_self.mpr]
      · rfl
      · intro y hy
        rcases List.mem_cons.mp hy with rfl | hy
        · exact decide_eq_true (by omega)
        · have := above y hy; exact decide_eq_true (by omega)
    · split
      · rw [List.filter_cons_of_neg (by simp; omega), List.filter_eq_self.mpr]
        · rfl
        · intro y hy; have := above y hy; exact decide_eq_true (by omega)
      · rw [List.filter_cons_of_pos (by simp; omega), List.length_cons, List.length_cons, ih hx.2]

/-- The stored index holds at most 512 records after a swap (R6) if it did before and the volatile index has room. -/
theorem length_putNvEntry_roomInNvIndex (e : NvEntry) (live : List Nat) (l : List NvEntry)
    (h : rising (l.map NvEntry.tag)) (hl : l.length ≤ 512)
    (hlive : (live.filter (fun t => decide (t ≠ e.tag))).length < 512) :
    (putNvEntry e (roomInNvIndex e.tag live l)).length ≤ 512 := by
  rw [length_putNvEntry _ _ (rising_roomInNvIndex _ _ _ h)]
  unfold roomInNvIndex Config.maxRecords
  split
  · rename_i full
    have hp : ∃ x ∈ l, (decide (x.tag ≠ e.tag) && !live.contains x.tag) = true := by
      refine Classical.byContradiction fun none => ?_
      have sub : (l.filter (fun x => decide (x.tag ≠ e.tag))).map NvEntry.tag ⊆
          live.filter (fun t => decide (t ≠ e.tag)) := by
        intro t ht
        obtain ⟨x, hx, rfl⟩ := List.mem_map.mp ht
        obtain ⟨hx, ne⟩ := List.mem_filter.mp hx
        refine List.mem_filter.mpr ⟨?_, ne⟩
        refine Classical.byContradiction fun out => ?_
        exact none ⟨x, hx, by simp_all⟩
      have nodup : ((l.filter (fun x => decide (x.tag ≠ e.tag))).map NvEntry.tag).Nodup :=
        (h.sublist (List.filter_sublist.map _)).imp Nat.ne_of_lt
      have := List.Nodup.length_le_of_subset nodup sub
      rw [List.length_map] at this
      omega
    obtain ⟨x, hx, px⟩ := hp
    have := List.length_eraseP_of_mem
      (p := fun x : NvEntry => decide (x.tag ≠ e.tag) && !live.contains x.tag) hx px
    have := List.length_filter_le (fun x => decide (x.tag ≠ e.tag))
      (l.eraseP (fun x => decide (x.tag ≠ e.tag) && !live.contains x.tag))
    omega
  · omega

theorem mem_tags_insertStatus (e : TileStatus) (t : Nat) (l : List TileStatus) :
    t ∈ (insertStatus e l).map TileStatus.tag ↔ t = e.tag ∨ t ∈ l.map TileStatus.tag := by
  induction l with
  | nil => simp [insertStatus]
  | cons x xs ih =>
    unfold insertStatus
    split
    · simp
    · split
      · rename_i h; simp [h]
      · simp only [List.map_cons, List.mem_cons, ih]; constructor <;> (rintro (h | h | h) <;> simp [h])

theorem rising_insertStatus (e : TileStatus) (l : List TileStatus) (h : rising (l.map TileStatus.tag)) :
    rising ((insertStatus e l).map TileStatus.tag) := by
  induction l with
  | nil => simp [insertStatus, rising]
  | cons x xs ih =>
    have hx := List.pairwise_cons.mp h
    unfold insertStatus
    split
    · refine List.pairwise_cons.mpr ⟨fun a ha => ?_, h⟩
      rcases List.mem_cons.mp ha with rfl | ha
      · assumption
      · exact Nat.lt_trans (by assumption) (hx.1 a ha)
    · split
      · exact h
      · refine List.pairwise_cons.mpr ⟨fun a ha => ?_, ih hx.2⟩
        rcases (mem_tags_insertStatus e a xs).mp ha with rfl | ha
        · omega
        · exact hx.1 a ha

/-- Changing an entry's fields keeps the table's tags. -/
theorem tags_updateStatus (f : TileStatus → TileStatus) (hf : ∀ t, (f t).tag = t.tag) (tag : Nat)
    (l : List TileStatus) : (updateStatus f tag l).map TileStatus.tag = l.map TileStatus.tag := by
  induction l with
  | nil => rfl
  | cons x xs ih =>
    have ih' : (List.map (fun t => if t.tag = tag then f t else t) xs).map TileStatus.tag = xs.map TileStatus.tag := ih
    simp only [updateStatus, List.map_cons, ih']
    split <;> simp [hf]

theorem tags_postStatus (tag : Option Nat) (l : List TileStatus) :
    (postStatus tag l).map TileStatus.tag = l.map TileStatus.tag := by
  cases tag with
  | none => rfl
  | some t => exact tags_updateStatus (fun t => { t with ePosted := t.e, hPosted := t.h }) (fun _ => rfl) t l

end Sys2Proof.Machine
end

