-- ==== Sys2Proof/Laws/Ops.lean ====
section
/-! SUPPORT. What the shared operations of the Record Store, the Chain Engine and the hang jobs can do: one frame
relation, `Keeps`, and one lemma per operation that says it holds; and what each operation does to the fields it is
for. -/
namespace Sys2Proof.Machine

/-- The fields that no chain order, no hang step, no notice and no job request touches. -/
structure State.Keeps (s t : State) : Prop where
  power : t.power = s.power
  showLock : t.showLock = s.showLock
  nv : t.nv = s.nv
  index : t.pool.index = s.pool.index
  image : t.pool.image = s.pool.image
  poolChain : t.pool.chain = s.pool.chain
  retired : t.pool.retired = s.pool.retired
  counter : t.pool.counter = s.pool.counter
  settings : t.settings = s.settings
  positions : t.positions = s.positions
  tiles : t.tiles = s.tiles
  timer : t.timer = s.timer
  cyclesStarted : t.cyclesStarted = s.cyclesStarted
  cyclesSkipped : t.cyclesSkipped = s.cyclesSkipped
  overruns : t.overruns = s.overruns
  resultsDiscarded : t.resultsDiscarded = s.resultsDiscarded
  hold : t.hold = s.hold
  frame : t.frame = s.frame
  dirty : t.dirty = s.dirty
  cursor : t.cursor = s.cursor
  global : t.global = s.global
  epoch : t.epoch = s.epoch
  digest : t.digest = s.digest
  history : t.history = s.history
  lastSkipped : t.lastSkipped = s.lastSkipped
  pending : t.pending = s.pending

theorem State.Keeps.rfl' (s : State) : s.Keeps s := by constructor <;> rfl

theorem State.Keeps.trans {s t u : State} (h : s.Keeps t) (k : t.Keeps u) : s.Keeps u := by
  cases h; cases k; constructor <;> (simp only [*])

/-! Updates of one field that `Keeps` does not speak of. -/
theorem keeps_spaceWaiters (s : State) (x) : s.Keeps { s with spaceWaiters := x } := by constructor <;> rfl
theorem keeps_changes (s : State) (x) : s.Keeps { s with changes := x } := by constructor <;> rfl
theorem keeps_postWaiters (s : State) (x) : s.Keeps { s with postWaiters := x } := by constructor <;> rfl
theorem keeps_idleWaits (s : State) (x) : s.Keeps { s with idleWaits := x } := by constructor <;> rfl
theorem keeps_orders (s : State) (x) : s.Keeps { s with orders := x } := by constructor <;> rfl
theorem keeps_owed (s : State) (x) : s.Keeps { s with owed := x } := by constructor <;> rfl
theorem keeps_nvPort (s : State) (x) : s.Keeps { s with nvPort := x } := by constructor <;> rfl
theorem keeps_wire (s : State) (x) : s.Keeps { s with wire := x } := by constructor <;> rfl
theorem keeps_awaiting (s : State) (x) : s.Keeps { s with awaiting := x } := by constructor <;> rfl
theorem keeps_branches (s : State) (x) : s.Keeps { s with branches := x } := by constructor <;> rfl

theorem keeps_setPort (s : State) (l : Link) (p : Port) : s.Keeps (s.setPort l p) := by
  cases l <;> (constructor <;> rfl)

theorem keeps_raise (s : State) (l : Link) (n : Notice) : s.Keeps (s.raise l n) := keeps_setPort _ _ _

theorem keeps_raiseDlSl (s : State) (n : Notice) : s.Keeps (s.raiseDlSl n) :=
  (keeps_raise _ _ _).trans (keeps_raise _ _ _)

theorem keeps_setJob (s : State) (l : Link) (j : Option Job) : s.Keeps (s.setJob l j) := keeps_setPort _ _ _

theorem keeps_setWork (s : State) (l : Link) (w : JobWork) : s.Keeps (s.setWork l w) := by
  unfold State.setWork
  split
  · exact .rfl' s
  · exact keeps_setJob _ _ _

theorem keeps_setHang (s : State) (l : Link) (h : HangWork) : s.Keeps (s.setHang l h) := keeps_setWork _ _ _

theorem keeps_evalLow (s : State) : s.Keeps s.evalLow := by
  unfold State.evalLow
  dsimp only
  split
  · exact State.Keeps.trans (by constructor <;> rfl) (keeps_raiseDlSl _ _)
  · constructor <;> rfl

theorem keeps_setFree (s : State) (free : List Nat) : s.Keeps (s.setFree free) :=
  State.Keeps.trans (by constructor <;> rfl) (keeps_evalLow _)

theorem keeps_claimCells (s : State) (n : Nat) : s.Keeps (s.claimCells n) := keeps_setFree _ _

theorem keeps_request (s : State) (l : Link) (op : NvOp) : s.Keeps (s.request l op) := by constructor <;> rfl

theorem keeps_finishJob (s : State) (l : Link) (st : JobState) (res : ResultCode) (f : JobFields) :
    s.Keeps (s.finishJob l st res f) := by
  unfold State.finishJob
  split
  · exact .rfl' s
  · split
    · exact keeps_setJob _ _ _
    · exact (keeps_setPort _ _ _).trans (keeps_raise _ _ _)

theorem keeps_pushOrder (s : State) (o : Order) : s.Keeps (s.pushOrder o) := by constructor <;> rfl

theorem keeps_queueRollCall (s : State) (l : Link) : s.Keeps (s.queueRollCall l) := by
  unfold State.queueRollCall
  split
  · exact .rfl' s
  · split
    · exact .rfl' s
    · exact (keeps_setHang _ _ _).trans (keeps_pushOrder _ _)

theorem keeps_offerRollCalls (l : Link) (n : Nat) (s : State) : s.Keeps (offerRollCalls l n s) := by
  induction n generalizing s with
  | zero => exact .rfl' s
  | succ n ih =>
    unfold offerRollCalls
    split
    · split
      · exact (keeps_queueRollCall s l).trans (ih _)
      · unfold State.waitForSpace
        split
        · exact .rfl' s
        · constructor <;> rfl
    · exact .rfl' s

theorem keeps_givePlace (s : State) : s.Keeps s.givePlace := by
  unfold State.givePlace
  split
  · unfold State.giveOwed
    exact State.Keeps.trans (by constructor <;> rfl) (keeps_pushOrder _ _)
  · split
    · unfold State.giveWaiter
      dsimp only
      split
      · exact (State.Keeps.trans (by constructor <;> rfl) (keeps_queueRollCall _ _)).trans (keeps_spaceWaiters _ _)
      · exact State.Keeps.trans (by constructor <;> rfl) (keeps_queueRollCall _ _)
    · exact .rfl' s

theorem keeps_post (s : State) (l : Link) : s.Keeps (s.post l) := by
  unfold State.post
  split
  · exact (keeps_setJob _ _ _).trans (keeps_changes _ _)
  · exact .rfl' s

theorem keeps_enterPosting (s : State) (l : Link) : s.Keeps (s.enterPosting l) := by
  unfold State.enterPosting
  split
  · exact .rfl' s
  · dsimp only
    split
    · exact (keeps_setHang _ _ _).trans (keeps_post _ _)
    · split
      · exact keeps_setHang _ _ _
      · exact (keeps_setHang _ _ _).trans (keeps_postWaiters _ _)

theorem keeps_beginProvisional (s : State) (l : Link) (h : HangWork) (tag cell : Nat) :
    s.Keeps (s.beginProvisional l h tag cell) := by
  unfold State.beginProvisional
  exact ((keeps_claimCells _ _).trans (keeps_setHang _ _ _)).trans (keeps_request _ _ _)

theorem keeps_recordStrangers (l : Link) (tags : List Nat) (s : State) : s.Keeps (recordStrangers l tags s) := by
  induction tags generalizing s with
  | nil => exact keeps_enterPosting s l
  | cons tag rest ih =>
    unfold recordStrangers
    split
    · exact .rfl' s
    · split
      · exact (keeps_setHang _ _ _).trans (ih _)
      · split
        · exact (keeps_setHang _ _ _).trans (ih _)
        · split
          · exact (keeps_setHang _ _ _).trans (ih _)
          · split
            · exact (keeps_setHang _ _ _).trans (ih _)
            · exact keeps_beginProvisional _ _ _ _ _

theorem keeps_resolve (s : State) (l : Link) (h : HangWork) : s.Keeps (s.resolve l h) := by
  unfold State.resolve
  dsimp only
  refine State.Keeps.trans ?_ (keeps_recordStrangers _ _ _)
  split
  · exact keeps_setHang _ _ _
  · exact (keeps_setHang _ _ _).trans (keeps_raiseDlSl _ _)

theorem keeps_hangOutcome (s : State) (l : Link) (b : Nat) (f : HangBranch → HangBranch) :
    s.Keeps (s.hangOutcome l b f) := by
  unfold State.hangOutcome
  split
  · exact .rfl' s
  · dsimp only
    split
    · exact (keeps_setHang _ _ _).trans (keeps_resolve _ _ _)
    · exact keeps_setHang _ _ _

theorem keeps_provEnd (s : State) (l : Link) (e : ProvEnd) : s.Keeps (s.provEnd l e) := by
  unfold State.provEnd
  split
  · exact .rfl' s
  · split
    · exact .rfl' s
    · exact (keeps_setHang _ _ _).trans (keeps_recordStrangers _ _ _)

theorem keeps_toldIdle (s : State) (l : Link) (b : Nat) : s.Keeps (s.toldIdle l b) := by
  unfold State.toldIdle
  split
  · exact .rfl' s
  · split
    · exact (keeps_setHang _ _ _).trans (keeps_offerRollCalls _ _ _)
    · exact .rfl' s

theorem keeps_tellIdle (s : State) (b : Nat) : s.Keeps (s.tellIdle b) := by
  unfold State.tellIdle
  have hf : ∀ (l : List (Nat × Link)) (u : State), u.Keeps (l.foldl (fun acc e => acc.toldIdle e.2 b) u) := by
    intro l
    induction l with
    | nil => exact fun u => .rfl' u
    | cons e l ih => exact fun u => (keeps_toldIdle u e.2 b).trans (ih _)
  exact State.Keeps.trans (by constructor <;> rfl) (hf _ _)

theorem keeps_tell (s : State) (o : Originator) (b : Nat) (r : Report) : s.Keeps (s.tell o b r) := by
  cases o with
  | hang l =>
    cases r <;> simp only [State.tell, State.tellHang] <;>
      first
        | exact keeps_hangOutcome _ _ _ _
        | exact .rfl' s
        | (split
           · exact .rfl' s
           · exact (keeps_setHang _ _ _).trans (keeps_idleWaits _ _))
  | drift => cases r <;> (constructor <;> rfl)
  | sweepNow => exact .rfl' s

theorem keeps_modBranch (s : State) (b : Nat) (f : Branch → Branch) : s.Keeps (s.modBranch b f) := by
  constructor <;> rfl

theorem keeps_checkOrder (s : State) (o : Order) : s.Keeps (s.checkOrder o) := by
  unfold State.checkOrder
  split <;>
    first
      | exact keeps_tell _ _ _ _
      | (constructor <;> rfl)
      | exact ((keeps_modBranch _ _ _).trans (keeps_raiseDlSl _ _)).trans (keeps_tell _ _ _ _)

theorem keeps_takeOrders (n : Nat) (s : State) : s.Keeps (takeOrders n s) := by
  induction n generalizing s with
  | zero => exact .rfl' s
  | succ n ih =>
    unfold takeOrders
    split
    · exact .rfl' s
    · split
      · exact .rfl' s
      · exact ((State.Keeps.trans (by constructor <;> rfl) (keeps_givePlace _)).trans (keeps_checkOrder _ _)).trans (ih _)

/-- The transmitter's takes touch nothing that is served. -/
theorem keeps_kick (s : State) : s.Keeps s.kick := keeps_takeOrders _ _

/-! ### The transmitter -/

theorem takeOrders_of_wire (n : Nat) (s : State) (w : Wire) (h : s.wire = some w) : takeOrders n s = s := by
  cases n with
  | zero => rfl
  | succ n => simp only [takeOrders, h]

theorem takeOrders_of_empty (n : Nat) (s : State) (h : s.orders = []) : takeOrders n s = s := by
  cases n with
  | zero => rfl
  | succ n => unfold takeOrders; rw [h]; split <;> rfl

/-- A busy transmitter takes nothing. -/
theorem kick_of_wire (s : State) (w : Wire) (h : s.wire = some w) : s.kick = s := takeOrders_of_wire _ s w h

/-- With nothing queued nothing is taken. -/
theorem kick_of_empty (s : State) (h : s.orders = []) : s.kick = s := takeOrders_of_empty _ s h

/-! ### The Cell Pool -/

@[simp] theorem raiseDlSl_pool (s : State) (n : Notice) : (s.raiseDlSl n).pool = s.pool := by
  simp [State.raiseDlSl, State.raise]

@[simp] theorem evalLow_pool (s : State) :
    s.evalLow.pool = { s.pool with low := decide (s.pool.free.length < s.settings.watermark) } := by
  unfold State.evalLow
  dsimp only
  split <;> simp

@[simp] theorem setFree_free (s : State) (free : List Nat) : (s.setFree free).pool.free = free := by
  simp [State.setFree]

/-- Freed and released cells rejoin the free list, and no other cell does (R2). -/
theorem mem_freeCells (s : State) (cells : List Nat) (c : Nat) :
    c ∈ (s.freeCells cells).pool.free ↔ c ∈ cells ∨ c ∈ s.pool.free := by
  cases cells with
  | nil => simp [State.freeCells]
  | cons x xs => simp [State.freeCells, mem_insertAll]

/-- Freeing keeps the free list rising (R2). -/
theorem rising_freeCells (s : State) (cells : List Nat) (h : rising s.pool.free) :
    rising (s.freeCells cells).pool.free := by
  cases cells with
  | nil => exact h
  | cons x xs => simpa [State.freeCells] using rising_insertAll (x :: xs) s.pool.free h

/-! ### Target computation -/

/-- What a target computation does (R107, R129). -/
theorem compute_eq (s : State) (ramp i : Nat) (p : Position) (h : s.positions[i]? = some p) :
    s.compute ramp i = { s with
      positions := s.positions.set i (p.retarget s.tiles ramp), tiles := postStatus p.hung.tag s.tiles
      dirty := removeNat i s.dirty } := by
  unfold State.compute
  rw [h]
  simp only [updateAt_eq_set _ _ _ _ h]

/-- A computation for no position does nothing. -/
theorem compute_outside (s : State) (ramp i : Nat) (h : s.positions[i]? = none) : s.compute ramp i = s := by
  unfold State.compute
  rw [h]

/-- A retargeted position has a ramp to run: its remaining count is at least 1 (R129). -/
theorem retarget_remaining (tiles : List TileStatus) (ramp : Nat) (p : Position) :
    1 ≤ (p.retarget tiles ramp).remaining := by
  simp only [Position.retarget]; omega

/-! ### Ramps -/

/-- The last step of a term reaches its target (R130). -/
theorem stepTerm_one (a g : Int) : stepTerm 1 a g = g := by
  simp only [stepTerm]; rw [show ((1 : Nat) : Int) = 1 from rfl, Int.tdiv_one]; omega

theorem correction_step_one (a g : Correction) : a.step 1 g = g := by
  cases g; simp [Correction.step, stepTerm_one]

/-- A step leaves a position whose remaining count is 0 at its target, if it was so before (R130). -/
theorem step_atTarget (p : Position) (h : p.remaining = 0 → p.applied = p.target) :
    p.step.remaining = 0 → p.step.applied = p.step.target := by
  unfold Position.step
  split
  · exact h
  · rename_i h0
    intro h1
    have h2 : p.remaining = 1 := by simp only at h1; omega
    simp [h2, correction_step_one]

end Sys2Proof.Machine
end

