-- ==== Sys2Proof/Tests/Slice0.lean ====
section
/-! SUPPORT. Tests: which terms WellFormed refuses; small steps whose expected results are the spec's own worked
examples or a hand calculation from the rule named; and, for each obligation with hypotheses, a state and operands that
meet them (`witness_<obligation>`, one part per clause, at the ends of its ranges where it has ranges). -/
namespace Sys2Proof.Tests
open Sys2Proof.Machine
set_option Elab.async false

/-! ### Small states -/

def openPort : Port := { Port.powerUp with state := .idle, terms := ⟨.msbFirst, .off⟩ }

def small : Settings := { Settings.factory with columns := 2, rows := 1, watermark := 3 }

/-- A powered wall of two positions, its ports open with check OFF, nothing hung, drift held. -/
def wall : State :=
  { State.powerUp .factory [] with
    power := .on, pl := openPort, dl := openPort, sl := openPort, settings := small
    positions := [.atRest, .atRest]
    pool := { free := [3, 5, 9], retired := [], chain := [], image := [], index := [], counter := 1, low := false }
    timer := { state := .running, counter := 3, stage := 0 }, hold := true
    frame := { state := .running, timerRunning := true, settled := .low, candidate := 0 } }

/-- A call's frame on a port with check OFF. -/
def call (ws : List Word) : Frame := ⟨ws, 0⟩

/-- A call's frame with its check word. -/
def checked (code : Word) (ws : List Word) : Frame := ⟨ws, checkSum (code :: wordOfNat ws.length :: ws)⟩

def tile7 : TileAt := ⟨7, .normal, 0, 0⟩
def copy7 : Adopted := wall.adoptDefault 7 0
def hung7 : Position := { Position.atRest with hung := .unrecorded tile7 .noRecord, adopted := some copy7 }
def status7 : TileStatus := TileStatus.new 7

/-- The wall with tag 7 hung at position 0 without a record. -/
def lit : State := { wall with positions := [hung7, .atRest], tiles := [status7] }

/-- The state after a command. -/
def after (c : Instr) (s : State) : State :=
  match exec c s with
  | .next t => t
  | .fault _ => s
  | .refused _ => s

/-- The status and words of the reply staged on a link. -/
def replyOf (l : Link) (s : State) : Option (Status × List Word) := (s.port l).slot.map (fun r => (r.status, r.words))

/-! ### WellFormed refuses -/

theorem test_wf_scan_cell : (Instr.startUpScanEnd .low [1536] [] []).wellFormed = false := by decide
theorem test_wf_scan_tag : (Instr.startUpScanEnd .low [] [4294967296] []).wellFormed = false := by decide
theorem test_wf_scan_settings : (Instr.startUpScanEnd .low [] [] [8]).wellFormed = false := by decide
theorem test_wf_oversize_code : (Instr.operandCountOversize .pl 0 321).wellFormed = false := by decide
theorem test_wf_oversize_count : (Instr.operandCountOversize .pl 1 320).wellFormed = false := by decide
theorem test_wf_unknown_zero : (Instr.unknownCallFrame .pl 0 (call [])).wellFormed = false := by decide
theorem test_wf_unknown_known : (Instr.unknownCallFrame .pl 0x2E (call [])).wellFormed = false := by decide
theorem test_wf_unknown_long : (Instr.unknownCallFrame .pl 0x2F (call (List.replicate 321 0))).wellFormed = false := by
  decide +kernel
theorem test_wf_frame_long : (Instr.terms .pl (call (List.replicate 321 0))).wellFormed = false := by decide +kernel
theorem test_wf_frame_longest : (Instr.terms .pl (call (List.replicate 320 0))).wellFormed = true := by decide +kernel
theorem test_wf_echo_branch : (Instr.echoArrive 4 0).wellFormed = false := by decide
theorem test_wf_done_branch : (Instr.doneReport 4 3).wellFormed = false := by decide
theorem test_wf_timeout_branch : (Instr.sweepTimeout 4).wellFormed = false := by decide
theorem test_wf_answer_branch : (Instr.tileAnswer 4 [1, 0, 1, 0, 2]).wellFormed = false := by decide
theorem test_wf_answer_length : (Instr.tileAnswer 0 [1, 0, 1, 0, 2, 2]).wellFormed = false := by decide
theorem test_wf_answer_lead : (Instr.tileAnswer 0 [0, 0, 1, 0, 1]).wellFormed = false := by decide
theorem test_wf_marker_branch : (Instr.endMarker 4).wellFormed = false := by decide
theorem test_wf_told_link : (Instr.waitingHangToldIdle .pl 0).wellFormed = false := by decide
theorem test_wf_told_branch : (Instr.waitingHangToldIdle .dl 4).wellFormed = false := by decide
theorem test_wf_post_link : (Instr.placePost .pl).wellFormed = false := by decide

/-! ### Targets (the examples of 6.4) -/

def exampleCopy : Adopted :=
  { tag := 0x2B9D7741, source := .record, revision := 7020, batch := 0, base := .unity
    survey := some ⟨2150, 2010, 1980, 40, -12, -25, 18, 6, -30⟩
    coef := ⟨45, 20, 10, 250, 30, 12, 50⟩, driftSource := .drift, trim := some ⟨20, -6, 0, 11⟩ }

def examplePosition : Position :=
  { Position.atRest with hung := .placed ⟨0x2B9D7741, .turned, 0, 0⟩, adopted := some exampleCopy }

def exampleStatus : List TileStatus := [⟨0x2B9D7741, some 412, none, some 2210, none, 0, 1⟩]

/-- Position 0 is the tile of 6.4, in the drift-dirty set. -/
def exampleState : State := { wall with positions := [examplePosition, .atRest], tiles := exampleStatus, dirty := [0] }

theorem test_target_example : targetOf exampleStatus examplePosition =
    (⟨2449, 2128, 2231, 46, -14, -26, 19, 7, -34, -6, 20, 11, 0, 1000⟩, false) := by decide +kernel

theorem test_target_clamped : targetOf exampleStatus { examplePosition with
      adopted := some { exampleCopy with base := ⟨3900, 2048, 2048⟩, survey := none } } =
    (⟨4095, 2169, 2307, 0, 0, 0, 0, 0, 0, -6, 20, 11, 0, 1000⟩, true) := by decide +kernel

theorem test_compute_posts_and_unmarks :
    (exampleState.compute 4 0).tiles = [⟨0x2B9D7741, some 412, some 412, some 2210, some 2210, 0, 1⟩] ∧
      (exampleState.compute 4 0).dirty = [] := by decide +kernel

/-! ### Ramps, the drift cursor, the digest (the examples of 7.5, 7.6, 7.9 and 9.8) -/

/-- The ramp of 7.6 at tick t, phase 3. -/
def rampPosition : Position :=
  { examplePosition with
    remaining := 4, applied := { Correction.emptyTarget with level := 1000 }
    target := { Correction.emptyTarget with gR := 2449, xRB := -14, level := 600 } }

theorem test_ramp_example :
    [1, 2, 3, 4].map (fun k => let p := Nat.repeat Position.step k rampPosition
      (p.applied.gR, p.applied.xRB, p.applied.level, p.remaining)) =
    [(2148, -3, 900, 3), (2248, -6, 800, 2), (2348, -10, 700, 1), (2449, -14, 600, 0)] := by decide +kernel

theorem test_drift_cursor_example :
    { wall with dirty := [7, 12, 41, 300, 505], cursor := 40, settings := { small with budget := 3 } }.driftTaken =
      [41, 300, 505] ∧
    { wall with dirty := [7, 12, 44], cursor := 505, settings := { small with budget := 3 } }.driftTaken =
      [7, 12, 44] := by decide +kernel

theorem test_tick_global_example :
    (fun g : Global => (g.applied.level, g.remaining))
      (after (.frameTick false) { wall with changes := [.global 60 ⟨some 800, none, none, none, none⟩] }).global =
      (997, 59) := by decide +kernel

theorem test_tick_advances_epoch :
    let t := after (.frameTick false) { wall with positions := [rampPosition, .atRest] }
    t.epoch = 1 ∧ t.digest.changed = 1 ∧ t.pl.flags = 1 := by decide +kernel

/-- R117: two agreeing samples of the active level make a tick. -/
theorem test_filter_second_sample :
    (after (.filterClockSample .high false) { wall with frame := ⟨.lost, false, .low, 1⟩ }).frame =
      ⟨.running, true, .high, 0⟩ := by decide +kernel

theorem test_frame_lost : (after .frameLost wall).sl.flags = 4 := by decide +kernel

/-- The digest of 9.8: 37 entries in three parts. -/
def digest98 : Digest :=
  { epoch := 4117, previous := 4116, changed := 37, globalChanged := false, overflow := false
    entries := [], fetched := [true, true, false] }

theorem test_fetch_bad_part :
    replyOf .pl (after (.fetchDigest .pl (call [0, 0, 4117, 3])) { wall with epoch := 4117, digest := digest98 }) =
      some (.badPart, [0, 0, 4117, 3]) := by decide +kernel

theorem test_fetch_stale :
    replyOf .pl (after (.fetchDigest .pl (call [0, 0, 4117, 2])) { wall with epoch := 4118, digest := digest98 }) =
      some (.stale, [0, 0, 4118]) := by decide +kernel

/-! ### Drift (the examples of 5.2, 5.4 and 5.9) -/

theorem test_stop_at_count_pulse :
    (after .sourcePulse { wall with timer := ⟨.stopping, 3, 3⟩ }).timer = ⟨.stopped, 2, 0⟩ := by decide +kernel

theorem test_stop_at_expiry :
    let t := after .sourcePulse { wall with timer := ⟨.stopping, 1, 3⟩ }
    t.timer = ⟨.stopped, 1250, 0⟩ ∧ t.cyclesStarted = 1 := by decide +kernel

/-- R88: a running timer shows its run flag, and 5.2's counter 3. -/
theorem test_sense_cadence :
    (replyOf .dl (after (.senseCadence .dl (call [])) { wall with timer := ⟨.stopping, 3, 1⟩ })).map
      (fun r => r.2.take 4) = some [2, 1, 3, 1] := by decide +kernel

/-- The gathers of 5.4 with depth 2: E after each. -/
theorem test_filter_example :
    [600, 603, 590, 560].foldl
      (fun (a : List Int × TileStatus) (x : Int) =>
        let t := a.2.takeAnswer 2 ⟨7, x, 2210, true⟩
        (a.1 ++ [t.e.getD 0], t))
      (([] : List Int), { status7 with e := some 584, h := some 2210 }) =
    ([588, 591, 591, 584], { status7 with e := some 584, h := some 2210, fresh := 4 }) := by decide +kernel

theorem test_seed_marks :
    let t := lit.useGather 0 [⟨7, 584, 2210, true⟩]
    t.dirty = [0] ∧ (statusOf t.tiles 7).map TileStatus.e = some (some 584) := by decide +kernel

theorem test_third_miss_mutes :
    let t := { lit with tiles := [{ status7 with miss := 2 }] }.useGather 0 []
    (statusOf t.tiles 7).map TileStatus.miss = some 3 ∧ t.dl.flags = 256 ∧ t.sl.flags = 256 := by decide +kernel

/-- 5.9 with one lit branch: the expiry queues its sweep and takes it, serial 1. -/
theorem test_expiry_sweeps :
    let t := after .cadenceExpiry { lit with timer := ⟨.running, 1, 3⟩ }
    t.awaiting = [0] ∧ (t.branches[0]?).map (fun b => (b.state, b.serial)) = some (.starting, 1) := by decide +kernel

/-! ### Routes (the example of 2.2) -/

def route0 : Route := ⟨0, 0, .right, .down, 8, .serpentine, 16⟩
def route1 : Route := ⟨0, 2, .right, .down, 8, .return, 16⟩

theorem test_route_serpentine :
    [0, 7, 8, 15].map (route0.position 8 4) = [some 0, some 7, some 15, some 8] := by decide +kernel

theorem test_route_return :
    [0, 7, 8, 15].map (route1.position 8 4) = [some 16, some 23, some 24, some 31] := by decide +kernel

/-! ### Records (the example of 1.9) -/

def survey13 : Matrix := ⟨2048, 2048, 2048, 0, 0, 0, 0, 0, 0⟩

/-- The record of 1.9: HEAD in cell 12, SURVEY in cell 13, revision 8812. -/
def store19 : State :=
  { wall with
    pool :=
      { free := [40, 41, 57, 300], retired := [], chain := [(12, .next 13), (13, .last)]
        image := [(12, .head 0x0A31C5F2 0 .unity ⟨true, false, false⟩), (13, .survey survey13)]
        index := [⟨0x0A31C5F2, 12, 8812, .ok, [12, 13]⟩], counter := 9140, low := false }
    settings := { small with watermark := 1 } }

/-- The call of 1.9: the tag, a set list naming DRIFT, an empty remove list. -/
def write19 : Frame := call [0x0A31, 0xC5F2, 1, 2, 1, 2, 3, 250, 4, 5, 6, 0]

theorem test_write_claims :
    let t := after (.writeRecord .sl write19) store19
    (t.writeOf .sl).map RecWrite.unwritten = some [40, 41, 57] ∧ t.pool.free = [300] := by decide +kernel

/-- The write of 1.9 after cell 41's verify has failed. -/
def retiring19 : RecWrite :=
  { tag := 0x0A31C5F2, groups := [.head 0x0A31C5F2 0 .unity ⟨true, true, false⟩, .survey survey13,
      .drift ⟨1, 2, 3, 250, 4, 5, 6⟩]
    written := [40], unwritten := [57], phase := .cells, chained := 0, replacements := 0, retired := 1
    reserved := false, provisional := false, revision := none }

def writing19 (w : RecWrite) (free : List Nat) (op : NvOp) : State :=
  { store19 with
    sl := { openPort with job := some ⟨false, false, .write w⟩ }, pool := { store19.pool with free := free }
    nvPort := ⟨[], some ⟨⟨.sl, op⟩, true⟩, none⟩ }

theorem test_replacement_cell :
    let t := after .retiredWriteComplete (writing19 retiring19 [300] (.retire 41))
    (t.writeOf .sl).map RecWrite.claim = some [40, 300, 57] ∧ t.pool.free = [] := by decide +kernel

theorem test_failed_verify_retires :
    let t := after (.cellWriteComplete false)
      (writing19 { retiring19 with unwritten := [41, 57], retired := 0 } [300] (.cellWrite 41 (.survey survey13)))
    t.pool.retired = [41] ∧ t.sl.flags = 2048 ∧ t.nvPort.waiting = [⟨.sl, .retire 41⟩] := by decide +kernel

def done19 : RecWrite :=
  { retiring19 with written := [40, 300, 57], unwritten := [], phase := .swap, chained := 3, revision := some 9140 }

theorem test_swap_ends_the_write :
    let t := after .indexSwapComplete (writing19 done19 [301] .swap)
    t.pool.index = [⟨0x0A31C5F2, 40, 9140, .ok, [40, 300, 57]⟩] ∧ t.pool.counter = 9141 ∧
      t.pool.free = [12, 13, 301] ∧ t.sl.record.fields = .write 0x0A31C5F2 .swap 3 1 (some 9140) ∧
      t.sl.record.fields.words = [0x0A31, 0xC5F2, 2, 4, 1, 1, 0, 9140] := by decide +kernel

/-- 1.9: an ABANDON JOB during the write of cell 57 releases cells 40, 57 and 300 at once. -/
theorem test_abandon_releases :
    let t := after (.abandonJob .sl (call []))
      (writing19 { retiring19 with written := [40, 300], unwritten := [57] } [301] (.cellWrite 57 (.trim ⟨0, 0, 0, 0⟩)))
    t.pool.free = [40, 57, 300, 301] ∧ t.sl.job = none ∧ t.sl.record.state = .abandoned := by decide +kernel

/-- R23: an entry stored DAMAGED stays so, and the image of its sound record is loaded; a failing cell 0 damages tag 7. -/
theorem test_scan_loads_sound_records :
    let nv : NvMemory := { NvMemory.factory with
      cells := [(0, .head 7 0 .unity ⟨false, false, false⟩), (2, .head 9 0 .unity ⟨false, false, false⟩)]
      chain := [(0, .last), (2, .last)], index := [⟨7, 0, 3, .ok⟩, ⟨9, 2, 4, .damaged⟩] }
    let t := after (.startUpScanEnd .low [0] [] []) (State.powerUp nv [])
    t.pool.index = [⟨7, 0, 3, .damaged, [0]⟩, ⟨9, 2, 4, .damaged, [2]⟩] ∧
      t.pool.image = [(2, .head 9 0 .unity ⟨false, false, false⟩)] ∧ t.sl.hasFlag .recordDamaged = true := by
  decide +kernel

/-! ### The tile chain (the example of 3.13) -/

def busyWire : Wire := ⟨⟨.gather, 0, .drift⟩, true, false, false, 0, false, false, [], []⟩
def sweepingBranch : Branch := { Branch.atRest with state := .sweeping, serial := 1, orig := some .drift, sweepTimer := true }

/-- At 100.6 of 3.13: SWEEP NOW's order is taken with serial 2. -/
theorem test_sweep_serial :
    let t := after .transmitterTake { lit with
      orders := [⟨.sweep, 1, .sweepNow⟩, ⟨.gather, 3, .drift⟩]
      branches := [.atRest, { Branch.atRest with serial := 1 }, sweepingBranch, sweepingBranch] }
    (t.branches[1]?).map (fun b => (b.state, b.serial)) = some (.starting, 2) ∧ t.orders = [⟨.gather, 3, .drift⟩] := by
  decide +kernel

/-- At 124.8 of 3.13: the SWEEP NOW order for a sweeping branch is a clash. -/
theorem test_sweep_clash :
    let t := after .transmitterTake { lit with
      orders := [⟨.sweep, 2, .sweepNow⟩], branches := [.atRest, .atRest, sweepingBranch, .atRest] }
    t.wire = none ∧ t.orders = [] ∧ t.dl.flags = 32 ∧ t.sl.flags = 32 := by decide +kernel

/-- At 262 of 3.13: a late done report is disregarded. -/
theorem test_late_done : after (.doneReport 2 7) lit = lit := by decide +kernel

/-- R44: a good roll call answer, tag 0001 0002, batch 15, TURNED. -/
theorem test_roll_answer : rollAnswerOf [1, 1, 2, 0x010F, 0x0113] = some (65538, 15, .turned) := by decide +kernel

/-- R44: a gather answer of -40.0 degrees, 16 hours, fresh. -/
theorem test_gather_answer : sampleOf [1, 0, 7, 0xFE70, 16, 1, 0xFE89] = some ⟨7, -400, 16, true⟩ := by decide +kernel

/-! ### Links (the example of 10.11) -/

theorem test_take_reply :
    replyOf .dl (after (.take .dl (call [120])) wall) = some (.ok, [1, 0]) ∧
      (after (.take .dl (call [120])) wall).changes = [.take 120] := by decide +kernel

/-- 10.11: a call taken over a reply not clocked out sets REPLY_DISCARDED and counts it. -/
theorem test_reply_overtaken :
    let t := after (.senseWall .dl (call [])) { wall with
      dl := { openPort with state := .replyPending, ready := true, slot := some ⟨.ok, [1, 3], ⟨.msbFirst, .off⟩, 2⟩ } }
    t.dl.discardedMark = true ∧ t.dl.counters.discarded = 1 := by decide +kernel

/-- R165: SENSE LINK's code word as it is clocked in each bit order, and the first word of the reply that goes out as
filler comes in. -/
theorem test_word_clocked :
    let lsb : List Bool := [true, true] ++ List.replicate 14 false
    let p := { openPort with
      state := .replyPending, ready := true, slot := some ⟨.stale, [7], ⟨.msbFirst, .off⟩, 0⟩ }
    let t := after (.readyFalls .dl (List.replicate 16 false)) { wall with dl := p }
    (after (.readyFalls .dl lsb.reverse) wall).dl.receiver = .inFrame 1 none ∧
      (after (.readyFalls .dl lsb) { wall with dl := { openPort with terms := ⟨.lsbFirst, .off⟩ } }).dl.receiver =
        .inFrame 1 none ∧
      wireWord .msbFirst lsb.reverse = 3 ∧ p.ldo = wireBits .msbFirst Status.stale.word ∧
      t.dl.slot = some ⟨.stale, [7], ⟨.msbFirst, .off⟩, 1⟩ ∧ t.dl.receiver = .betweenFrames ∧ t.dl.ready = false := by
  decide +kernel

/-- R165, R169: a discarding port keeps its word boundary: 8 edges and then 40 move 3 words of its BAD_LENGTH reply. -/
theorem test_discarding_keeps_the_boundary :
    let s := after (.operandCountOversize .dl 0xF 321) wall
    let t := after (.readyFalls .dl (List.replicate 40 true)) (after (.readyFalls .dl (List.replicate 8 true))
      { s with dl := { s.dl with terms := .default, slot := some ⟨.badLength, [], .default, 0⟩ } })
    s.dl.slot = some ⟨.badLength, [], ⟨.msbFirst, .off⟩, 0⟩ ∧ t.dl.slot = none ∧ t.dl.receiver = .discarding ∧
      t.dl.wordBits = [] := by decide +kernel

/-- R165: bits given in two parts make one word. -/
theorem test_word_in_two_parts :
    let t := after (.readyFalls .dl [true, true]) (after (.readyFalls .dl (List.replicate 14 false)) wall)
    t.dl.receiver = .inFrame 1 none ∧ t.dl.wordBits = [] := by decide +kernel

/-- R169: an idle gap drops an incomplete word between frames, and discards and counts an incomplete frame. -/
theorem test_idle_gap_drops :
    let t := after (.idleGap .dl []) (after (.readyFalls .dl [true]) wall)
    let u := after (.idleGap .dl []) (after (.readyFalls .dl ((List.replicate 15 false) ++ [true, true])) wall)
    t.dl = openPort ∧ u.dl = { openPort with counters := { openPort.counters with partialFrames := 1 } } := by
  decide +kernel

/-- R169, R184: the words of a frame spell their call by the code; a code of no call, and an oversize count. -/
theorem test_frame_words :
    (wall.withFrame .dl [0xF, 1, 120]).pending = [.take .dl (call [120])] ∧
      (wall.withFrame .dl [0x2F, 0]).pending = [.unknownCallFrame .dl 0x2F (call [])] ∧
      (wall.withFrame .dl [0xF, 321]).pending = [.operandCountOversize .dl 0xF 321] := by decide +kernel

/-- 10.11: after LINK RESET a call in default terms is answered NOT_OPEN. -/
theorem test_not_open :
    replyOf .dl (after (.abandonJob .dl (checked 8 []))
      { wall with dl := { openPort with state := .down, terms := .default } }) = some (.notOpen, []) := by decide +kernel

/-- R183: SENSE WALL's first words are the epoch, high word first. -/
theorem test_sense_wall :
    (replyOf .dl (after (.senseWall .dl (call [])) { wall with epoch := 0x000100020003 })).map (fun r => r.2.take 4) =
      some [1, 2, 3, 0] := by decide +kernel

/-! ### Hanging and taking -/

/-- R76: position 1, on the failed branch's route, keeps its tile and counts among the placed. -/
theorem test_placed_count :
    let h : HangWork :=
      { ramp := 4, policy := .record, phase := .posted
        branches := [⟨0, ⟨0, 0, .right, .down, 1, .serpentine, 1⟩, .reported, [], false, false⟩,
          ⟨1, ⟨1, 0, .right, .down, 1, .serpentine, 1⟩, .failed .broken, [], false, false⟩]
        staged := [], seen := [], strangers := [], counts := .zero, prov := none }
    let s := { lit with
      positions := [.atRest, hung7], sl := { openPort with job := some ⟨false, true, .hang h⟩ }
      changes := [.place .sl 4 [(0, .unrecorded ⟨8, .normal, 0, 0⟩ .noRecord)] []] }
    (after (.frameTick false) s).sl.record.fields = .hang 4 .record .posted
      [⟨0, .reported, false⟩, ⟨1, .failed .broken, false⟩] { HangCounts.zero with placed := 2, unrecorded := 1 } := by
  decide +kernel

/-- R35, R104 (log 40): a NO_SPACE position whose batch default changed becomes NO_RECORD at the TAKE. -/
theorem test_take_sets_the_cause :
    let p := { hung7 with hung := .unrecorded tile7 .noSpace, adopted := some { copy7 with base := ⟨1, 2, 3⟩ } }
    ((after (.frameTick false) { lit with positions := [p, .atRest], changes := [.take 0] }).positions[0]?).map
      Position.hung = some (.unrecorded tile7 .noRecord) := by decide +kernel

/-! ### Witnesses: states -/

def replying : State :=
  { wall with dl := { openPort with state := .replyPending, ready := true, slot := some ⟨.ok, [], .default, 0⟩ } }
def starting : State := State.powerUp .factory []
def closed : State := { wall with dl := { openPort with state := .down, terms := .default } }
/-- DL's terms have the check ON; SL runs a job; the show lock is on. -/
def guarded : State :=
  { wall with
    dl := { openPort with terms := .default }, sl := { openPort with job := some ⟨false, false, .erase 3⟩ }
    showLock := true }
def erasing (detached committed : Bool) : State :=
  { wall with sl := { openPort with job := some ⟨detached, committed, .erase 3⟩ } }
def requested (op : NvOp) : State := { wall with nvPort := ⟨[], some ⟨⟨.sl, op⟩, true⟩, none⟩ }
def fullQueue : State := { lit with changes := List.replicate 16 (.take 0) }
def recorded : State :=
  { lit with
    pool := { lit.pool with
      index := [⟨7, 0, 3, .ok, [0, 1]⟩, ⟨9, 2, 4, .damaged, [2]⟩]
      image := [(0, .head 7 1 ⟨2000, 2001, 2002⟩ ⟨false, true, false⟩), (1, .drift ⟨1, 2, 3, 250, 4, 5, 6⟩),
        (2, .head 9 0 .unity ⟨false, false, false⟩)]
      chain := [(0, .next 1), (1, .last), (2, .last)] }
    nv := { lit.nv with
      cells := [(0, .head 7 1 ⟨2000, 2001, 2002⟩ ⟨false, true, false⟩), (1, .drift ⟨1, 2, 3, 250, 4, 5, 6⟩),
        (2, .head 9 0 .unity ⟨false, false, false⟩)]
      chain := [(0, .next 1), (1, .last), (2, .last)], index := [⟨7, 0, 3, .ok⟩, ⟨9, 2, 4, .damaged⟩]
      counter := 5 } }
def short (c : Nat) : Route := ⟨c, 0, .right, .down, 1, .serpentine, 1⟩
def wireOf3 : Wire := ⟨⟨.rollCall, 3, .sweepNow⟩, false, false, false, 0, false, false, [], []⟩
def routed : State :=
  { lit with settings := { small with routes := [some (short 0), some (short 1), some (short 0), none] }
             wire := some wireOf3 }
def hangWork (o : CallOutcome) (phase : HangPhase) : HangWork :=
  { ramp := 4, policy := .record, phase := phase
    branches := [⟨0, short 0, o, [], false, false⟩, ⟨1, short 1, .queued, [], false, false⟩]
    staged := [(0, .empty)], seen := [], strangers := [], counts := .zero, prov := none }
def hangJob (h : HangWork) : Job := ⟨false, false, .hang h⟩
def hangState (h : HangWork) : State := { routed with sl := { openPort with job := some (hangJob h) } }
def readyBranch : Branch := { Branch.atRest with state := .ready, orig := some .drift, serial := 15 }
def branchesWith (b : Branch) : List Branch := [.atRest, .atRest, b, .atRest]
def sweepWire : Wire := ⟨⟨.sweep, 2, .drift⟩, false, false, false, 0, false, false, [], []⟩
def rollWire : Wire := ⟨⟨.rollCall, 0, .hang .sl⟩, true, false, false, 127, false, false, [], []⟩
def gatherWire : Wire := ⟨⟨.gather, 0, .drift⟩, true, false, false, 127, false, false, [], [⟨7, 300, 40, true⟩]⟩

/-! ### Witnesses: the step, power, the wire -/

theorem witness_StepRunsFrontCommand : { wall with pending := [.powerLoss, .powerUp] }.pending = [.powerLoss, .powerUp] := rfl
theorem witness_EveryStepAnswersNext : wall.pending = [] := by decide
theorem witness_PowerUpResets : lit.nvPort.current = none := by decide
theorem witness_PowerLossTearsOnlyTheCellWritten :
    ((requested (.cellWrite 3 (.trim ⟨0, 0, 0, 0⟩))).power ≠ .off ∧
      (requested (.cellWrite 3 (.trim ⟨0, 0, 0, 0⟩))).nvPort.current =
        some ⟨⟨.sl, .cellWrite 3 (.trim ⟨0, 0, 0, 0⟩)⟩, true⟩) ∧
    (requested (.settings 7 small)).nvPort.current = some ⟨⟨.sl, .settings 7 small⟩, true⟩ ∧
    (requested .swap).nvPort.current = some ⟨⟨.sl, .swap⟩, true⟩ ∧
    ((∀ c g, NvOp.swap ≠ .cellWrite c g) ∧ ∀ c i, NvOp.swap ≠ .settings c i) ∧ wall.nvPort.current = none :=
  ⟨by decide, by decide, by decide, ⟨nofun, nofun⟩, by decide⟩
/-- A scan over the records of `recorded`. -/
def scanning : State := State.powerUp recorded.nv []
theorem witness_StartUpScanRebuilds :
    (scanning.power = .starting ∧ scanning.nv.settings = List.replicate 8 (some Settings.factory) ∧
      scanning.nv.settings.length = 8 ∧ ([7] : List Nat) ≠ []) ∧
    SoundRecord scanning.nv.chain (fun c => mapGet c scanning.nv.cells) 9 [2] ∧
    ¬SoundRecord scanning.nv.chain (fun c => if c ∈ [2] then none else mapGet c scanning.nv.cells) 9 [2] ∧
    ((after (.startUpScanEnd .low [2] [7] []) scanning).pool.index = [⟨9, 2, 4, .damaged, [2]⟩] ∧
      scanning.nv.index.filter (fun e => decide (e.tag ∉ [7])) = [⟨9, 2, 4, .damaged⟩]) :=
  ⟨by decide +kernel, ⟨by decide +kernel, by decide +kernel, by decide +kernel⟩,
    fun h => by exact h.2, by decide +kernel⟩
theorem witness_WireEventsMoveTheReceiver :
    { wall with pl := { openPort with receiver := .discarding } }.pl.receiver = .discarding ∧
    (wall.power ≠ .off ∧ (wall.port .pl).receiver = .betweenFrames ∧ (1 : Word) ≠ 0 ∧ (320 : Word).toNat ≤ 320 ∧
      ([] : List Word).length < (320 : Word).toNat + (if (wall.port .pl).terms.check = .on then 1 else 0)) ∧
    ([5] : List Word).length < (1 : Word).toNat + (if (guarded.port .dl).terms.check = .on then 1 else 0) ∧
    320 < (321 : Word).toNat ∧ (replying.port .dl).slot = some ⟨.ok, [], .default, 0⟩ ∧
    ((⟨.ok, [], .default, 0⟩ : Reply).clocked + 2 < (⟨.ok, [], .default, 0⟩ : Reply).frame.length ∧
      (⟨.ok, [], .default, 0⟩ : Reply).clocked + 3 = (⟨.ok, [], .default, 0⟩ : Reply).frame.length ∧
      (replying.port .dl).receiver = .betweenFrames ∧
      (⟨.ok, [], .default, 0⟩ : Reply).frame[0]? = some Status.ok.word) ∧
    ((wall.port .pl).slot = none ∧ (Receiver.inFrame 1 none) = .inFrame 1 none ∧ (320 : Word).toNat ≤ 320 ∧
      0 < (0 : Word).toNat + (if (guarded.port .dl).terms.check = .on then 1 else 0) ∧ 320 + 1 < 322) ∧
    ((Receiver.inFrame 321 (some 322)) = .inFrame 321 (some 322) ∧
      ({ wall with pl := { openPort with wordBits := [true] } }.port .pl).wordBits.length +
        (List.replicate 14 true).length < 16) ∧
    ((Receiver.discarding) = .discarding ∧ ([true, false] ++ List.replicate 30 true : List Bool).length = 16 * 2 ∧
      ([false] ++ List.replicate 31 false : List Bool) = List.replicate (16 * 2) false) ∧
    ([true] ++ List.replicate 15 false : List Bool) =
      (List.range 16).map (fun k => (0x8000 : Word).getLsbD (if BitOrder.msbFirst = .msbFirst then 15 - k else k)) := by
  decide +kernel
theorem witness_ClosedPortsTurnFramesAway :
    (callOf (.take .dl (call [3])) = some (.listed .dl (call [3]) 0xF (false, true, false) false false true) ∧
      starting.hears .dl (call [3]) = true ∧ (starting.port .dl).state = .starting) ∧
    knownCode 0x2F = false ∧
    (closed.hears .dl (checked 0xF [3]) = true ∧ (closed.port .dl).state = .down ∧
      frameCheckOk (checked 0xF [3]) 0xF = true ∧ frameCheckOk (call [3]) 0xF = false) ∧
    frameCheckOk (checked 0x2F [3]) 0x2F = true := by decide +kernel
theorem witness_LinkChecksRefuseInOrder :
    (guarded.hears .dl (call [3]) = true ∧ (guarded.port .dl).state = .idle) ∧
    ((guarded.port .dl).terms.check = .on ∧ frameCheckOk (call [3]) 0xF = false) ∧
    hasLength 1 (call [3, 3]).operands = false ∧
    (Call.listed .pl (call [3]) 0xF (false, true, false) false false true).permitted = false ∧
    (guarded.showLock = true ∧ (Call.listed .sl (call [1, 1]) 0x27 (false, false, true) false true true).locked = true) ∧
    (guarded.port .sl).job.isSome = true ∧
    (knownCode 0x2F = false ∧ guarded.takes .dl (checked 0x2F [3]) 0x2F = true) := by decide +kernel

/-! ### Witnesses: calls of every link -/

theorem witness_TermsTakeEffectAtOnce :
    (guarded.hears .dl (checked 1 [1, 1]) = true ∧ (guarded.port .dl).state ≠ .starting ∧
      frameCheckOk (checked 1 [1, 1]) 1 = true ∧ (1 : Word) = BitOrder.lsbFirst.word ∧ (1 : Word) = CheckSetting.off.word) ∧
    (closed.hears .dl (checked 1 [1, 2]) = true ∧ (closed.port .dl).state = .down ∧
      frameCheckOk (checked 1 [1, 2]) 1 = true ∧ 1 < (2 : Word).toNat) := by decide +kernel
theorem witness_LinkResetTakesThePortDown :
    (wall.takes .sl (call []) 2 = true ∧ (wall.port .sl).job = none) ∧
    ((erasing false true).takes .sl (call []) 2 = true ∧
      ((erasing false true).port .sl).job = some ⟨false, true, .erase 3⟩) ∧
    ((erasing true false).port .sl).job = some ⟨true, false, .erase 3⟩ ∧
    ((erasing false false).takes .sl (call []) 2 = true ∧
      ((erasing false false).port .sl).job = some ⟨false, false, .erase 3⟩) ∧
    (let s := hangState (hangWork .queued .calling)
     s.takes .sl (call []) 2 = true ∧ (s.port .sl).job = some (hangJob (hangWork .queued .calling)) ∧ s.owed = [] ∧
      (∀ m ∈ s.spaceWaiters, m = Link.sl) ∧ (hangWork .queued .calling).prov = none) ∧
    (let h := hangWork .toQueue .calling
     let s := { hangState (hangWork .queued .calling) with
       dl := { openPort with job := some (hangJob h) }, spaceWaiters := [.sl, .dl] }
     s.spaceWaiters.filter (fun k => decide (k ≠ .sl)) = [.dl] ∧ s.hangOf .dl = some h ∧
       (h.branches.map HangBranch.branch).Nodup) := by decide +kernel
theorem witness_SenseCallsReport :
    replying.takes .dl (call []) 3 = true ∧ wall.takes .pl (call []) 9 = true := by decide +kernel
theorem witness_NoticeCallsAnswer :
    wall.takes .pl (call []) 4 = true ∧ wall.takes .dl (call [0xFFFF]) 5 = true ∧ wall.takes .sl (call [0]) 6 = true := by
  decide +kernel
theorem witness_JobCallsAnswer :
    wall.takes .sl (call []) 7 = true ∧ (wall.takes .sl (call []) 8 = true ∧ (wall.port .sl).job = none) ∧
    ((erasing false true).takes .sl (call []) 8 = true ∧
      ((erasing false true).port .sl).job = some ⟨false, true, .erase 3⟩) ∧
    ((erasing true false).port .sl).job = some ⟨true, false, .erase 3⟩ ∧
    ((erasing false false).takes .sl (call []) 8 = true ∧
      ((erasing false false).port .sl).job = some ⟨false, false, .erase 3⟩) ∧
    ((writing19 retiring19 [300] (.retire 41)).takes .sl (call []) 8 = true ∧
      ((writing19 retiring19 [300] (.retire 41)).port .sl).job = some ⟨false, false, .write retiring19⟩ ∧
      retiring19.written ++ retiring19.unwritten ≠ []) ∧
    (let h := { hangWork .reported .recording with prov := some { retiring19 with provisional := true } }
     (hangState h).takes .sl (call []) 8 = true ∧ h.prov = some { retiring19 with provisional := true } ∧
      retiring19.revision = none ∧ done19.revision = some 9140) := by decide +kernel

/-! ### Witnesses: serving and desk calls -/

theorem witness_FetchDigestServesParts :
    wall.takes .pl (call [0, 0, 0, 0]) 0xA = true ∧ (call [0, 0, 0, 8]).operands = [0, 0, 0, 8] := by decide +kernel
theorem witness_ServingReadsAnswer :
    (lit.takes .pl (call [1, 2]) 0xB = true ∧
      lit.settings.columns * lit.settings.rows < (1 : Word).toNat + (2 : Word).toNat) ∧
    (lit.takes .pl (call [0, 2]) 0xB = true ∧
      (0 : Word).toNat + (2 : Word).toNat ≤ lit.settings.columns * lit.settings.rows ∧
      lit.positions.length = lit.settings.columns * lit.settings.rows) ∧
    wall.takes .pl (call []) 0xC = true := by decide +kernel
theorem witness_IntentCallsQueueAnEntry :
    wall.takes .dl (call [1023, 1, 1000, 1, 15, 1, 0xFF00, 0, 0, 1, 255]) 0xD = true ∧
    wall.takes .dl (call [1, 1, 1000, 1023]) 0xE = true := by decide +kernel
theorem witness_TakeAndRevertQueueAnEntry :
    lit.takes .dl (call [1023]) 0xF = true ∧ fullQueue.takes .dl (call [1024]) 0x11 = true := by decide +kernel
theorem witness_SwitchCallsAnswer :
    wall.takes .dl (call []) 0x1A = true ∧ wall.takes .dl (call []) 0x1B = true ∧ wall.takes .dl (call []) 0x12 = true ∧
    wall.takes .dl (call []) 0x13 = true ∧
    (wall.takes .dl (call [2]) 0x10 = true ∧ 1 < (2 : Word).toNat ∧ (1 : Word) = Polarity.falling.word) := by
  decide +kernel
theorem witness_SetDriftParametersTakesGivenOperands :
    wall.takes .dl (call [1, 4, 1, 100, 1, 64, 1, 1023]) 0x14 = true := by decide +kernel
theorem witness_CadenceSettingsCallsAnswer :
    (wall.takes .dl (call [0, 4, 0, 1]) 0x15 = true ∧ (0 : Word) = 0) ∧
    (wall.takes .dl (call [1, 256, 65535, 1]) 0x15 = true ∧ (1 : Word) = CadenceSource.frame.word ∧
      (1 : Word) = yesNoWord false ∧ (65535 : Word) ≠ 0) ∧
    wall.takes .dl (call []) 0x19 = true := by decide +kernel
theorem witness_CadenceRunResumesAndRestartReloads :
    wall.takes .dl (call []) 0x16 = true ∧ wall.takes .dl (call []) 0x18 = true := by decide +kernel
theorem witness_CadencePulsesCount :
    wall.takes .dl (call []) 0x17 = true ∧ (wall.power = .on ∧ wall.settings.source = .base) ∧
    { wall with timer := ⟨.stopped, 3, 3⟩ }.timer.state = .stopped ∧
    (wall.timer.state ≠ .stopped ∧ wall.timer.stage + 1 < wall.settings.prescaler) ∧
    (wall.settings.prescaler ≤ (⟨.running, 2, 3⟩ : Timer).stage + 1 ∧ 2 ≤ (⟨.running, 2, 3⟩ : Timer).counter) ∧
    (wall.settings.prescaler ≤ (⟨.stopping, 1, 3⟩ : Timer).stage + 1 ∧ (⟨.stopping, 1, 3⟩ : Timer).counter = 1) ∧
    (routed.wire = some wireOf3 ∧ lit.wire = none ∧ lit.orders = [] ∧ lit.owed = [] ∧ lit.spaceWaiters = [] ∧
      [0, 1, 2, 3].filter (fun b => decide (b ∉ lit.awaiting ∧
        ∃ p ∈ lit.positions, ∃ u ∈ p.hung.occupant, u.branch = b)) = 0 :: [] ∧
      lit.branches[0]? = some .atRest) ∧
    { small with source := .frame }.source = .frame := by
  decide +kernel
theorem witness_WallResetResetsThePlane :
    (hangState (hangWork .queued .calling)).takes .dl (call []) 0x1C = true ∧
    ((hangState (hangWork .queued .calling)).port .sl).job = some (hangJob (hangWork .queued .calling)) ∧
    (hangJob (hangWork .queued .calling)).detached = false ∧ (hangState (hangWork .queued .calling)).hangOf .dl = none ∧
    (wall.takes .dl (call []) 0x1C = true ∧ wall.hangOf .dl = none ∧ wall.hangOf .sl = none) := by
  decide +kernel
/-- R61, R180: WALL RESET ends SL's hang, gives the freed place to the owed gather, and keeps drift's order. -/
theorem test_wall_reset_keeps_other_orders :
    let t := after (.wallReset .dl (call [])) { hangState (hangWork .queued .calling) with
      orders := [⟨.rollCall, 0, .hang .sl⟩, ⟨.sweep, 1, .drift⟩], owed := [2], branches := branchesWith readyBranch }
    t.orders = [⟨.sweep, 1, .drift⟩, ⟨.gather, 2, .drift⟩] ∧ t.owed = [] ∧ t.sl.job = none := by decide +kernel

/-! ### Witnesses: the Record Store's calls -/

theorem witness_RecordReadsAnswer :
    recorded.takes .sl (call [0, 0]) 0x1D = true ∧ (wall.takes .sl (call []) 0x1E = true ∧ (wall.port .sl).selection = none) ∧
    recorded.findEntry 8 = none ∧ recorded.findEntry 7 = some ⟨7, 0, 3, .ok, [0, 1]⟩ ∧
    ({ recorded with sl := { openPort with selection := some 9 } }.takes .sl (call []) 0x1E = true ∧
      recorded.findEntry 9 = some ⟨9, 2, 4, .damaged, [2]⟩) ∧
    recorded.takes .sl (call [0, 8]) 0x1F = true := by decide +kernel
theorem witness_SetWatermarkEvaluatesThePool :
    (wall.takes .sl (call [256]) 0x20 = true ∧ 255 < (256 : Word).toNat) ∧
    (wall.takes .sl (call [255]) 0x20 = true ∧ (255 : Word).toNat ≤ 255) := by decide +kernel
/-- A set list with HEAD for a new tag; a set list that names a fourth group; a TRIM for a tag with no record. -/
theorem witness_WriteRecordClaimsLowestCells :
    (([.survey 2 [4095, 5], .drift ⟨1, 2, 3, 250, 4, 5, 6⟩] : List SetItem).map SetItem.kind).Nodup ∧
    (∀ i ∈ ([.survey 2 [4095, 5]] : List SetItem), i.kind ∉ [CellKind.trim]) ∧
    (∀ i ∈ ([.survey 2 [4095, 5]] : List SetItem), i.kind ≠ .head) ∧
    (recorded.takes .sl (call [0, 8, 1, 0, 1, 2048, 2048, 2048, 0]) 0x21 = true ∧ recorded.showLock = false ∧
      (recorded.port .sl).job = none) ∧
    parseWrite (call [0, 7, 1, 4, 0]).operands = .outside ∧
    (parseWrite (call [0, 8, 1, 3, 1, 2, 3, 4, 0]).operands = .ok ⟨8, [.trim ⟨1, 2, 3, 4⟩], []⟩ [] ∧
      recorded.writeRefusal ⟨8, [.trim ⟨1, 2, 3, 4⟩], []⟩ = some .noHead) ∧
    (parseWrite (call [0, 8, 1, 0, 1, 2048, 2048, 2048, 0]).operands = .ok ⟨8, [.head 1 .unity], []⟩ [] ∧
      recorded.writeRefusal ⟨8, [.head 1 .unity], []⟩ = none) := by decide +kernel
theorem witness_EraseRecordQueuesItsWrite :
    recorded.takes .sl (call [0, 9]) 0x22 = true ∧ recorded.showLock = false ∧ (recorded.port .sl).job = none := by
  decide +kernel
theorem witness_AuditPoolStartsAtTheLowestTag :
    (wall.takes .sl (call []) 0x23 = true ∧ (wall.port .sl).job = none ∧ wall.pool.index = []) ∧
    (recorded.takes .sl (call []) 0x23 = true ∧
      recorded.pool.index = [⟨7, 0, 3, .ok, [0, 1]⟩, ⟨9, 2, 4, .damaged, [2]⟩] ∧ recorded.isLocked 7 = false) := by
  decide +kernel
def dlSaves : State := { wall with dl := { openPort with job := some ⟨false, true, .save ⟨small, 3, 3, 3, 4⟩⟩ } }
theorem witness_SaveSettingsTakesItsImage :
    (dlSaves.takes .sl (call []) 0x2A = true ∧ (dlSaves.port .sl).job = none ∧ dlSaves.showLock = false ∧
      (dlSaves.port .dl).job = some ⟨false, true, .save ⟨small, 3, 3, 3, 4⟩⟩) ∧
    (wall.takes .dl (call []) 0x2A = true ∧ (wall.port .dl).job = none ∧ (wall.port .sl).job = none) := by
  decide +kernel

/-! ### Witnesses: tables, routes, geometry -/

theorem witness_TableCallsReplaceTheirEntry :
    wall.showLock = false ∧ wall.takes .sl (call [16, 1, 2, 3, 4, 5, 6, 250, 8, 9, 10]) 0x24 = true ∧
    (lit.takes .sl (call [0, 1, 2, 4095, 0xFED4, 5, 6, 1250, 8, 9, 500]) 0x24 = true ∧
      (⟨1, 2, 4095⟩ : Gains).ok = true ∧ (⟨-300, 5, 6, 1250, 8, 9, 500⟩ : DriftCoef).ok = true) ∧
    wall.takes .sl (call [15, 1, 2, 4095]) 0x25 = true := by decide +kernel
theorem witness_SetRouteReplacesTheRoute :
    (wall.takes .sl (call [0, 2, 0, 0, 0, 3, 1, 0, 1]) 0x26 = true ∧ 1 < (2 : Word).toNat) ∧
    wall.takes .sl (call [3, 0, 0, 0, 0, 3, 1, 0, 1]) 0x26 = true ∧ 3 < (4 : Word).toNat ∧
    (wall.takes .sl (call [3, 1, 0, 0, 0, 3, 1, 0, 1]) 0x26 = true ∧ (0 : Word) = Direction.word .right ∧
      (3 : Word) = Direction.word .down ∧ (⟨0, 0, .right, .down, 1, .serpentine, 1⟩ : Route).ok 2 1 = true) := by
  decide +kernel
theorem witness_SetGeometryRebuildsTheGrid :
    (lit.takes .sl (call [1, 1]) 0x27 = true ∧ hung7 ∈ lit.positions ∧ hung7.hung ≠ .empty) ∧
    (wall.takes .sl (call [33, 1]) 0x27 = true ∧ 32 < (33 : Word).toNat) ∧
    wall.takes .sl (call [32, 16]) 0x27 = true ∧
    ¬((∃ p ∈ wall.positions, p.hung ≠ .empty) ∨ wall.hangOf .dl ≠ none ∨ wall.hangOf .sl ≠ none ∨
      (∃ p ∈ wall.positions, p.applied ≠ p.target) ∨ ∃ i v n, Change.override i v n ∈ wall.changes) := by
  refine ⟨by decide +kernel, by decide +kernel, by decide +kernel, ?_⟩
  rintro (h | h | h | h | ⟨i, v, n, h⟩)
  · exact absurd h (by decide +kernel)
  · exact absurd h (by decide +kernel)
  · exact absurd h (by decide +kernel)
  · exact absurd h (by decide +kernel)
  · cases h
theorem witness_WallReadsAnswer :
    lit.takes .sl (call [0, 0]) 0x28 = true ∧
    (lit.takes .sl (call [0, 8]) 0x28 = true ∧ ∀ p ∈ lit.positions, p.hung.tag ≠ some 8) ∧
    (lit.takes .sl (call [0, 7]) 0x28 = true ∧ lit.positions[0]? = some hung7 ∧ hung7.hung.occupant = some tile7 ∧
      statusOf lit.tiles 7 = some status7) ∧
    lit.takes .dl (call [2]) 0x2E = true ∧ (1 : Word).toNat < lit.settings.columns * lit.settings.rows := by
  decide +kernel

/-! ### Witnesses: hanging -/

/-- A mask with an absent route; two masked routes over one position; and hangs of branch 0 and of branches 0 and 1, with
places free, with one place, with the queue full, and with the transmitter free. -/
theorem witness_HangStartsItsRollCalls :
    (routed.takes .dl (call [8, 4, 0]) 0x29 = true ∧ (routed.port .dl).job = none ∧
      routed.settings.routes.getD 3 none = none) ∧
    (routed.takes .dl (call [5, 4, 0]) 0x29 = true ∧ 0 ∈ routed.routePositions (short 0) ∧
      routed.settings.routes.getD 0 none = some (short 0) ∧ routed.settings.routes.getD 2 none = some (short 0)) ∧
    (routed.takes .dl (call [1, 1023, 1]) 0x29 = true ∧ routed.wire = some wireOf3 ∧ routed.orders.length + 1 ≤ 8 ∧
      8 ≤ (List.replicate 8 (⟨.sweep, 2, .drift⟩ : Order)).length ∧ Link.dl ∉ routed.spaceWaiters ∧
      routed.wire ≠ none ∧ min 2 (8 - (List.replicate 7 (⟨.sweep, 2, .drift⟩ : Order)).length) = 1) ∧
    (let free := { routed with wire := none, branches := [{ Branch.atRest with state := .fault }, .atRest, readyBranch, .atRest] }
     free.takes .dl (call [3, 4, 0]) 0x29 = true ∧ free.orders = [] ∧ free.owed = [] ∧ free.spaceWaiters = [] ∧
      ([0, 1, 2, 3].filter (fun b => (3 : Word).getLsbD b)) = [0] ++ [1] ∧
      (free.branches[0]?).map Branch.state = some .fault ∧ (free.branches[1]?).map Branch.state = some .idle ∧
      (free.branches[2]?).map Branch.state = some .ready ∧ Link.dl ∉ free.postWaiters) ∧
    ∀ c, ¬((∃ a ∈ [((0 : Nat), short 0)], ∃ b ∈ [((0 : Nat), short 0)], a.1 ≠ b.1 ∧
          (∃ i, i ∈ routed.routePositions a.2 ∧ i ∈ routed.routePositions b.2) ∧ (c = a.1 ∨ c = b.1)) ∨
      (∃ a ∈ [((0 : Nat), short 0)], ∃ (i : Nat) (q : Position) (u : TileAt), routed.positions[i]? = some q ∧
        i ∈ routed.routePositions a.2 ∧ q.hung.tile = some u ∧ u.branch ∉ [0] ∧ (c = a.1 ∨ c = u.branch)) ∨
      (∃ h : HangWork, routed.hangOf (otherLink .dl) = some h ∧ ∃ b ∈ h.branches,
        (b.branch ∈ [0] ∧ c = b.branch) ∨ ∃ a ∈ [((0 : Nat), short 0)], (∃ i, i ∈ routed.routePositions a.2 ∧
          i ∈ routed.routePositions b.route) ∧ (c = a.1 ∨ c = b.branch))) := by
  refine ⟨by decide +kernel, by decide +kernel, by decide +kernel, by decide +kernel, fun c => ?_⟩
  rintro (⟨a, ha, b, hb, hab, _⟩ | ⟨a, ha, i, q, u, hq, hi, hu, hb, _⟩ | ⟨h, hh, _⟩)
  · rw [List.mem_singleton] at ha hb
    exact hab (by rw [ha, hb])
  · rw [List.mem_singleton] at ha
    subst ha
    have h0 : routed.routePositions (short 0) = [0] := by decide +kernel
    rw [h0, List.mem_singleton] at hi
    subst hi
    have hq' : hung7 = q := Option.some.inj hq
    subst hq'
    have hu' : tile7 = u := Option.some.inj hu
    subst hu'
    exact hb (by decide)
  · have hn : routed.hangOf (otherLink .dl) = none := by decide +kernel
    rw [hn] at hh
    cases hh
/-- R48, R67: a HANG of branches 0 and 1 finds the transmitter free and branch 0 IDLE; with branches 0 and 2 on one
position it names both. -/
theorem test_hang_takes_the_free_transmitter :
    let s := { routed with wire := none, positions := [.atRest, .atRest], settings :=
      { routed.settings with routes := [some (short 0), some (short 1), some (short 0), none] } }
    let t := after (.hang .dl (call [3, 4, 0])) s
    (t.wire.map Wire.order = some ⟨.rollCall, 0, .hang .dl⟩ ∧ t.orders = [⟨.rollCall, 1, .hang .dl⟩] ∧
      t.branches.map Branch.state = [.calling, .idle, .idle, .idle] ∧ t.dl.slot.map Reply.words = some [2]) ∧
    (after (.hang .dl (call [5, 4, 0])) s).dl.slot.map Reply.words = some [5] := by decide +kernel
/-- Branch 0 has reported tag 7, and the roll call of branch 1 ends with `tags` on the wire. -/
def resolvingHang (policy : Policy) : HangWork :=
  { ramp := 4, policy := policy, phase := .calling
    branches := [⟨0, short 0, .reported, [⟨0, 7, 1, .turned⟩], false, false⟩, ⟨1, short 1, .queued, [], false, false⟩]
    staged := [(0, .empty)], seen := [], strangers := [], counts := .zero, prov := none }
def resolvingWire (tags : List Nat) : Wire :=
  ⟨⟨.rollCall, 1, .hang .sl⟩, true, false, false, tags.length, false, false,
    ((List.range tags.length).zip tags).map (fun e => ⟨e.1, e.2, 1, .normal⟩), []⟩
def resolving (policy : Policy) (tags : List Nat) : State :=
  { hangState (resolvingHang policy) with
    wire := some (resolvingWire tags), pool := { lit.pool with index := [] }
    branches := [.atRest, { Branch.atRest with state := .calling }, .atRest, .atRest] }
def provEndHang : HangWork :=
  { resolvingHang .record with
    phase := .recording, strangers := [8], staged := [(0, .placed tile7), (1, .unrecorded ⟨8, .normal, 1, 0⟩ .noRecord)]
    prov := some { retiring19 with tag := 8, provisional := true, revision := some 9140 } }
/-- The strangers 7 and 8 of two roll calls, tag 7 found twice, and the last stranger's write at its end (R70 to R74). -/
theorem test_resolution :
    let stagedOf (s : State) : Option (HangPhase × List (Nat × Hung)) := (s.hangOf .sl).map (fun h => (h.phase, h.staged))
    stagedOf (after (.endMarker 1) (resolving .default [8])) =
      some (.posted, [(0, .unrecorded ⟨7, .turned, 0, 0⟩ .noRecord), (1, .unrecorded ⟨8, .normal, 1, 0⟩ .noRecord)]) ∧
    stagedOf (after (.endMarker 1) (resolving .default [7])) =
      some (.posted, [(0, .unrecorded ⟨7, .turned, 0, 0⟩ .noRecord), (1, .duplicate ⟨7, .normal, 1, 0⟩)]) ∧
    ((after (.endMarker 1) (resolving .record [8])).hangOf .sl).map (fun h => (h.phase, h.strangers)) =
      some (.recording, [7, 8]) ∧
    stagedOf (after .indexSwapComplete { hangState provEndHang with nvPort := ⟨[], some ⟨⟨.sl, .swap⟩, true⟩, none⟩ }) =
      some (.posted, [(0, .placed tile7), (1, .placed ⟨8, .normal, 1, 0⟩)]) := by decide +kernel
theorem witness_WaitingHangGoesOn_resolution :
    let h := resolvingHang .record
    let s := resolving .record [8]
    let w := resolvingWire [8]
    ((s.port .sl).job = some (hangJob h) ∧ h.phase = .calling ∧ h.prov = none ∧
      (h.branches.map HangBranch.branch).Pairwise (· < ·) ∧ 1 ∈ h.branches.map HangBranch.branch ∧
      (∀ y ∈ h.branches, y.branch ≠ 1 → y.outcome.isFinal = true) ∧
      (∀ y ∈ h.branches, y.list.map RollAnswer.chainIndex = List.range y.list.length ∧
        y.route.inside s.settings.columns s.settings.rows = true) ∧
      (h.branches.flatMap (fun y => s.routePositions y.route)).Nodup ∧
      (h.staged.map Prod.fst).Pairwise (· < ·) ∧ (∀ e ∈ h.staged, e.2 = .empty)) ∧
    (s.wire = some w ∧ w.order = ⟨.rollCall, 1, .hang .sl⟩ ∧ w.echoed = true ∧ w.dropped = false ∧ w.bad = false ∧
      w.rolls.map RollAnswer.chainIndex = List.range w.rolls.length ∧ s.orders = [] ∧ (∀ e ∈ s.idleWaits, e.1 ≠ 1) ∧
      s.branches[1]? = some { Branch.atRest with state := .calling }) ∧
    (h.policy = .record ∧ s.findEntry 7 = none ∧ s.isLocked 7 = false ∧ s.pool.index.length + s.reservations < 512 ∧
      s.pool.free = 3 :: [5, 9] ∧ s.findEntry 8 = none ∧ s.positionOf 7 = some 0 ∧ s.changes.length < 16 ∧
      16 ≤ (List.replicate 16 (Change.take 0)).length) := by decide +kernel
theorem witness_WaitingHangGoesOn_provisional :
    let p := { retiring19 with tag := 8, provisional := true, revision := some 9140 }
    let s := { hangState provEndHang with nvPort := ⟨[], some ⟨⟨.sl, .swap⟩, true⟩, none⟩ }
    ((s.port .sl).job = some (hangJob provEndHang) ∧ provEndHang.prov = some p ∧ p.provisional = true ∧
      provEndHang.strangers = [p.tag] ∧ provEndHang.phase = .recording ∧ s.changes.length < 16 ∧
      s.positionOf p.tag = none ∧ s.nvPort.current = some ⟨⟨.sl, .swap⟩, true⟩ ∧ p.revision ≠ none) ∧
    ({ s with nvPort := ⟨[], some ⟨⟨.sl, .retire 41⟩, true⟩, none⟩ }.nvPort.current =
        some ⟨⟨.sl, .retire 41⟩, true⟩ ∧ 3 ≤ { p with replacements := 3 }.replacements ∧ p.replacements < 3 ∧
      { s.pool with free := [] }.free = []) ∧
    ({ s with nvPort := ⟨[⟨.sl, .swap⟩], none, none⟩ }.nvPort.waiting.head? = some ⟨.sl, .swap⟩ ∧
      { s.pool with counter := 4294967295 }.counter = 4294967295) := by decide +kernel
theorem witness_WaitingHangGoesOn :
    let h := hangWork .waitingIdle .calling
    let s := { hangState h with idleWaits := [(0, .sl)], postWaiters := [.sl] }
    ((s.port .sl).job = some (hangJob h) ∧ (0, Link.sl) ∈ s.idleWaits ∧ (s.branch 0).state = .idle ∧
      h.outcomeOf 0 = some .waitingIdle ∧ (∀ x ∈ h.branches, x.outcome ≠ .toQueue) ∧ s.wire = some wireOf3 ∧
      s.orders.length < 8) ∧ s.postWaiters = .sl :: [] ∧ s.changes.length < 16 := by decide +kernel

/-! ### Witnesses: the tile chain -/

theorem witness_ChainCallsAnswer :
    (lit.takes .dl (call [4]) 0x2B = true ∧ 3 < (4 : Word).toNat) ∧
    (8 ≤ { lit with orders := List.replicate 8 ⟨.sweep, 2, .drift⟩ }.orders.length ∧ (3 : Word).toNat ≤ 3) ∧
    (routed.takes .sl (call [3]) 0x2B = true ∧ routed.orders.length < 8 ∧ routed.wire = some wireOf3) ∧
    (lit.takes .sl (call [3]) 0x2B = true ∧ lit.wire = none ∧ lit.orders = [] ∧ lit.owed = [] ∧
      lit.spaceWaiters = [] ∧ lit.branches[3]? = some .atRest) ∧
    (lit.takes .dl (call [16]) 0x2C = true ∧ 15 < (16 : Word).toNat ∧ lit.takes .dl (call [15]) 0x2C = true) ∧
    (lit.takes .sl (call [3]) 0x2D = true ∧ lit.showLock = false) ∧
    ({ lit with branches := branchesWith { Branch.atRest with state := .fault } }.takes .sl (call [2]) 0x2D = true ∧
      (branchesWith { Branch.atRest with state := .fault })[2]? = some { Branch.atRest with state := .fault } ∧
      ∀ e ∈ lit.idleWaits, e.1 ≠ 2) := by decide +kernel
theorem witness_TransmitterTakesAndPlacesAreGiven :
    let s := { lit with orders := [⟨.rollCall, 2, .hang .sl⟩, ⟨.sweep, 1, .drift⟩] }
    let g := { lit with orders := [⟨.gather, 2, .drift⟩], branches := branchesWith readyBranch }
    let w := hangWork .queued .calling
    let b := { hangState w with wire := none, orders := [⟨.rollCall, 2, .hang .sl⟩], branches := branchesWith readyBranch }
    let v := hangWork .toQueue .calling
    (s.wire = none ∧ s.owed = [] ∧ s.spaceWaiters = [] ∧ s.branches[2]? = some .atRest) ∧
    (g.branches[2]? = some readyBranch ∧ readyBranch.state = .ready) ∧
    ((b.port .sl).job = some (hangJob w) ∧ readyBranch.state ≠ .idle ∧ readyBranch.state ≠ .fault) ∧
    (routed.wire = some wireOf3 ∧ { routed with owed := [2] }.owed = 2 :: [] ∧ routed.orders.length < 8 ∧
      (branchesWith readyBranch)[2]? = some readyBranch ∧ readyBranch.orig = some .drift) ∧
    (((hangState v).port .sl).job = some (hangJob v) ∧ v.toQueue = some 0 ∧ (hangState v).owed = [] ∧
      { hangState v with spaceWaiters := [.sl] }.spaceWaiters = .sl :: []) ∧
    (let t := { lit with orders := [⟨.sweep, 1, .drift⟩], owed := [2], branches := branchesWith readyBranch }
     t.wire = none ∧ t.branches[1]? = some .atRest ∧ t.owed = 2 :: [] ∧ t.branches[2]? = some readyBranch ∧
      readyBranch.orig = some .drift ∧ { t with orders := [] }.orders = []) ∧
    (let t := { hangState v with wire := none, orders := [⟨.sweep, 1, .sweepNow⟩], spaceWaiters := [.sl] }
     t.wire = none ∧ t.orders = ⟨.sweep, 1, .sweepNow⟩ :: [] ∧ t.branches[1]? = some .atRest ∧ t.owed = [] ∧
      (∀ y ∈ v.branches, y.branch ≠ 0 → y.outcome ≠ .toQueue) ∧ t.branches[0]? = some .atRest ∧ v.phase = .calling ∧
      ∃ y ∈ v.branches, y.branch ≠ 0 ∧ y.outcome.isFinal = false) ∧
    (let f : Branch := { Branch.atRest with state := .fault }
     (branchesWith f)[2]? = some f ∧ f.state = .fault ∧
      { readyBranch with state := .fault }.orig = some .drift) := by decide +kernel
theorem witness_SweepClashIsNotPerformed :
    let s := { lit with orders := [⟨.sweep, 2, .drift⟩], branches := branchesWith readyBranch }
    s.wire = none ∧ s.owed = [] ∧ s.spaceWaiters = [] ∧ s.branches[2]? = some readyBranch ∧
      readyBranch.state ≠ .idle ∧ readyBranch.state ≠ .fault := by decide +kernel
theorem witness_SweepEventsMoveTheBranch :
    let x : Branch := { readyBranch with state := .starting }
    let y : Branch := { readyBranch with state := .sweeping, sweepTimer := true }
    let s := { lit with wire := some sweepWire, branches := branchesWith x }
    let r := { routed with branches := branchesWith y }
    (s.branches[2]? = some x ∧ s.wire = some sweepWire ∧ sweepWire.order.branch = 2 ∧ sweepWire.echoed = false ∧
      (5 : Word) ≠ headerWord .sweep 15 ∧ s.orders = [] ∧ sweepWire.order.orig = .drift ∧
      sweepWire.startPassed = false ∧ sweepWire.doneHeld = false) ∧
    ({ sweepWire with echoed := true }.echoed = true ∧ { sweepWire with startPassed := true }.startPassed = true) ∧
    (r.branches[2]? = some y ∧ y.state = .sweeping ∧ (3 : Word) ≠ doneWord 15 ∧ r.wire = some wireOf3 ∧
      y.orig = some .drift ∧ (∀ e ∈ r.idleWaits, e.1 ≠ 2) ∧ r.wire ≠ none ∧ ∀ l ∈ [Link.pl, .dl, .sl],
        y.orig ≠ some (.hang l)) ∧
    (let v := { lit with branches := branchesWith y }
     v.wire = none ∧ v.orders = [] ∧ v.owed = [] ∧ v.spaceWaiters = [] ∧ (List.replicate 8 busyWire.order).length = 8) ∧
    (let w := { sweepWire with echoed := true, doneHeld := true }
     let v := { s with wire := some w, orders := [⟨.rollCall, 0, .hang .sl⟩] }
     v.wire = some w ∧ w.order.kind = .sweep ∧ x.state = .starting ∧ x.orig = some .drift ∧ v.owed = [] ∧
       v.spaceWaiters = [] ∧ v.branches[0]? = some .atRest ∧ Branch.atRest.state = .idle ∧ w.order.branch ≠ 0) ∧
    (readyBranch.state ≠ .sweeping ∧ readyBranch.state ≠ .starting) ∧
    (let h := hangWork .queued .calling
     let w := { rollWire with echoed := false }
     let v := { hangState h with wire := some w }
     v.wire = some w ∧ w.order.orig = .hang .sl ∧ w.dropped = false ∧ v.orders = [] ∧ h.phase = .calling ∧
       (v.port .sl).job = some (hangJob h) ∧ ∃ z ∈ h.branches, z.branch ≠ 0 ∧ z.outcome.isFinal = false) := by
  decide +kernel
/-- R53 (log 22): a done report held in STARTING is taken as the branch enters SWEEPING, after the next take. -/
theorem test_held_done :
    let x : Branch := { readyBranch with state := .starting }
    let s := { lit with
      wire := some { sweepWire with echoed := true }, branches := branchesWith x, orders := [⟨.sweep, 0, .sweepNow⟩] }
    let t := after .sweepStartPoint (after (.doneReport 2 (doneWord 15)) s)
    (t.branches[2]?).map Branch.state = some .ready ∧ t.orders = [⟨.gather, 2, .drift⟩] ∧
      t.wire.map Wire.order = some ⟨.sweep, 0, .sweepNow⟩ := by decide +kernel
theorem witness_AnswerStreamsEnd :
    let h := hangWork .queued .calling
    let c : Branch := { Branch.atRest with state := .calling }
    let s := { hangState h with wire := some rollWire, branches := [c, .atRest, .atRest, .atRest] }
    let g : Branch := { Branch.atRest with state := .gathering, orig := some .drift }
    let u := { lit with wire := some gatherWire, branches := [g, .atRest, .atRest, .atRest] }
    (s.wire = some rollWire ∧ rollWire.echoed = true ∧ rollWire.bad = false ∧ s.branches[0]? = some c) ∧
    ((0x010F : Word).toNat % 256 ≤ 15 ∧ (0x010F : Word).toNat / 256 % 4 ≤ 1 ∧ ¬((0x0010 : Word).toNat % 256 ≤ 15)) ∧
    (u.wire = some gatherWire ∧ gatherWire.order.kind = .gather ∧ -400 ≤ (0xFE70 : Word).toInt ∧
      (1250 : Word).toInt ≤ 1250 ∧ ¬((1251 : Word).toInt ≤ 1250) ∧ u.branches[0]? = some g) ∧
    (s.orders = [] ∧ (∀ e ∈ s.idleWaits, e.1 ≠ 0) ∧ { rollWire with dropped := true }.dropped = true ∧
      (s.port .sl).job = some (hangJob h) ∧ h.phase = .calling ∧
      (∃ y ∈ h.branches, y.branch ≠ 0 ∧ y.outcome.isFinal = false) ∧ gatherWire.order.orig = .drift) := by
  decide +kernel
theorem witness_GatherResultsUpdateTheTable :
    statusOf lit.tiles 8 = none ∧ statusOf lit.tiles 7 = some status7 ∧
    (lit.positions[0]? = some hung7 ∧ hung7.hung.occupant = some tile7 ∧ tile7.branch = 0 ∧ tile7.tag ≠ 8 ∧
      ∀ e ∈ lit.indexed, e.2.hung.tag = some 7 → e.1 = 0) ∧
    (let xs : List Sample := [⟨7, 300, 40, false⟩, ⟨8, 1, 1, true⟩, ⟨7, 301, 41, true⟩]
     xs.find? (fun x => x.tag == 7) = some ⟨7, 300, 40, false⟩ ∧ xs.find? (fun x => x.tag == 9) = none) := by
  decide +kernel
/-- R91: the second answer for a tag, and an answer for a tag with no entry, are discarded and counted. -/
theorem test_second_answer_discarded :
    let t := lit.useGather 0 [⟨7, 300, 40, true⟩, ⟨8, 1, 1, true⟩, ⟨7, 301, 41, true⟩]
    t.resultsDiscarded = 2 ∧ (statusOf t.tiles 7).map TileStatus.e = some (some 300) := by decide +kernel

/-! ### Witnesses: the NV Port -/

def newWrite : RecWrite :=
  { tag := 8, groups := [.head 8 1 .unity ⟨true, false, false⟩, .survey survey13], written := [], unwritten := [10, 11]
    phase := .cells, chained := 0, replacements := 0, retired := 0, reserved := true, provisional := false
    revision := none }
def swapping : RecWrite := { newWrite with written := [10, 11], unwritten := [], phase := .swap, chained := 2 }
def writeJob (w : RecWrite) : Job := ⟨false, false, .write w⟩
def queued (w : RecWrite) (op : NvOp) : State :=
  { recorded with sl := { openPort with job := some (writeJob w) }, nvPort := ⟨[⟨.sl, op⟩], none, none⟩ }
def running (j : Job) (op : NvOp) : State :=
  { recorded with sl := { openPort with job := some j }, nvPort := ⟨[], some ⟨⟨.sl, op⟩, true⟩, none⟩ }
def provHang : HangWork := { hangWork .reported .recording with prov := some { swapping with provisional := true } }

theorem witness_NvPortBeginsTheOldestRequest :
    ((queued newWrite (.cellWrite 10 (.survey survey13))).nvPort.current = none ∧
      (queued newWrite (.cellWrite 10 (.survey survey13))).nvPort.waiting =
        ⟨.sl, .cellWrite 10 (.survey survey13)⟩ :: []) ∧
    (((queued swapping (.remove 3)).port .sl).job = some (writeJob swapping) ∧
      ((queued swapping .swap).pool.counter ≠ 4294967295 ∧ swapping.provisional = false)) ∧
    (provHang.prov = some { swapping with provisional := true }) ∧
    { (queued swapping .swap).pool with counter := 4294967295 }.counter = 4294967295 := by decide +kernel
theorem witness_RecordWriteGoesOnRequestByRequest :
    let head : Group := .head 8 1 .unity ⟨true, false, false⟩
    let s := running (writeJob newWrite) (.cellWrite 10 head)
    (s.nvPort.current = some ⟨⟨.sl, .cellWrite 10 head⟩, true⟩ ∧ s.writeOf .sl = some newWrite ∧
      newWrite.unwritten = 10 :: 11 :: [] ∧ newWrite.groups[1]? = some (.survey survey13)) ∧
    ({ newWrite with written := [10], unwritten := [11] }.unwritten = [11] ∧ ([10, 11] : List Nat)[0]? = some 10) ∧
    (recorded.pool.free = 3 :: [5, 9] ∧ { newWrite with replacements := 2 }.replacements < 3 ∧
      3 ≤ { newWrite with replacements := 3 }.replacements ∧ { recorded.pool with free := [] }.free = []) ∧
    (swapping.unwritten = [] ∧ { swapping with chained := 0 }.written[1]? = some 11 ∧
      { swapping with chained := 1 }.written[2]? = none) ∧
    { wall with nvPort := ⟨[], some ⟨⟨.sl, .retire 41⟩, false⟩, none⟩ }.nvPort.current =
      some ⟨⟨.sl, .retire 41⟩, false⟩ := by decide +kernel
/-- R16: the failed verify of a cell write whose job has ended retires nothing. -/
theorem test_ended_write_retires_nothing :
    let t := after (.cellWriteComplete false)
      { store19 with nvPort := ⟨[], some ⟨⟨.sl, .cellWrite 41 (.survey survey13)⟩, false⟩, none⟩ }
    t.pool = store19.pool ∧ t.nvPort = ⟨[], none, none⟩ ∧ t.sl = store19.sl := by decide +kernel
theorem witness_SwapAndEraseTakeEffectAtCompletion :
    let w := { swapping with tag := 7, revision := some 5 }
    (w.revision = some 5 ∧ (running (writeJob w) .swap).nvPort.current = some ⟨⟨.sl, .swap⟩, true⟩ ∧
      (running (writeJob w) .swap).writeOf .sl = some w ∧ w.provisional = false ∧
      (running (writeJob w) .swap).findEntry 7 = some ⟨7, 0, 3, .ok, [0, 1]⟩ ∧
      (running (writeJob w) .swap).positionOf 7 = some 0 ∧
      rising ((running (writeJob w) .swap).nv.index.map NvEntry.tag) ∧
      ((running ⟨true, true, .write w⟩ .swap).port .sl).job = some ⟨true, true, .write w⟩) ∧
    ({ recorded with nvPort := ⟨[], some ⟨⟨.sl, .swap⟩, false⟩, some w⟩ }.nvPort.orphan = some w) ∧
    ((running ⟨false, true, .erase 9⟩ (.remove 9)).nvPort.current = some ⟨⟨.sl, .remove 9⟩, true⟩ ∧
      ((running ⟨false, true, .erase 9⟩ (.remove 9)).port .sl).job = some ⟨false, true, .erase 9⟩ ∧
      (running ⟨false, true, .erase 9⟩ (.remove 9)).findEntry 9 = some ⟨9, 2, 4, .damaged, [2]⟩ ∧
      ((running ⟨true, true, .erase 9⟩ (.remove 9)).port .sl).job = some ⟨true, true, .erase 9⟩) ∧
    (recorded.pool.low = decide (recorded.pool.free.length < recorded.settings.watermark) ∧
      (recorded.nv.index.filter (fun x => decide (x.tag ≠ 7))).length < 512 ∧
      (recorded.pool.index.filter (fun x => decide (x.tag ≠ 7))).length < 512) := by decide +kernel
/-- R6: with 512 other tags stored, one of them dropped by a scan, a new tag takes the place of the dropped one. -/
theorem test_swap_keeps_512_stored :
    let stored : List NvEntry := (List.range 512).map (fun k => ⟨k + 1, 0, 3, .ok⟩)
    let live := (stored.filter (fun e => decide (e.tag ≠ 40))).map NvEntry.tag
    let l := putNvEntry ⟨600, 0, 4, .ok⟩ (roomInNvIndex 600 live stored)
    l.length = 512 ∧ l.all (fun e => decide (e.tag ≠ 40)) = true ∧ l.getLast? = some ⟨600, 0, 4, .ok⟩ ∧
      (putNvEntry ⟨40, 0, 4, .ok⟩ (roomInNvIndex 40 live stored)).length = 512 := by decide +kernel
theorem witness_RoomForTheDropped :
    let others : List NvEntry := (List.range 512).map (fun k => ⟨k + 10, 0, 3, .ok⟩)
    512 ≤ others.length ∧ others.find? (fun x => (recorded.findEntry x.tag).isNone) = some ⟨10, 0, 3, .ok⟩ ∧
      rising (others.map NvEntry.tag) := by decide +kernel
theorem witness_AuditAndSaveGoOnRequestByRequest :
    let a : AuditWork := ⟨7, 4, 0, 0, some ⟨7, 0, [], [], false⟩⟩
    let s := running ⟨false, false, .audit a⟩ (.checkRead 0)
    let v : SaveWork := ⟨small, 7, 7, 3, 3⟩
    (s.nvPort.current = some ⟨⟨.sl, .checkRead 0⟩, true⟩ ∧ (s.port .sl).job = some ⟨false, false, .audit a⟩ ∧
      mapGet 0 s.nv.cells = some (.head 7 1 ⟨2000, 2001, 2002⟩ ⟨false, true, false⟩) ∧
      chainOf s.pool.chain 0 = chainOf s.nv.chain 0 ∧ chainOf s.nv.chain 0 = .next 1 ∧ 1 < 1536 ∧
      1 ∉ s.pool.retired) ∧
    (let r : AuditRead := ⟨7, 1, [0], [.drift], false⟩
     r.visited ≠ [] ∧ mapGet r.cell s.nv.cells = some (.drift ⟨1, 2, 3, 250, 4, 5, 6⟩) ∧
       chainOf s.nv.chain r.cell = .last ∧
       chainOf s.pool.chain r.cell = .last ∧ r.expected = (Group.drift ⟨1, 2, 3, 250, 4, 5, 6⟩).kind :: [] ∧
       ∀ e ∈ s.pool.index, 7 < e.tag → e.tag ≠ r.tag) ∧
    ((running ⟨false, false, .audit { a with last := 9 }⟩ (.damage 9)).nvPort.current =
      some ⟨⟨.sl, .damage 9⟩, true⟩) ∧
    ((running ⟨false, true, .save v⟩ (.settings 7 small)).nvPort.current = some ⟨⟨.sl, .settings 7 small⟩, true⟩ ∧
      v.cell = 7 ∧ 3 ≤ v.cellRewrites ∧ { v with cell := 6, cellRewrites := 2 }.cell ≠ 7 ∧
      ((running ⟨true, true, .save v⟩ (.settings 7 small)).port .sl).job = some ⟨true, true, .save v⟩) ∧
    ({ recorded with nvPort := ⟨[], some ⟨⟨.sl, .damage 7⟩, false⟩, none⟩ }.nvPort.current =
      some ⟨⟨.sl, .damage 7⟩, false⟩) := by decide +kernel
/-- R22, R179: a save that LINK RESET detached ends without a record and without JOB_DONE. -/
theorem test_detached_save_drops_its_result :
    let s := running ⟨true, true, .save ⟨small, 7, 7, 3, 3⟩⟩ (.settings 7 small)
    let t := after (.settingsCellWriteComplete true) s
    t.sl.job = none ∧ t.sl.record = s.sl.record ∧ t.sl.flags = s.sl.flags := by decide +kernel
/-- R20: after a sound record the audit passes over a locked one, counting it, and reads the next. -/
theorem test_audit_goes_on :
    let s := running ⟨false, false, .audit ⟨7, 4, 0, 0, some ⟨7, 1, [0], [.drift], false⟩⟩⟩ (.checkRead 1)
    let t := after (.auditCheckReadComplete true) { s with
      dl := { openPort with job := some ⟨false, false, .erase 8⟩ }
      pool := { s.pool with index := [⟨7, 0, 3, .ok, [0, 1]⟩, ⟨8, 4, 6, .ok, [4]⟩, ⟨9, 2, 4, .ok, [2]⟩] } }
    (t.sl.job.map Job.work) = some (.audit ⟨9, 5, 0, 1, some ⟨9, 2, [], [], false⟩⟩) ∧
      t.nvPort.waiting = [⟨.sl, .checkRead 2⟩] := by decide +kernel
/-- R19: a cell of the wrong kind makes the record unsound. -/
theorem test_audit_wrong_kind :
    let s := running ⟨false, false, .audit ⟨7, 4, 0, 0, some ⟨7, 1, [0], [.trim], false⟩⟩⟩ (.checkRead 1)
    (after (.auditCheckReadComplete true) s).nvPort.waiting = [⟨.sl, .damage 7⟩] := by decide +kernel

/-! ### Witnesses: targets, ticks, ramps -/

theorem witness_TargetsAreComputed :
    (0 ≤ (2500000 : Int) * 1 ∧ (-500000 : Int) * 1 < 0) ∧ Position.atRest.hung.occupant = none ∧
    (examplePosition.hung.occupant = some ⟨0x2B9D7741, .turned, 0, 0⟩ ∧ examplePosition.adopted = some exampleCopy) ∧
    exampleState.positions[0]? = some examplePosition := by decide +kernel
theorem witness_RampsStepTowardTheirTargets :
    Position.atRest.remaining = 0 ∧ 1 ≤ rampPosition.remaining ∧ wall.global.remaining = 0 ∧
    1 ≤ { wall.global with remaining := 1022 }.remaining ∧
    (wall.power = .on ∧ wall.changes = [] ∧ wall.hold = true) := by decide +kernel
theorem witness_FrameEventsFollowTheFilter :
    wall.power = .on ∧ Level.low = wall.frame.settled ∧ (Level.high ≠ wall.frame.settled ∧ wall.frame.candidate = 0) ∧
    { wall.frame with candidate := 1 }.candidate = 1 ∧ wall.settings.polarity = .rising ∧
    starting.frame.state = .lost ∧ wall.frame.state = .running := by decide +kernel
theorem witness_ChangingTicksBuildADigest :
    let s := { wall with positions := [rampPosition, .atRest] }
    (s.power = .on ∧ s.changes = [] ∧ s.hold = true) ∧
    (after (.frameTick false) s).positions.map Position.applied ≠ s.positions.map Position.applied ∧
    (after (.frameTick false) wall).positions.map Position.applied = wall.positions.map Position.applied ∧
    (after (.frameTick false) wall).global.applied = wall.global.applied := by decide +kernel
theorem witness_DriftDirtyPositionsAreTaken :
    let s := { exampleState with hold := false, dirty := [0, 1] }
    s.power = .on ∧ s.changes = [] ∧ s.hold = false ∧ s.dirty.Pairwise (· < ·) ∧
      (∀ i ∈ s.dirty, i < s.positions.length) ∧ wall.hold = true := by
  decide +kernel
theorem witness_IntentEntriesApplyAtTheTick :
    let o : IntentOps := ⟨some 500, some 15, none, some 255, some (-256)⟩
    let s := { lit with changes := [.take 1, .override 1 (some 0) 0, .global 0 o] }
    (lit.power = .on ∧ lit.hold = true ∧ { lit with changes := [.global 0 o] }.changes = [.global 0 o]) ∧
    { lit with changes := [.override 0 none 1023] }.changes = [.override 0 none 1023] ∧
    lit.positions[0]? = some hung7 ∧
    (s.changes[2]? = some (.global 0 o) ∧ s.changes[1]? = some (.override 1 (some 0) 0) ∧ s.changes.length ≤ 3 ∧
      (s.afterEntries 1).positions[1]? = some .atRest) ∧
    (lit.settings.source = .base ∨ lit.timer.state = .stopped) := by decide +kernel
/-- R83, R124 (log 6): a FRAME source's pulse before the commit starts its cycle, and the queue is applied after it. -/
theorem test_pulse_before_the_commit :
    let t := after (.frameTick true) { lit with
      settings := { small with source := .frame }, timer := ⟨.running, 1, 3⟩, changes := [.override 0 (some 5) 0] }
    t.cyclesStarted = 1 ∧ t.awaiting = [0] ∧ (t.positions[0]?).map Position.override = some (some 5) := by decide +kernel
/-- Tag 7 was hung without a record and has one now. -/
theorem witness_TakeAdoptsPendingPositions :
    let s := { recorded with changes := [.take 5] }
    (s.power = .on ∧ s.hold = true ∧ s.changes = [.take 5]) ∧
    (s.positions[0]? = some hung7 ∧ hung7.hung.occupant = some tile7 ∧ hung7.adopted = some copy7 ∧
      s.pendingReason hung7 = some .recordAvailable) ∧
    (s.positions[1]? = some .atRest ∧ s.pendingReason .atRest = none) ∧
    (∀ p ∈ lit.positions, lit.pendingReason p = none) ∧ 4 ≤ [[], [], [], ([] : List PosRecord)].length ∧
    (let u := { recorded with changes := [.override 0 none 1, .take 5], hold := false }
     u.changes[1]? = some (.take 5) ∧
      ((u.afterEntries 1).positions[0]?).bind (u.afterEntries 1).pendingReason = some .recordAvailable) ∧
    (([0, 1] : List Nat).map (fun c => mapGet c recorded.pool.image) =
      (Group.head 7 1 ⟨2000, 2001, 2002⟩ ⟨false, true, false⟩ :: ([] ++ [.drift ⟨1, 2, 3, 250, 4, 5, 6⟩] ++ [])).map some ∧
      recorded.settings.batch[1]? = some .factory ∧ recorded.findEntry 7 = some ⟨7, 0, 3, .ok, [0, 1]⟩ ∧
      recorded.findEntry 8 = none) := by
  decide +kernel
/-- R105: the five reasons, and none, over tags 7 (USABLE, revision 3), 8 (ABSENT) and 9 (DAMAGED). -/
theorem test_pending_reasons :
    let record : Adopted := { copy7 with source := .record, revision := 3, driftSource := .drift }
    [{ record with revision := 2 }, copy7, { record with tag := 8 }, { record with tag := 9 },
      { record with driftSource := .batch, coef := ⟨1, 2, 3, 4, 5, 6, 7⟩ }, record].map recorded.reasonOf =
      [some .newRevision, some .recordAvailable, some .recordAbsent, some .recordDamaged, some .batchChanged, none] := by
  decide +kernel
theorem witness_RevertRestoresThePoppedPoint :
    let point : List PosRecord := [⟨0, 7, { copy7 with batch := 3 }, none⟩, ⟨1, 8, copy7, none⟩]
    let s := { lit with changes := [.revert 5], history := [point] }
    (s.power = .on ∧ s.hold = true ∧ s.changes = [.revert 5] ∧ s.history = point :: [] ∧
      (point.map PosRecord.position).Pairwise (· < ·)) ∧
    (hung7.hung.occupant = some tile7 ∧ tile7.tag = 7 ∧ hung7.adopted ≠ some { copy7 with batch := 3 }) ∧
    (∀ r ∈ point, r.position = 1 → Position.atRest.hung.tag ≠ some r.tag) ∧ lit.history = [] ∧
    (let u := { s with changes := [.revert 1, .revert 2] }
     u.changes[1]? = some (.revert 2) ∧ (u.afterEntries 1).history = [] ∧ (u.afterEntries 0).history = point :: []) := by
  decide +kernel
/-- A position that shows tag 7 as DUPLICATE. -/
def shows7 : Position := { Position.atRest with hung := .duplicate tile7 }
/-- R68, R72: a hang of other branches finds tag 7 at position 1, and position 0, which shows it as DUPLICATE, becomes
EMPTY; one that finds another tag leaves it. -/
theorem test_placed_tag_vacates_the_duplicate_that_shows_it :
    let after (tag : Nat) : List Hung :=
      (({ hangState (hangWork (.failed .broken) .posted) with
        changes := [.place .sl 5 [(1, .placed ⟨tag, .normal, 1, 0⟩)] []], positions := [shows7, .atRest]
        }).afterEntries 1).positions.map Position.hung
    after 7 = [.empty, .unrecorded ⟨7, .normal, 1, 0⟩ .noRecord] ∧
    after 8 = [.duplicate tile7, .unrecorded ⟨8, .normal, 1, 0⟩ .noRecord] := by
  decide +kernel
/-- Tag 7 moves to position 1 over an EMPTY entry, and a tag without a record comes to position 0; in a queue of three
entries, tag 7 turns at position 0 and is found again at position 1. -/
theorem witness_PlaceAppliesTheStagedMap :
    let h := hangWork (.failed .broken) .posted
    let staged : List (Nat × Hung) := [(0, .unrecorded ⟨8, .normal, 0, 0⟩ .noSpace), (1, .placed ⟨7, .turned, 0, 1⟩)]
    let s := { hangState h with changes := [.place .sl 5 staged []] }
    (s.power = .on ∧ s.hold = true ∧ (s.port .sl).job = some (hangJob h) ∧ (hangJob h).detached = false ∧
      (∃ b ∈ h.branches, b.outcome.isFailed = true)) ∧
    (mapGet 2 staged = none ∧ mapGet 0 staged = some (.unrecorded ⟨8, .normal, 0, 0⟩ .noSpace) ∧
      s.positionOf 8 = none ∧ s.findEntry 8 = none ∧ s.positionOf 7 = some 0) ∧
    (let dup : List (Nat × Hung) := [(0, .placed ⟨7, .turned, 0, 0⟩), (1, .duplicate ⟨7, .normal, 1, 0⟩)]
     let u := { hangState h with changes := [.global 0 ⟨none, none, none, none, none⟩, .place .sl 5 dup [], .take 1] }
     u.changes[1]? = some (.place .sl 5 dup []) ∧ ((u.afterEntries 1).port .sl).job = some (hangJob h) ∧
      mapGet 1 dup = some (.duplicate ⟨7, .normal, 1, 0⟩) ∧
      (u.afterEntries 2).positions.map Position.hung =
        [.unrecorded ⟨7, .turned, 0, 0⟩ .noRecord, .duplicate ⟨7, .normal, 1, 0⟩] ∧
      (u.afterEntries 2).positions.map Position.remaining = [5, 5]) ∧
    (mapGet 0 [((0 : Nat), Hung.empty), (1, Hung.empty)] = some .empty ∧ hung7.hung ≠ .empty ∧
      (hung7.hung.tile = some tile7 ∧ ∀ e ∈ [((1 : Nat), Hung.empty)], e.2.tag ≠ some 7)) ∧
    (let one : List (Nat × Hung) := [(1, .placed ⟨7, .normal, 1, 0⟩)]
     let u := { hangState h with changes := [.place .sl 5 one []], positions := [shows7, .atRest] }
     u.positions[0]? = some shows7 ∧ mapGet 0 one = none ∧ shows7.hung.tile = some tile7 ∧
      (∃ e ∈ one, e.2.tag = some tile7.tag) ∧ ((u.port .sl).job = some (hangJob h))) ∧
    (recorded.findEntry 9 = some ⟨9, 2, 4, .damaged, [2]⟩ ∧ recorded.findEntry 7 = some ⟨7, 0, 3, .ok, [0, 1]⟩) := by
  decide +kernel

/-! ### Witnesses: the invariants -/

theorem witness_ServedValuesMoveOnlyAtTicks :
    (∀ b, Instr.nvRequestBegin ≠ .frameTick b) ∧ (∀ v b, Instr.nvRequestBegin ≠ .filterClockSample v b) ∧
    exec .nvRequestBegin wall = .next wall :=
  ⟨nofun, nofun, rfl⟩
theorem witness_RestMeansAtTarget : wall.AtRest := ⟨by decide +kernel, by decide +kernel⟩
theorem witness_PortsStayConsistent : wall.PortsConsistent := by
  intro l
  cases l <;> exact ⟨by decide, by decide, by decide, by decide⟩
theorem witness_QueuesGridAndDigestKeepTheirBounds : wall.Bounded ∧ wall.Gridded ∧ wall.DigestSound :=
  ⟨⟨by decide, by decide, by decide, by decide⟩, ⟨by decide, by decide⟩,
   ⟨by decide, by decide, by decide, by decide⟩⟩
theorem witness_TablesStayCanonical : recorded.Canonical :=
  ⟨by decide, by decide, by decide, by decide, by decide, by decide, by decide, by decide, by decide, by decide,
   by decide⟩

end Sys2Proof.Tests
end

section
/-! PROOFS. The Cadence Timer's calls: a DL call whose only effect is on the timer, then RUN and RESTART. -/
namespace Sys2Proof.Machine

/-! ### A call that sets the timer only -/

@[simp] theorem State.called_timer (s : State) (l : Link) : (s.called l).timer = s.timer :=
  State.setPort_timer s l _

@[simp] theorem State.called_settings (s : State) (l : Link) : (s.called l).settings = s.settings :=
  State.setPort_settings s l _

/-- A reply neither reads nor writes the timer. -/
theorem reply_with_timer (s : State) (t : Timer) (l : Link) (st : Status) (ws : List Word) :
    ({ s with timer := t } : State).reply l st ws = { s.reply l st ws with timer := t } := by
  cases l <;> rfl

/-- The desk's calls are DL's, start no job and are free of the show lock: on DL only the length is left of the link
checks (R170, 10.5). -/
theorem takeCall_desk_sets_timer {len : List Word → Bool} {own : State → Answer} {f : Frame} {s : State}
    {code : Word} {st : Status} {ws : List Word} {t : Timer} (h : s.takes .dl f code = true)
    (hlen : len f.operands = true)
    (hown : own (s.called .dl) = .accept st ws { s.called .dl with timer := t }) :
    takeCall (deskRow code) false len own .dl f s = { s.answered .dl st ws with timer := t } := by
  rw [takeCall_takes (deskRow code) false len own .dl f s h rfl hlen rfl nofun nofun, hown]
  calc ({ s.called .dl with timer := t } : State).reply .dl st ws
      = { (s.called .dl).reply .dl st ws with timer := t } := reply_with_timer _ t .dl st ws
    _ = { s.answered .dl st ws with timer := t } := by rw [reply_answered s .dl st ws (open_of_takes h)]

/-! ### CADENCE RUN and CADENCE RESTART -/

/-- The state before the call does not matter: STOPPED resumes, STOPPING has its stop cancelled, RUNNING stays (R85). -/
theorem ownCadenceRun_called (s : State) (l : Link) :
    ownCadenceRun (s.called l) = .accept .ok [TimerState.running.word, wordOfNat s.timer.counter]
      { s.called l with timer := { state := .running, counter := s.timer.counter, stage := s.timer.stage } } := by
  simp [ownCadenceRun]

/-- The counter loaded is the working copy's reload, the one the reply names (R86). -/
theorem ownCadenceRestart_called (s : State) (l : Link) :
    ownCadenceRestart (s.called l) = .accept .ok [s.timer.state.word, wordOfNat s.settings.reload]
      { s.called l with timer := { state := s.timer.state, counter := s.settings.reload, stage := 0 } } := by
  simp [ownCadenceRestart]

theorem exec_cadenceRun (l : Link) (f : Frame) (s : State) :
    exec (.cadenceRun l f) s = .next (takeCall (deskRow 0x0016) false (hasLength 0) ownCadenceRun l f s) := rfl

theorem exec_cadenceRestart (l : Link) (f : Frame) (s : State) :
    exec (.cadenceRestart l f) s = .next (takeCall (deskRow 0x0018) false (hasLength 0) ownCadenceRestart l f s) := rfl

/-- Settles O21: both calls pass the link checks as desk calls without operands, and each sets the timer only. -/
theorem cadenceRunResumesAndRestartReloads : Obligations.CadenceRunResumesAndRestartReloads := by
  intro f s hnone
  have hlen : hasLength 0 f.operands = true := by simp [hasLength, hnone]
  constructor
  · intro hrun
    rw [exec_cadenceRun, takeCall_desk_sets_timer hrun hlen (ownCadenceRun_called s .dl)]
  · intro hrestart
    rw [exec_cadenceRestart, takeCall_desk_sets_timer hrestart hlen (ownCadenceRestart_called s .dl)]

end Sys2Proof.Machine
end

section
/-! PROOFS. The desk's calls that queue a change: a DL call that is declined, or whose only effect is an entry at the
back of the Change Queue, then TAKE and REVERT. -/
namespace Sys2Proof.Machine

/-! ### What a call's own checks read of the called state -/

@[simp] theorem State.called_changes (s : State) (l : Link) : (s.called l).changes = s.changes :=
  State.setPort_changes s l _

@[simp] theorem State.called_history (s : State) (l : Link) : (s.called l).history = s.history :=
  State.setPort_history s l _

/-- The pending test reads the tables and the records, no port. -/
@[simp] theorem State.called_pendingCount (s : State) (l : Link) : (s.called l).pendingCount = s.pendingCount := by
  cases l <;> rfl

@[simp] theorem State.enqueue_changes (s : State) (c : Change) : (s.enqueue c).changes = s.changes ++ [c] := rfl

@[simp] theorem State.queueFull_iff (s : State) : s.queueFull = true ↔ 16 ≤ s.changes.length :=
  decide_eq_true_iff

@[simp] theorem State.depthWord_enqueue (s : State) (c : Change) :
    (s.enqueue c).depthWord = wordOfNat (s.changes.length + 1) := by
  simp [State.depthWord]

/-! ### A call that queues an entry -/

@[simp] theorem State.answered_changes (s : State) (l : Link) (st : Status) (ws : List Word) :
    (s.answered l st ws).changes = s.changes :=
  State.setPort_changes s l _

/-- A reply neither reads nor writes the Change Queue. -/
theorem reply_enqueue (s : State) (c : Change) (l : Link) (st : Status) (ws : List Word) :
    (s.enqueue c).reply l st ws = (s.reply l st ws).enqueue c := by
  cases l <;> rfl

section
variable {len : List Word → Bool} {own : State → Answer} {f : Frame} {s : State} {code : Word} {st : Status}
  {ws : List Word}

/-- A desk call refused by its own checks changes nothing but its port's reply (R170). -/
theorem takeCall_desk_refuses (h : s.takes .dl f code = true) (hlen : len f.operands = true)
    (hown : own (s.called .dl) = .refuse st ws) :
    takeCall (deskRow code) false len own .dl f s = s.declined .dl st ws := by
  rw [takeCall_takes (deskRow code) false len own .dl f s h rfl hlen rfl nofun nofun, hown]

/-- A desk call whose own checks queue an entry leaves everything else as an accepted call does (R121, R170). -/
theorem takeCall_desk_enqueues {c : Change} (h : s.takes .dl f code = true) (hlen : len f.operands = true)
    (hown : own (s.called .dl) = .accept st ws ((s.called .dl).enqueue c)) :
    takeCall (deskRow code) false len own .dl f s =
      { s.answered .dl st ws with changes := s.changes ++ [c] } := by
  rw [takeCall_takes (deskRow code) false len own .dl f s h rfl hlen rfl nofun nofun, hown]
  calc ((s.called .dl).enqueue c).reply .dl st ws
      = ((s.called .dl).reply .dl st ws).enqueue c := reply_enqueue _ c .dl st ws
    _ = (s.answered .dl st ws).enqueue c := by rw [reply_answered s .dl st ws (open_of_takes h)]
    _ = { s.answered .dl st ws with changes := s.changes ++ [c] } := by
      rw [State.enqueue, State.answered_changes]

end

/-! ### TAKE and REVERT -/

/-- TAKE's own checks in their order; the pending count answered is the one before the entry applies (R122, R123). -/
theorem ownTake_called (ramp : Word) (s : State) (l : Link) :
    ownTake [ramp] (s.called l) =
      if 1023 < ramp.toNat then .refuse .badValue []
      else if 16 ≤ s.changes.length then .refuse .queueFull []
      else .accept .ok [wordOfNat (s.changes.length + 1), wordOfNat s.pendingCount]
        ((s.called l).enqueue (.take ramp.toNat)) := by
  simp only [ownTake, Config.maxRamp, State.queueFull_iff, State.depthWord_enqueue, State.called_changes,
    State.called_pendingCount]

/-- No point could exist when REVERT applies: the history is empty, and no TAKE is queued that could push one. -/
theorem noPointPossible_iff (history : List (List PosRecord)) (changes : List Change) :
    (history.isEmpty = true ∧ changes.any Change.isTake = false) ↔
      (history = [] ∧ changes.all (fun c => !c.isTake) = true) := by
  simp

/-- REVERT's own checks in their order, HISTORY_EMPTY before QUEUE_FULL (R143). -/
theorem ownRevert_called (ramp : Word) (s : State) (l : Link) :
    ownRevert [ramp] (s.called l) =
      if 1023 < ramp.toNat then .refuse .badValue []
      else if s.history = [] ∧ s.changes.all (fun c => !c.isTake) = true then .refuse .historyEmpty []
      else if 16 ≤ s.changes.length then .refuse .queueFull []
      else .accept .ok [wordOfNat (s.changes.length + 1), wordOfNat s.history.length]
        ((s.called l).enqueue (.revert ramp.toNat)) := by
  simp only [ownRevert, Config.maxRamp, noPointPossible_iff, State.queueFull_iff, State.depthWord_enqueue,
    State.called_changes, State.called_history]

theorem exec_take (l : Link) (f : Frame) (s : State) :
    exec (.take l f) s = .next (takeCall (deskRow 0x000F) false (hasLength 1) (ownTake f.operands) l f s) := rfl

theorem exec_revert (l : Link) (f : Frame) (s : State) :
    exec (.revert l f) s = .next (takeCall (deskRow 0x0011) false (hasLength 1) (ownRevert f.operands) l f s) := rfl

/-- Settles O17: both calls pass the link checks as desk calls of one operand; each branch of their own checks is a
refusal or queues one entry. -/
theorem takeAndRevertQueueAnEntry : Obligations.TakeAndRevertQueueAnEntry := by
  constructor
  · intro f ramp s htake hops
    have hlen : hasLength 1 f.operands = true := by simp [hasLength, hops]
    have hown := ownTake_called ramp s .dl
    rw [← hops] at hown
    rw [exec_take]
    by_cases hramp : 1023 < ramp.toNat
    · rw [if_pos hramp] at hown ⊢
      rw [takeCall_desk_refuses htake hlen hown]
    rw [if_neg hramp] at hown ⊢
    by_cases hfull : 16 ≤ s.changes.length
    · rw [if_pos hfull] at hown ⊢
      rw [takeCall_desk_refuses htake hlen hown]
    · rw [if_neg hfull] at hown ⊢
      rw [takeCall_desk_enqueues htake hlen hown, State.pendingCount]
  · intro f ramp s hrevert hops
    have hlen : hasLength 1 f.operands = true := by simp [hasLength, hops]
    have hown := ownRevert_called ramp s .dl
    rw [← hops] at hown
    rw [exec_revert]
    by_cases hramp : 1023 < ramp.toNat
    · rw [if_pos hramp] at hown ⊢
      rw [takeCall_desk_refuses hrevert hlen hown]
    rw [if_neg hramp] at hown ⊢
    by_cases hnoPoint : s.history = [] ∧ s.changes.all (fun c => !c.isTake) = true
    · rw [if_pos hnoPoint] at hown ⊢
      rw [takeCall_desk_refuses hrevert hlen hown]
    rw [if_neg hnoPoint] at hown ⊢
    by_cases hfull : 16 ≤ s.changes.length
    · rw [if_pos hfull] at hown ⊢
      rw [takeCall_desk_refuses hrevert hlen hown]
    · rw [if_neg hfull] at hown ⊢
      rw [takeCall_desk_enqueues hrevert hlen hown]

end Sys2Proof.Machine
end

section
/-! PROOFS. The serving calls of PL that only read: a PL call that is declined, or whose only effect is its reply, then
FETCH SPAN and FETCH GLOBAL. -/
namespace Sys2Proof.Machine

/-! ### What the serving calls read of the called state -/

@[simp] theorem State.called_positions (s : State) (l : Link) : (s.called l).positions = s.positions :=
  State.setPort_positions s l _

@[simp] theorem State.called_tiles (s : State) (l : Link) : (s.called l).tiles = s.tiles :=
  State.setPort_tiles s l _

@[simp] theorem State.called_epoch (s : State) (l : Link) : (s.called l).epoch = s.epoch :=
  State.setPort_epoch s l _

@[simp] theorem State.called_global (s : State) (l : Link) : (s.called l).global = s.global :=
  State.setPort_global s l _

@[simp] theorem State.called_positionCount (s : State) (l : Link) : (s.called l).positionCount = s.positionCount := by
  simp only [State.positionCount, State.called_settings]

@[simp] theorem State.called_indexed (s : State) (l : Link) : (s.called l).indexed = s.indexed := by
  simp only [State.indexed, State.called_positions]

@[simp] theorem State.called_spanEntries (s : State) (l : Link) (first count : Nat) :
    (s.called l).spanEntries first count = s.spanEntries first count := by
  simp only [State.spanEntries, State.called_indexed, State.called_tiles]

/-! ### A PL call that only reads -/

section
variable {c : CallRow} {len : List Word → Bool} {own : State → Answer} {f : Frame} {s : State} {code : Word}
  {st : Status} {ws : List Word}

/-- A serving call refused by its own checks changes nothing but its port's reply (R156, R170). -/
theorem takeCall_pl_refuses (h : s.takes .pl f code = true) (hcode : c.code = code) (hlen : len f.operands = true)
    (hpermits : c.permits .pl = true) (hjob : c.job = false) (hown : own (s.called .pl) = .refuse st ws) :
    takeCall c false len own .pl f s = s.declined .pl st ws := by
  rw [takeCall_takes c false len own .pl f s h hcode hlen hpermits nofun (by simp [hjob]), hown]

/-- A serving call whose own checks change nothing only stages its reply and counts as taken (R170, R171). -/
theorem takeCall_pl_reads (h : s.takes .pl f code = true) (hcode : c.code = code) (hlen : len f.operands = true)
    (hpermits : c.permits .pl = true) (hjob : c.job = false)
    (hown : own (s.called .pl) = .accept st ws (s.called .pl)) :
    takeCall c false len own .pl f s = s.answered .pl st ws := by
  rw [takeCall_takes c false len own .pl f s h hcode hlen hpermits nofun (by simp [hjob]), hown]
  exact reply_answered s .pl st ws (open_of_takes h)

end

/-! ### FETCH SPAN -/

theorem State.indexed_getElem? (s : State) (i : Nat) : s.indexed[i]? = s.positions[i]?.map (fun p => (i, p)) := by
  rcases Nat.lt_or_ge i s.positions.length with hi | hi <;> simp [State.indexed, hi]

/-- One more position in the span is one more entry at its end, if the grid has that position. -/
theorem State.spanEntries_succ (s : State) (first count : Nat) :
    s.spanEntries first (count + 1) =
      s.spanEntries first count ++
        (s.positions[first + count]?.map (fun q => q.entry s.tiles (first + count))).toList := by
  simp only [State.spanEntries, List.take_add_one, List.getElem?_drop, State.indexed_getElem?, List.map_append]
  cases s.positions[first + count]? <;> rfl

/-- The words of a span, position by position from the first (R157). -/
theorem State.spanEntries_words (s : State) (first count : Nat) :
    (s.spanEntries first count).flatMap DigestEntry.words =
      (List.range count).flatMap (fun k =>
        (s.positions[first + k]?.map (fun q => (q.entry s.tiles (first + k)).words)).getD []) := by
  induction count with
  | zero => simp [State.spanEntries]
  | succ count ih =>
    rw [State.spanEntries_succ, List.range_succ, List.flatMap_append, List.flatMap_append, ih]
    cases hq : s.positions[first + count]? with
    | none => simp [hq]
    | some q => simp [hq]

/-- A span that is empty, longer than 16 or reaches past the wall is refused (R156). -/
theorem ownFetchSpan_called_refuses {first count : Word} {s : State} (l : Link)
    (houtside : count.toNat = 0 ∨ 16 < count.toNat ∨ s.positionCount ≤ first.toNat ∨
      s.positionCount < first.toNat + count.toNat) :
    ownFetchSpan [first, count] (s.called l) = .refuse .badValue [] := by
  rw [ownFetchSpan, State.called_positionCount, if_pos houtside]

/-- A span inside the wall is served without a change (R157). -/
theorem ownFetchSpan_called_serves {first count : Word} {s : State} (l : Link) (hsome : 1 ≤ count.toNat)
    (hmost : count.toNat ≤ 16) (hinside : first.toNat + count.toNat ≤ s.positionCount) :
    ownFetchSpan [first, count] (s.called l) = .accept .ok
      (words48 s.epoch ++ [wordOfNat s.settings.columns, wordOfNat s.settings.rows, first, count] ++
        (List.range count.toNat).flatMap (fun k =>
          (s.positions[first.toNat + k]?.map (fun q => (q.entry s.tiles (first.toNat + k)).words)).getD []))
      (s.called l) := by
  have hserved : ¬(count.toNat = 0 ∨ 16 < count.toNat ∨ s.positionCount ≤ first.toNat ∨
      s.positionCount < first.toNat + count.toNat) := by omega
  rw [ownFetchSpan, State.called_positionCount, if_neg hserved, State.called_spanEntries, State.spanEntries_words,
    State.called_epoch, State.called_settings]

theorem exec_fetchSpan (l : Link) (f : Frame) (s : State) :
    exec (.fetchSpan l f) s = .next (takeCall rowFetchSpan false (hasLength 2) (ownFetchSpan f.operands) l f s) := rfl

/-! ### FETCH GLOBAL -/

/-- FETCH GLOBAL has no check of its own; the two vectors are served component by component (R159). -/
theorem ownFetchGlobal_called (s : State) (l : Link) :
    ownFetchGlobal (s.called l) = .accept .ok
      (words48 s.epoch ++
        [wordOfInt s.global.applied.level, wordOfInt s.global.applied.r, wordOfInt s.global.applied.g,
         wordOfInt s.global.applied.b, wordOfInt s.global.target.level, wordOfInt s.global.target.r,
         wordOfInt s.global.target.g, wordOfInt s.global.target.b, wordOfNat s.global.remaining])
      (s.called l) := by
  simp [ownFetchGlobal, GlobalVector.words]

theorem exec_fetchGlobal (l : Link) (f : Frame) (s : State) :
    exec (.fetchGlobal l f) s = .next (takeCall rowFetchGlobal false (hasLength 0) ownFetchGlobal l f s) := rfl

/-- Settles O15: both calls pass the link checks as PL's calls that start no job; a span's own checks split it into the
refusal and the reply, and the reply is the only effect of either call. That the grid is full is not needed: a position
the grid lacks adds no words on either side. -/
theorem servingReadsAnswer : Obligations.ServingReadsAnswer := by
  constructor
  · intro f first count s htakes hops
    have hlen : hasLength 2 f.operands = true := by simp [hasLength, hops]
    rw [exec_fetchSpan, hops]
    constructor
    · intro houtside
      rw [takeCall_pl_refuses htakes rfl hlen rfl rfl (ownFetchSpan_called_refuses .pl houtside)]
    · intro hsome hmost hinside _
      rw [takeCall_pl_reads htakes rfl hlen rfl rfl (ownFetchSpan_called_serves .pl hsome hmost hinside)]
  · intro f s htakes hops
    have hlen : hasLength 0 f.operands = true := by simp [hasLength, hops]
    rw [exec_fetchGlobal, takeCall_pl_reads htakes rfl hlen rfl rfl (ownFetchGlobal_called s .pl)]

end Sys2Proof.Machine
end

section
/-! PROOFS. Facts about conditions and lists that the core library does not state. -/
namespace Sys2Proof.Machine

section
variable {α β : Type}

theorem ite_congr_iff {p q : Prop} [Decidable p] [Decidable q] {a b x y : α} (same : p ↔ q) (yes : a = b) (no : x = y) :
    (if p then a else x) = if q then b else y :=
  ite_congr (propext same) (fun _ => yes) fun _ => no

theorem filterMap_congr_of_mem {f g : α → Option β} {xs : List α} (same : ∀ x ∈ xs, f x = g x) :
    xs.filterMap f = xs.filterMap g := by
  induction xs with
  | nil => rfl
  | cons x xs ih =>
    rw [List.filterMap_cons, List.filterMap_cons, same x List.mem_cons_self, ih fun y mem => same y (List.mem_cons_of_mem _ mem)]

theorem flatMap_congr_of_mem {f g : α → List β} {xs : List α} (same : ∀ x ∈ xs, f x = g x) : xs.flatMap f = xs.flatMap g := by
  rw [List.flatMap_def, List.flatMap_def, List.map_congr_left same]

theorem sublist_flatMap {xs ys : List α} (f : α → List β) (sub : xs.Sublist ys) : (xs.flatMap f).Sublist (ys.flatMap f) := by
  induction sub with
  | slnil => exact List.Sublist.refl _
  | cons y _ ih =>
    rw [List.flatMap_cons]
    exact ih.trans (List.sublist_append_right _ _)
  | cons_cons y _ ih =>
    rw [List.flatMap_cons, List.flatMap_cons]
    exact ih.append_left _

theorem sublist_filter_of_imp {p q : α → Bool} (xs : List α) (weaker : ∀ x, p x = true → q x = true) :
    (xs.filter p).Sublist (xs.filter q) := by
  have narrowed : xs.filter p = (xs.filter q).filter p := by
    rw [List.filter_filter]
    refine List.filter_congr fun x _ => ?_
    cases passes : p x with
    | false => rfl
    | true => rw [weaker x passes, Bool.true_and]
  rw [narrowed]
  exact List.filter_sublist

theorem mem_of_mem_filter {p : α → Bool} {x : α} {xs : List α} (mem : x ∈ xs.filter p) : x ∈ xs := (List.mem_filter.mp mem).1

theorem pass_of_mem_takeWhile {p : α → Bool} {x : α} {xs : List α} (mem : x ∈ xs.takeWhile p) : p x = true :=
  List.all_eq_true.mp List.all_takeWhile x mem

/-- The entries that pass and those that do not are all of a list. -/
theorem length_eq_filter_add (p : α → Bool) (xs : List α) :
    xs.length = (xs.filter p).length + (xs.filter (fun x => !p x)).length := by
  rw [← List.length_append, (List.filter_append_perm p xs).length_eq]

theorem apart_of_nodup_append {xs ys : List α} (once : (xs ++ ys).Nodup) ⦃a : α⦄ (left : a ∈ xs) (right : a ∈ ys) : False :=
  (List.nodup_append.mp once).2.2 a left a right rfl

theorem nodup_concat {xs : List α} {a : α} (once : xs.Nodup) (fresh : a ∉ xs) : (xs ++ [a]).Nodup := by
  refine List.nodup_append.mpr ⟨once, List.nodup_cons.mpr ⟨List.not_mem_nil, List.nodup_nil⟩, fun b mem c last same => ?_⟩
  rw [List.mem_singleton.mp last] at same
  exact fresh (same ▸ mem)

theorem nodup_of_nodup_map (f : α → β) {xs : List α} (once : (xs.map f).Nodup) : xs.Nodup :=
  List.Pairwise.of_map f (fun _ _ differ same => differ (congrArg f same)) once

/-- Induction on a list from its end. -/
theorem snoc_induction {motive : List α → Prop} (nil : motive []) (snoc : ∀ xs x, motive xs → motive (xs ++ [x])) (xs : List α) :
    motive xs := by
  have reversed : ∀ ys : List α, motive ys.reverse := fun ys => by
    induction ys with
    | nil => exact nil
    | cons y ys ih =>
      rw [List.reverse_cons]
      exact snoc _ y ih
  have whole := reversed xs.reverse
  rwa [List.reverse_reverse] at whole

end

end Sys2Proof.Machine
end

section
/-! PROOFS. What the hang jobs and the Chain Engine can do to the state, said once as two relations closed under
composition: `HangMove` for a hang that goes on, `ChainMove` for the Chain Engine with the hangs it tells. -/
namespace Sys2Proof.Machine

/-! ### A hang that goes on -/

/-- The notices that the Chain Engine and the hangs raise, on DL and SL (R174). -/
def Notice.ofEngine : Notice → Bool
  | .sweepClash | .sweepTimeout | .branchFault | .stranger | .poolLow | .cycleOverrun => true
  | _ => false

/-- What a hang that goes on does, move by move: a job replaced or a notice raised on a port, cells claimed, a request
joined, a PLACE posted into a free place, a wait for such a place. -/
inductive State.HangMove : State → State → Prop
  | refl (s : State) : HangMove s s
  | trans {s t u : State} : HangMove s t → HangMove t u → HangMove s u
  | job (s : State) (l : Link) (j : Option Job) : HangMove s (s.setJob l j)
  | notice (s : State) (l : Link) (n : Notice) (desk : l ≠ .pl) (engine : n.ofEngine = true) : HangMove s (s.raise l n)
  | claim (s : State) (n : Nat) (low : Bool) :
      HangMove s { s with pool := { s.pool with free := s.pool.free.drop n, low := low } }
  | request (s : State) (l : Link) (op : NvOp) : HangMove s (s.request l op)
  | post (s : State) (l : Link) (ramp : Nat) (staged : List (Nat × Hung)) (seen : List TileSeen)
      (room : s.changes.length < Config.changePlaces) :
      HangMove s { s with changes := s.changes ++ [.place l ramp staged seen] }
  | waitToPost (s : State) (l : Link) (new : l ∉ s.postWaiters) :
      HangMove s { s with postWaiters := s.postWaiters ++ [l] }

theorem hangMove_raiseDlSl (s : State) (n : Notice) (engine : n.ofEngine = true) : s.HangMove (s.raiseDlSl n) :=
  (State.HangMove.notice s .dl n nofun engine).trans (.notice _ .sl n nofun engine)

theorem hangMove_setJob (s : State) (l : Link) (j : Option Job) : s.HangMove (s.setJob l j) := .job s l j

theorem hangMove_setWork (s : State) (l : Link) (w : JobWork) : s.HangMove (s.setWork l w) := by
  unfold State.setWork
  split
  · exact .refl s
  · exact hangMove_setJob s l _

theorem hangMove_setHang (s : State) (l : Link) (h : HangWork) : s.HangMove (s.setHang l h) :=
  hangMove_setWork s l _

theorem hangMove_evalLow (s : State) : s.HangMove s.evalLow := by
  have low := State.HangMove.claim s 0 (decide (s.pool.free.length < s.settings.watermark))
  unfold State.evalLow
  dsimp only
  split
  · exact low.trans (hangMove_raiseDlSl _ _ rfl)
  · exact low

theorem hangMove_claimCells (s : State) (n : Nat) : s.HangMove (s.claimCells n) :=
  (State.HangMove.claim s n s.pool.low).trans (hangMove_evalLow _)

theorem hangMove_post (s : State) (l : Link) (room : s.changes.length < Config.changePlaces) :
    s.HangMove (s.post l) := by
  unfold State.post
  split
  · next j h _ _ =>
    let committed : Job := { j with committed := true, work := .hang { h with phase := .posted } }
    have kept : (s.setJob l (some committed)).changes = s.changes := State.setPort_changes s l _
    have posted := State.HangMove.post (s.setJob l (some committed)) l h.ramp h.staged h.seen (kept ▸ room)
    rw [kept] at posted
    exact (hangMove_setJob s l _).trans posted
  · exact .refl s

theorem hangMove_enterPosting (s : State) (l : Link) : s.HangMove (s.enterPosting l) := by
  unfold State.enterPosting
  split
  · exact .refl s
  · dsimp only
    split
    · next room => exact (hangMove_setHang s l _).trans (hangMove_post _ l room)
    · split
      · exact hangMove_setHang s l _
      · next new =>
        exact (hangMove_setHang s l _).trans (.waitToPost _ l (by simpa using new))

theorem hangMove_beginProvisional (s : State) (l : Link) (h : HangWork) (tag cell : Nat) :
    s.HangMove (s.beginProvisional l h tag cell) :=
  ((hangMove_claimCells s 1).trans (hangMove_setHang _ l _)).trans (.request _ l _)

theorem hangMove_recordStrangers (l : Link) (tags : List Nat) (s : State) : s.HangMove (recordStrangers l tags s) := by
  induction tags generalizing s with
  | nil => exact hangMove_enterPosting s l
  | cons tag rest ih =>
    unfold recordStrangers
    split
    · exact .refl s
    · split
      · exact (hangMove_setHang s l _).trans (ih _)
      · split
        · exact (hangMove_setHang s l _).trans (ih _)
        · split
          · exact (hangMove_setHang s l _).trans (ih _)
          · split
            · exact (hangMove_setHang s l _).trans (ih _)
            · exact hangMove_beginProvisional s l _ _ _

theorem hangMove_resolve (s : State) (l : Link) (h : HangWork) : s.HangMove (s.resolve l h) := by
  unfold State.resolve
  dsimp only
  refine State.HangMove.trans ?_ (hangMove_recordStrangers l _ _)
  split
  · exact hangMove_setHang s l _
  · exact (hangMove_setHang s l _).trans (hangMove_raiseDlSl _ _ rfl)

theorem hangMove_hangOutcome (s : State) (l : Link) (b : Nat) (f : HangBranch → HangBranch) :
    s.HangMove (s.hangOutcome l b f) := by
  unfold State.hangOutcome
  split
  · exact .refl s
  · dsimp only
    split
    · exact (hangMove_setHang s l _).trans (hangMove_resolve _ l _)
    · exact hangMove_setHang s l _

theorem hangMove_provEnd (s : State) (l : Link) (e : ProvEnd) : s.HangMove (s.provEnd l e) := by
  unfold State.provEnd
  split
  · exact .refl s
  · split
    · exact .refl s
    · exact (hangMove_setHang s l _).trans (hangMove_recordStrangers l _ _)

/-! ### The Chain Engine -/

/-- What the Chain Engine does, move by move: a hang goes on, or its queue, its waits, the wire, a branch or the awaiting
set changes. -/
inductive State.ChainMove : State → State → Prop
  | hang {s t : State} : s.HangMove t → ChainMove s t
  | trans {s t u : State} : ChainMove s t → ChainMove t u → ChainMove s u
  | orders (s : State) (x : List Order) : ChainMove s { s with orders := x }
  | owed (s : State) (x : List Nat) : ChainMove s { s with owed := x }
  | spaceWaiters (s : State) (x : List Link) : ChainMove s { s with spaceWaiters := x }
  | idleWaits (s : State) (x : List (Nat × Link)) : ChainMove s { s with idleWaits := x }
  | postWaiters (s : State) (x : List Link) (keep : s.postWaiters.Nodup → x.Nodup) :
      ChainMove s { s with postWaiters := x }
  | wire (s : State) (x : Option Wire) : ChainMove s { s with wire := x }
  | branches (s : State) (x : List Branch) : ChainMove s { s with branches := x }
  | awaiting (s : State) (x : List Nat) (keep : rising s.awaiting → rising x) : ChainMove s { s with awaiting := x }

theorem State.ChainMove.refl (s : State) : s.ChainMove s := .hang (.refl s)

theorem chainMove_pushOrder (s : State) (o : Order) : s.ChainMove (s.pushOrder o) := .orders s _

theorem chainMove_queueRollCall (s : State) (l : Link) : s.ChainMove (s.queueRollCall l) := by
  unfold State.queueRollCall
  split
  · exact .refl s
  · split
    · exact .refl s
    · exact (State.ChainMove.hang (hangMove_setHang s l _)).trans (chainMove_pushOrder _ _)

theorem chainMove_waitForSpace (s : State) (l : Link) : s.ChainMove (s.waitForSpace l) := by
  unfold State.waitForSpace
  split
  · exact .refl s
  · exact .spaceWaiters s _

theorem chainMove_giveOwed (s : State) (b : Nat) (rest : List Nat) : s.ChainMove (s.giveOwed b rest) :=
  (State.ChainMove.owed s rest).trans (chainMove_pushOrder _ _)

theorem chainMove_giveWaiter (s : State) (l : Link) (rest : List Link) : s.ChainMove (s.giveWaiter l rest) := by
  have called := (State.ChainMove.spaceWaiters s rest).trans (chainMove_queueRollCall _ l)
  unfold State.giveWaiter
  dsimp only
  split
  · exact called.trans (.spaceWaiters _ _)
  · exact called

theorem chainMove_givePlace (s : State) : s.ChainMove s.givePlace := by
  unfold State.givePlace
  split
  · exact chainMove_giveOwed s _ _
  · split
    · exact chainMove_giveWaiter s _ _
    · exact .refl s

theorem chainMove_givePlaces (n : Nat) (s : State) : s.ChainMove (State.givePlaces n s) := by
  induction n generalizing s with
  | zero => exact .refl s
  | succ n ih => exact (chainMove_givePlace s).trans (ih _)

theorem chainMove_withdrawOrders (s : State) (l : Link) : s.ChainMove (s.withdrawOrders l) := by
  have orders := State.ChainMove.orders s (s.orders.filter (fun o => decide (o.orig ≠ .hang l)))
  have space := orders.trans (.spaceWaiters _ (s.spaceWaiters.filter (fun m => decide (m ≠ l))))
  have idle := space.trans (.idleWaits _ (s.idleWaits.filter (fun e => decide (e.2 ≠ l))))
  have post := idle.trans (.postWaiters _ (s.postWaiters.filter (fun m => decide (m ≠ l))) (fun h => h.filter _))
  have wire := post.trans (.wire _ (s.wire.map (fun w => if w.order.orig = .hang l then { w with dropped := true } else w)))
  exact wire.trans (chainMove_givePlaces _ _)

theorem chainMove_modBranch (s : State) (b : Nat) (f : Branch → Branch) : s.ChainMove (s.modBranch b f) :=
  .branches s _

theorem rising_removeNat (n : Nat) (ms : List Nat) (h : rising ms) : rising (removeNat n ms) := rising_filter _ ms h

theorem chainMove_tellHang (s : State) (l : Link) (b : Nat) (r : Report) : s.ChainMove (s.tellHang l b r) := by
  cases r with
  | reported list excess => exact .hang (hangMove_hangOutcome s l b _)
  | failed c => exact .hang (hangMove_hangOutcome s l b _)
  | branchFault => exact .hang (hangMove_hangOutcome s l b _)
  | branchBusy =>
    unfold State.tellHang
    dsimp only
    split
    · exact .refl s
    · exact (State.ChainMove.hang (hangMove_setHang s l _)).trans (.idleWaits _ _)
  | clashed => exact .refl s
  | timedOut => exact .refl s
  | gathered broken => exact .refl s

theorem chainMove_tellDrift (s : State) (b : Nat) (r : Report) : s.ChainMove (s.tellDrift b r) := by
  have forget : s.ChainMove { s with awaiting := removeNat b s.awaiting } := .awaiting s _ (rising_removeNat b _)
  cases r with
  | gathered broken => exact forget
  | timedOut => exact forget
  | clashed => exact forget
  | branchFault => exact forget
  | branchBusy => exact .refl s
  | reported list excess => exact .refl s
  | failed c => exact .refl s

theorem chainMove_tell (s : State) (o : Originator) (b : Nat) (r : Report) : s.ChainMove (s.tell o b r) := by
  cases o with
  | hang l => exact chainMove_tellHang s l b r
  | drift => exact chainMove_tellDrift s b r
  | sweepNow => exact .refl s

theorem chainMove_send (s : State) (o : Order) : s.ChainMove (s.send o) := .wire s _

theorem chainMove_clash (s : State) (o : Order) : s.ChainMove (s.clash o) :=
  ((chainMove_modBranch s _ _).trans (.hang (hangMove_raiseDlSl _ _ rfl))).trans (chainMove_tell _ _ _ _)

theorem chainMove_checkOrder (s : State) (o : Order) : s.ChainMove (s.checkOrder o) := by
  unfold State.checkOrder
  split
  · exact chainMove_tell s _ _ _
  · exact (chainMove_modBranch s _ _).trans (chainMove_send _ _)
  · exact (chainMove_modBranch s _ _).trans (chainMove_send _ _)
  · exact (chainMove_modBranch s _ _).trans (chainMove_send _ _)
  · exact chainMove_tell s _ _ _
  · exact chainMove_tell s _ _ _
  · exact chainMove_tell s _ _ _
  · exact chainMove_clash s o

theorem chainMove_takeOrders (n : Nat) (s : State) : s.ChainMove (takeOrders n s) := by
  induction n generalizing s with
  | zero => exact .refl s
  | succ n ih =>
    unfold takeOrders
    split
    · exact .refl s
    · split
      · exact .refl s
      · exact (((State.ChainMove.orders s _).trans (chainMove_givePlace _)).trans (chainMove_checkOrder _ _)).trans (ih _)

theorem chainMove_kick (s : State) : s.ChainMove s.kick := chainMove_takeOrders _ s

/-! ### What the moves leave alone -/

/-- A hang that goes on touches no branch, no order, no wait but the one to post, and not the wire. -/
structure State.HangKeeps (s t : State) : Prop where
  branches : t.branches = s.branches
  wire : t.wire = s.wire
  orders : t.orders = s.orders
  owed : t.owed = s.owed
  spaceWaiters : t.spaceWaiters = s.spaceWaiters
  idleWaits : t.idleWaits = s.idleWaits
  awaiting : t.awaiting = s.awaiting

theorem State.HangMove.keeps {s t : State} (h : s.HangMove t) : s.HangKeeps t := by
  induction h with
  | trans _ _ ih1 ih2 =>
    exact ⟨ih2.branches.trans ih1.branches, ih2.wire.trans ih1.wire, ih2.orders.trans ih1.orders,
      ih2.owed.trans ih1.owed, ih2.spaceWaiters.trans ih1.spaceWaiters, ih2.idleWaits.trans ih1.idleWaits,
      ih2.awaiting.trans ih1.awaiting⟩
  | job s l j => cases l <;> exact ⟨rfl, rfl, rfl, rfl, rfl, rfl, rfl⟩
  | notice s l n _ _ => cases l <;> exact ⟨rfl, rfl, rfl, rfl, rfl, rfl, rfl⟩
  | _ => exact ⟨rfl, rfl, rfl, rfl, rfl, rfl, rfl⟩

theorem State.HangMove.chainFrom {s t : State} (h : s.HangMove t) : t = s.chainFrom t := by
  induction h with
  | @trans s t u _ _ ih1 ih2 =>
    calc u = t.chainFrom u := ih2
      _ = (s.chainFrom t).chainFrom u := by rw [← ih1]
      _ = s.chainFrom u := rfl
  | job s l j => cases l <;> rfl
  | notice s l n _ _ => cases l <;> rfl
  | _ => rfl

/-- The Chain Engine touches no more than `chainFrom` names. -/
theorem State.ChainMove.chainFrom {s t : State} (h : s.ChainMove t) : t = s.chainFrom t := by
  induction h with
  | hang h => exact h.chainFrom
  | @trans s t u _ _ ih1 ih2 =>
    calc u = t.chainFrom u := ih2
      _ = (s.chainFrom t).chainFrom u := by rw [← ih1]
      _ = s.chainFrom u := rfl
  | _ => rfl

/-! ### The places of the Chain Order Queue -/

theorem length_orders_pushOrder (s : State) (o : Order) : (s.pushOrder o).orders.length = s.orders.length + 1 := by
  simp [State.pushOrder]

theorem setHang_orders (s : State) (l : Link) (h : HangWork) : (s.setHang l h).orders = s.orders :=
  (hangMove_setHang s l h).keeps.orders

theorem length_orders_queueRollCall (s : State) (l : Link) :
    (s.queueRollCall l).orders.length ≤ s.orders.length + 1 := by
  unfold State.queueRollCall
  split
  · omega
  · split
    · omega
    · exact Nat.le_of_eq (by rw [length_orders_pushOrder, setHang_orders])

theorem length_orders_givePlace (s : State) : s.givePlace.orders.length ≤ s.orders.length + 1 := by
  unfold State.givePlace
  split
  · exact Nat.le_of_eq (length_orders_pushOrder _ _)
  · split
    · unfold State.giveWaiter
      dsimp only
      split <;> exact length_orders_queueRollCall _ _
    · omega

theorem length_orders_givePlaces (n : Nat) (s : State) :
    (State.givePlaces n s).orders.length ≤ s.orders.length + n := by
  induction n generalizing s with
  | zero => exact Nat.le_refl _
  | succ n ih =>
    have given := length_orders_givePlace s
    have rest := ih s.givePlace
    unfold State.givePlaces
    omega

/-- The places an ended hang leaves are all that is given out (R61). -/
theorem length_orders_withdrawOrders (s : State) (l : Link) : (s.withdrawOrders l).orders.length ≤ s.orders.length := by
  have fewer := List.length_filter_le (fun o : Order => decide (o.orig ≠ .hang l)) s.orders
  refine Nat.le_trans (length_orders_givePlaces _ _) ?_
  dsimp only
  omega

theorem tell_orders (s : State) (o : Originator) (b : Nat) (r : Report) : (s.tell o b r).orders = s.orders := by
  cases o with
  | hang l =>
    cases r with
    | reported list excess => exact (hangMove_hangOutcome s l b _).keeps.orders
    | failed c => exact (hangMove_hangOutcome s l b _).keeps.orders
    | branchFault => exact (hangMove_hangOutcome s l b _).keeps.orders
    | branchBusy =>
      simp only [State.tell, State.tellHang]
      split
      · rfl
      · exact setHang_orders s l _
    | clashed => rfl
    | timedOut => rfl
    | gathered broken => rfl
  | drift => cases r <;> rfl
  | sweepNow => rfl

theorem raiseDlSl_orders (s : State) (n : Notice) : (s.raiseDlSl n).orders = s.orders := by simp [State.raiseDlSl]

theorem checkOrder_orders (s : State) (o : Order) : (s.checkOrder o).orders = s.orders := by
  unfold State.checkOrder
  split
  · exact tell_orders s _ _ _
  · rfl
  · rfl
  · rfl
  · exact tell_orders s _ _ _
  · exact tell_orders s _ _ _
  · exact tell_orders s _ _ _
  · exact (tell_orders _ _ _ _).trans (raiseDlSl_orders _ _)

/-- Each order taken leaves one place, and at most one place is given out for it (R49). -/
theorem length_orders_takeOrders (n : Nat) (s : State) : (takeOrders n s).orders.length ≤ s.orders.length := by
  induction n generalizing s with
  | zero => exact Nat.le_refl _
  | succ n ih =>
    unfold takeOrders
    split
    · exact Nat.le_refl _
    · split
      · next empty => simp [empty]
      · next o rest queue =>
        refine Nat.le_trans (ih _) ?_
        rw [checkOrder_orders, queue]
        exact length_orders_givePlace { s with orders := rest }

/-- The Chain Engine's moves whose queue keeps within its eight places (R46). -/
structure State.ChainStep (s t : State) : Prop where
  move : s.ChainMove t
  fit : s.orders.length ≤ Config.orderPlaces → t.orders.length ≤ Config.orderPlaces

theorem State.ChainStep.trans {s t u : State} (h : s.ChainStep t) (k : t.ChainStep u) : s.ChainStep u :=
  ⟨h.move.trans k.move, fun fits => k.fit (h.fit fits)⟩

theorem State.ChainStep.refl (s : State) : s.ChainStep s := ⟨.refl s, fun fits => fits⟩

theorem chainStep_hang {s t : State} (h : s.HangMove t) : s.ChainStep t :=
  ⟨.hang h, fun fits => by rw [h.keeps.orders]; exact fits⟩

theorem chainStep_wire (s : State) (x : Option Wire) : s.ChainStep { s with wire := x } := ⟨.wire s x, id⟩

theorem chainStep_idleWaits (s : State) (x : List (Nat × Link)) : s.ChainStep { s with idleWaits := x } :=
  ⟨.idleWaits s x, id⟩

theorem chainStep_postWaiters (s : State) (x : List Link) (keep : s.postWaiters.Nodup → x.Nodup) :
    s.ChainStep { s with postWaiters := x } := ⟨.postWaiters s x keep, id⟩

theorem chainStep_awaiting (s : State) (x : List Nat) (keep : rising s.awaiting → rising x) :
    s.ChainStep { s with awaiting := x } := ⟨.awaiting s x keep, id⟩

theorem chainStep_modBranch (s : State) (b : Nat) (f : Branch → Branch) : s.ChainStep (s.modBranch b f) :=
  ⟨chainMove_modBranch s b f, id⟩

theorem chainStep_setBranchState (s : State) (b : Nat) (st : BranchState) : s.ChainStep (s.setBranchState b st) :=
  chainStep_modBranch s b _

theorem chainStep_countAnswers (s : State) (b count : Nat) : s.ChainStep (s.countAnswers b count) :=
  chainStep_modBranch s b _

theorem chainStep_tell (s : State) (o : Originator) (b : Nat) (r : Report) : s.ChainStep (s.tell o b r) :=
  ⟨chainMove_tell s o b r, fun fits => by rw [tell_orders]; exact fits⟩

theorem chainStep_kick (s : State) : s.ChainStep s.kick :=
  ⟨chainMove_kick s, fun fits => Nat.le_trans (length_orders_takeOrders _ s) fits⟩

theorem chainStep_freeWire (s : State) : s.ChainStep s.freeWire := (chainStep_wire s none).trans (chainStep_kick _)

theorem chainStep_pushOrder (s : State) (o : Order) (room : s.orders.length < Config.orderPlaces) :
    s.ChainStep (s.pushOrder o) :=
  ⟨chainMove_pushOrder s o, fun _ => by rw [length_orders_pushOrder]; exact room⟩

theorem chainStep_queueOrder (s : State) (o : Order) (room : s.orders.length < Config.orderPlaces) :
    s.ChainStep (s.queueOrder o) := (chainStep_pushOrder s o room).trans (chainStep_kick _)

theorem chainStep_giveOwed (s : State) (b : Nat) (rest : List Nat) (room : s.orders.length < Config.orderPlaces) :
    s.ChainStep (s.giveOwed b rest) :=
  ⟨chainMove_giveOwed s b rest, fun _ => Nat.le_trans (Nat.le_of_eq (length_orders_pushOrder _ _)) room⟩

theorem chainStep_giveWaiter (s : State) (l : Link) (rest : List Link)
    (room : s.orders.length < Config.orderPlaces) : s.ChainStep (s.giveWaiter l rest) := by
  refine ⟨chainMove_giveWaiter s l rest, fun _ => ?_⟩
  unfold State.giveWaiter
  dsimp only
  split <;> exact Nat.le_trans (length_orders_queueRollCall _ _) room

theorem chainStep_offerRollCalls (l : Link) (n : Nat) (s : State) : s.ChainStep (offerRollCalls l n s) := by
  induction n generalizing s with
  | zero => exact .refl s
  | succ n ih =>
    unfold offerRollCalls
    split
    · split
      · next room =>
        have called : s.ChainStep (s.queueRollCall l) :=
          ⟨chainMove_queueRollCall s l, fun _ => Nat.le_trans (length_orders_queueRollCall s l) room⟩
        exact called.trans (ih _)
      · refine ⟨chainMove_waitForSpace s l, ?_⟩
        unfold State.waitForSpace
        split <;> exact id
    · exact .refl s

theorem chainStep_toldIdle (s : State) (l : Link) (b : Nat) : s.ChainStep (s.toldIdle l b) := by
  unfold State.toldIdle
  split
  · exact .refl s
  · split
    · exact (chainStep_hang (hangMove_setHang s l _)).trans (chainStep_offerRollCalls l 5 _)
    · exact .refl s

/-- Steps made one after another over a list are a step. -/
theorem chainStep_foldl {α : Type} (f : State → α → State) (step : ∀ (s : State) (a : α), s.ChainStep (f s a))
    (as : List α) (s : State) : s.ChainStep (as.foldl f s) := by
  induction as generalizing s with
  | nil => exact .refl s
  | cons a as ih => exact (step s a).trans (ih _)

theorem chainStep_tellIdle (s : State) (b : Nat) : s.ChainStep (s.tellIdle b) :=
  (chainStep_idleWaits s _).trans
    (chainStep_foldl _ (fun t (e : Nat × Link) => chainStep_toldIdle t e.2 b) _ _)

theorem chainStep_autoGather (s : State) (b : Nat) : s.ChainStep (s.autoGather b) := by
  unfold State.autoGather
  split
  · next room => exact chainStep_queueOrder s _ room.1
  · exact ⟨.owed s _, id⟩

theorem chainStep_takeDone (s : State) (b : Nat) : s.ChainStep (s.takeDone b) :=
  (chainStep_modBranch s b _).trans (chainStep_autoGather _ b)

theorem chainStep_enterSweeping (s : State) (b : Nat) (held : Bool) : s.ChainStep (s.enterSweeping b held) := by
  have free := (chainStep_modBranch s b (fun x => { x with state := .sweeping, sweepTimer := true })).trans
    (chainStep_freeWire _)
  unfold State.enterSweeping
  dsimp only
  split
  · exact free.trans (chainStep_takeDone _ b)
  · exact free

theorem chainStep_clearFlags (s : State) (reset : List Nat) : s.ChainStep (s.clearFlags reset) :=
  chainStep_foldl _ (fun t b => chainStep_modBranch t b _) reset s

theorem chainStep_withdrawOrders (s : State) (l : Link) : s.ChainStep (s.withdrawOrders l) :=
  ⟨chainMove_withdrawOrders s l, fun fits => Nat.le_trans (length_orders_withdrawOrders s l) fits⟩

end Sys2Proof.Machine
end

section
/-! PROOFS. What every command but a tick, a reset of the plane and a power event can do to the state: `InnerMove`, the
moves of the records, the NV Port, the gathers, the timer and the calls' own effects, over those of the Chain Engine. -/
namespace Sys2Proof.Machine

/-- What the wire sees of a port (R165, R166, R171). -/
def Port.wirePart (p : Port) : PortState × Option Reply × Bool × List Bool := (p.state, p.slot, p.ready, p.wordBits)

/-- What the live plane serves of a position or moves it toward. -/
def Position.ramp (p : Position) : Correction × Correction × Nat := (p.target, p.applied, p.remaining)

/-- The pool's tables are in their canonical form (R2, R6). -/
structure Pool.Rising (p : Pool) : Prop where
  free : rising p.free
  retired : rising p.retired
  chain : rising (p.chain.map Prod.fst)
  image : rising (p.image.map Prod.fst)
  index : rising (p.index.map IndexEntry.tag)

/-- The stored tables are in their canonical form (R6). -/
structure NvMemory.Rising (m : NvMemory) : Prop where
  cells : rising (m.cells.map Prod.fst)
  chain : rising (m.chain.map Prod.fst)
  index : rising (m.index.map NvEntry.tag)

/-- What a pulse of the Cadence Timer moves: the timer, the cycle counts and the Chain Engine (R83, R89). -/
inductive State.PulseMove : State → State → Prop
  | chain {s t : State} : s.ChainStep t → PulseMove s t
  | trans {s t u : State} : PulseMove s t → PulseMove t u → PulseMove s u
  | timer (s : State) (x : Timer) : PulseMove s { s with timer := x }
  | cyclesStarted (s : State) (n : Nat) : PulseMove s { s with cyclesStarted := n }
  | cyclesSkipped (s : State) (n : Nat) : PulseMove s { s with cyclesSkipped := n }
  | overruns (s : State) (n : Nat) : PulseMove s { s with overruns := n }

theorem State.PulseMove.refl (s : State) : s.PulseMove s := .chain (.refl s)

/-- Moves that leave what is served and what the wire sees of a port: each names what it replaces and what it keeps of
it. -/
inductive State.InnerMove : State → State → Prop
  | pulse {s t : State} : s.PulseMove t → InnerMove s t
  | trans {s t u : State} : InnerMove s t → InnerMove t u → InnerMove s u
  | port (s : State) (l : Link) (p : Port) (wire : p.wirePart = (s.port l).wirePart) : InnerMove s (s.setPort l p)
  | pool (s : State) (p : Pool) (keep : s.pool.Rising → p.Rising) : InnerMove s { s with pool := p }
  | nv (s : State) (m : NvMemory) (keep : s.nv.Rising → m.Rising) : InnerMove s { s with nv := m }
  | nvPort (s : State) (x : NvPort) : InnerMove s { s with nvPort := x }
  | positions (s : State) (x : List Position) (keep : x.map Position.ramp = s.positions.map Position.ramp) :
      InnerMove s { s with positions := x }
  | tiles (s : State) (x : List TileStatus) (keep : x.map TileStatus.tag = s.tiles.map TileStatus.tag) :
      InnerMove s { s with tiles := x }
  | dirty (s : State) (i : Nat) (inside : i < s.positions.length) :
      InnerMove s { s with dirty := insertAsc i s.dirty }
  | discarded (s : State) (n : Nat) : InnerMove s { s with resultsDiscarded := n }
  | showLock (s : State) (b : Bool) : InnerMove s { s with showLock := b }
  | hold (s : State) (b : Bool) : InnerMove s { s with hold := b }
  | frame (s : State) (x : FrameSync) : InnerMove s { s with frame := x }
  | settings (s : State) (g : Settings) (columns : g.columns = s.settings.columns) (rows : g.rows = s.settings.rows) :
      InnerMove s { s with settings := g }
  | changes (s : State) (c : Change) (room : s.changes.length < Config.changePlaces) :
      InnerMove s { s with changes := s.changes ++ [c] }

theorem State.InnerMove.chain {s t : State} (h : s.ChainStep t) : s.InnerMove t := .pulse (.chain h)

theorem State.InnerMove.timer (s : State) (x : Timer) : s.InnerMove { s with timer := x } := .pulse (.timer s x)

theorem State.InnerMove.refl (s : State) : s.InnerMove s := .chain (.refl s)

theorem State.HangMove.inner {s t : State} (h : s.HangMove t) : s.InnerMove t := .chain (chainStep_hang h)

theorem innerMove_foldl {α : Type} (f : State → α → State) (step : ∀ (s : State) (a : α), s.InnerMove (f s a))
    (as : List α) (s : State) : s.InnerMove (as.foldl f s) := by
  induction as generalizing s with
  | nil => exact .refl s
  | cons a as ih => exact (step s a).trans (ih _)

/-! ### The Record Store and the NV Port -/

theorem innerMove_evalLow (s : State) : s.InnerMove s.evalLow := (hangMove_evalLow s).inner

theorem innerMove_setFree (s : State) (free : List Nat) (keep : rising s.pool.free → rising free) :
    s.InnerMove (s.setFree free) :=
  (State.InnerMove.pool s { s.pool with free := free }
    (fun h => ⟨keep h.free, h.retired, h.chain, h.image, h.index⟩)).trans (innerMove_evalLow _)

theorem innerMove_freeCells (s : State) (cells : List Nat) : s.InnerMove (s.freeCells cells) := by
  cases cells with
  | nil => exact .refl s
  | cons c cs =>
    have forget := State.InnerMove.pool s { s.pool with
        chain := s.pool.chain.filter (fun e => decide (e.1 ∉ c :: cs))
        image := s.pool.image.filter (fun e => decide (e.1 ∉ c :: cs)) }
      (fun h => ⟨h.free, h.retired, rising_filter_keys _ _ h.chain, rising_filter_keys _ _ h.image, h.index⟩)
    exact forget.trans (innerMove_setFree _ _ (rising_insertAll (c :: cs) _))

theorem innerMove_request (s : State) (l : Link) (op : NvOp) : s.InnerMove (s.request l op) := (.nvPort s _)

theorem innerMove_withdrawNv (s : State) (l : Link) : s.InnerMove (s.withdrawNv l) := .nvPort s _

theorem innerMove_clearCurrent (s : State) : s.InnerMove s.clearCurrent := .nvPort s _

theorem innerMove_setJob (s : State) (l : Link) (j : Option Job) : s.InnerMove (s.setJob l j) := (hangMove_setJob s l j).inner

theorem innerMove_setWork (s : State) (l : Link) (w : JobWork) : s.InnerMove (s.setWork l w) :=
  (hangMove_setWork s l w).inner

theorem innerMove_raise (s : State) (l : Link) (n : Notice) : s.InnerMove (s.raise l n) := .port s l _ rfl

theorem innerMove_raiseDlSl (s : State) (n : Notice) : s.InnerMove (s.raiseDlSl n) :=
  (innerMove_raise s .dl n).trans (innerMove_raise _ .sl n)

theorem innerMove_raiseAll (s : State) (n : Notice) : s.InnerMove (s.raiseAll n) :=
  (innerMove_raiseDlSl s n).trans (innerMove_raise _ _ _)

theorem innerMove_finishJob (s : State) (l : Link) (st : JobState) (res : ResultCode) (fields : JobFields) :
    s.InnerMove (s.finishJob l st res fields) := by
  unfold State.finishJob
  split
  · exact .refl s
  · split
    · exact innerMove_setJob s l _
    · refine State.InnerMove.trans (t := s.setPort l _) (.port s l _ ?_) (innerMove_raise _ _ _)
      rfl

/-- Changing an entry in what `g` does not see. -/
theorem map_updateAt {α β : Type} (g : α → β) (f : α → α) (keep : ∀ a, g (f a) = g a) (i : Nat) (l : List α) :
    (updateAt f i l).map g = l.map g := by
  induction l generalizing i with
  | nil => cases i <;> rfl
  | cons x xs ih =>
    cases i with
    | zero => simp [updateAt, keep]
    | succ n => simp [updateAt, ih]

theorem innerMove_modPosition (s : State) (i : Nat) (f : Position → Position) (keep : ∀ p, (f p).ramp = p.ramp) :
    s.InnerMove (s.modPosition i f) := .positions s _ (map_updateAt _ _ keep _ _)

theorem innerMove_refreshPending (s : State) (i : Nat) : s.InnerMove (s.refreshPending i) :=
  innerMove_modPosition s i _ (fun _ => rfl)

theorem innerMove_refreshTag (s : State) (tag : Nat) : s.InnerMove (s.refreshTag tag) := by
  unfold State.refreshTag
  split
  · exact .refl s
  · exact innerMove_refreshPending s _

theorem innerMove_setWrite (s : State) (l : Link) (w : RecWrite) : s.InnerMove (s.setWrite l w) := by
  unfold State.setWrite
  split
  · exact .refl s
  · split
    · exact innerMove_setWork s l _
    · exact innerMove_setWork s l _
    · exact .refl s
    · exact .refl s
    · exact .refl s

theorem innerMove_nextWriteStep (s : State) (l : Link) (w : RecWrite) : s.InnerMove (s.nextWriteStep l w) := by
  unfold State.nextWriteStep
  split
  · exact (innerMove_setWrite s l _).trans (innerMove_request _ l _)
  · split
    · exact (innerMove_setWrite s l _).trans (innerMove_request _ l _)
    · exact (innerMove_setWrite s l _).trans (innerMove_request _ l _)

theorem innerMove_failWrite (s : State) (l : Link) (w : RecWrite) (res : ResultCode) :
    s.InnerMove (s.failWrite l w res) := by
  unfold State.failWrite
  dsimp only
  split
  · exact ((innerMove_freeCells s _).trans (innerMove_setWrite _ l _)).trans (hangMove_provEnd _ l _).inner
  · exact (innerMove_freeCells s _).trans (innerMove_finishJob _ l _ _ _)

theorem innerMove_cellGood (s : State) (l : Link) (w : RecWrite) (cell : Nat) (g : Group) :
    s.InnerMove (s.cellGood l w cell g) :=
  (State.InnerMove.pool s { s.pool with image := mapSet cell g s.pool.image }
    (fun h => ⟨h.free, h.retired, h.chain, rising_mapSet _ _ _ h.image, h.index⟩)).trans (innerMove_nextWriteStep _ l _)

theorem innerMove_cellBad (s : State) (l : Link) (w : RecWrite) (cell : Nat) : s.InnerMove (s.cellBad l w cell) :=
  (((State.InnerMove.pool s { s.pool with
      retired := insertAsc cell s.pool.retired, chain := chainSet cell .retired s.pool.chain }
    (fun h => ⟨h.free, rising_insertAsc cell _ h.retired, rising_chainSet cell .retired _ h.chain, h.image, h.index⟩)).trans
      (innerMove_setWrite _ l _)).trans (innerMove_raise _ _ _)).trans (innerMove_request _ l _)

theorem innerMove_claimCells (s : State) (n : Nat) : s.InnerMove (s.claimCells n) := (hangMove_claimCells s n).inner

theorem innerMove_replaceCell (s : State) (l : Link) (w : RecWrite) : s.InnerMove (s.replaceCell l w) := by
  unfold State.replaceCell
  split
  · exact innerMove_failWrite s l w _
  · split
    · exact innerMove_failWrite s l w _
    · exact (innerMove_claimCells s 1).trans (innerMove_nextWriteStep _ l _)

theorem innerMove_swapRecord (s : State) (w : RecWrite) (revision : Nat) : s.InnerMove (s.swapRecord w revision) := by
  let status : RecStatus := if w.provisional then .provisional else .ok
  have nv := State.InnerMove.nv s { s.nv with
      index := putNvEntry { tag := w.tag, head := w.written.headD 0, revision := revision, status := status }
        (roomInNvIndex w.tag (s.pool.index.map IndexEntry.tag) s.nv.index)
      counter := revision + 1 }
    (fun h => ⟨h.cells, h.chain, rising_putNvEntry _ _ (rising_roomInNvIndex _ _ _ h.index)⟩)
  have pool := nv.trans (State.InnerMove.pool _ { s.pool with
      index := putEntry { tag := w.tag, head := w.written.headD 0, revision := revision, status := status
                          cells := w.written } s.pool.index
      counter := revision + 1 }
    (fun h => ⟨h.free, h.retired, h.chain, h.image, rising_putEntry _ _ h.index⟩))
  exact (pool.trans (innerMove_freeCells _ _)).trans (innerMove_refreshTag _ _)

theorem innerMove_endWrite (s : State) (l : Link) (w : RecWrite) (revision : Nat) :
    s.InnerMove (s.endWrite l w revision) := by
  unfold State.endWrite
  split
  · exact (innerMove_setWrite s l _).trans (hangMove_provEnd _ l _).inner
  · exact innerMove_finishJob s l _ _ _

theorem rising_tags_filter (p : IndexEntry → Bool) (l : List IndexEntry) (h : rising (l.map IndexEntry.tag)) :
    rising ((l.filter p).map IndexEntry.tag) := h.sublist (List.filter_sublist.map _)

theorem rising_nvTags_filter (p : NvEntry → Bool) (l : List NvEntry) (h : rising (l.map NvEntry.tag)) :
    rising ((l.filter p).map NvEntry.tag) := h.sublist (List.filter_sublist.map _)

theorem innerMove_eraseRecord (s : State) (l : Link) (tag : Nat) : s.InnerMove (s.eraseRecord l tag) := by
  have nv := State.InnerMove.nv s { s.nv with index := s.nv.index.filter (fun e => decide (e.tag ≠ tag)) }
    (fun h => ⟨h.cells, h.chain, rising_nvTags_filter _ _ h.index⟩)
  have pool := nv.trans (State.InnerMove.pool _
    { s.pool with index := s.pool.index.filter (fun e => decide (e.tag ≠ tag)) }
    (fun h => ⟨h.free, h.retired, h.chain, h.image, rising_tags_filter _ _ h.index⟩))
  exact ((pool.trans (innerMove_freeCells _ _)).trans (innerMove_refreshTag _ _)).trans (innerMove_finishJob _ _ _ _ _)

theorem innerMove_auditNext (l : Link) (es : List IndexEntry) (a : AuditWork) (s : State) :
    s.InnerMove (auditNext l es a s) := by
  induction es generalizing a with
  | nil => exact innerMove_finishJob s l _ _ _
  | cons e rest ih =>
    have next : s.InnerMove (if s.isLocked e.tag then
        auditNext l rest { a with last := e.tag, skipped := a.skipped + 1, reading := none } s
      else
        (s.setWork l (.audit { a with
          last := e.tag
          reading := some { tag := e.tag, cell := e.head, visited := [], expected := [], damaging := false } })).request
          l (.checkRead e.head)) := by
      split
      · exact ih _
      · exact (innerMove_setWork s l _).trans (innerMove_request _ l _)
    unfold auditNext
    split
    · exact ih _
    · exact next
    · exact next

theorem innerMove_auditAdvance (s : State) (l : Link) (a : AuditWork) : s.InnerMove (s.auditAdvance l a) :=
  (innerMove_setWork s l _).trans (innerMove_auditNext l _ _ _)

theorem innerMove_auditStep (s : State) (l : Link) (a : AuditWork) (r : AuditRead) (good : Bool) :
    s.InnerMove (s.auditStep l a r good) := by
  unfold State.auditStep
  dsimp only
  split
  · exact innerMove_auditAdvance s l _
  · exact (innerMove_setWork s l _).trans (innerMove_request _ l _)
  · exact (innerMove_setWork s l _).trans (innerMove_request _ l _)

theorem nvTags_map_damage (tag : Nat) (l : List NvEntry) :
    (l.map (fun (e : NvEntry) => if e.tag = tag then { e with status := .damaged } else e)).map NvEntry.tag =
      l.map NvEntry.tag := by
  rw [List.map_map]
  refine List.map_congr_left (fun e _ => ?_)
  simp only [Function.comp_apply]
  split <;> rfl

theorem tags_map_damage (tag : Nat) (l : List IndexEntry) :
    (l.map (fun (e : IndexEntry) => if e.tag = tag then { e with status := .damaged } else e)).map IndexEntry.tag =
      l.map IndexEntry.tag := by
  rw [List.map_map]
  refine List.map_congr_left (fun e _ => ?_)
  simp only [Function.comp_apply]
  split <;> rfl

theorem innerMove_damageRecord (s : State) (tag : Nat) : s.InnerMove (s.damageRecord tag) := by
  have nv := State.InnerMove.nv s { s.nv with
      index := s.nv.index.map (fun (e : NvEntry) => if e.tag = tag then { e with status := .damaged } else e) }
    (fun h => ⟨h.cells, h.chain, by rw [nvTags_map_damage]; exact h.index⟩)
  have pool := nv.trans (State.InnerMove.pool _ { s.pool with
      index := s.pool.index.map (fun (e : IndexEntry) => if e.tag = tag then { e with status := .damaged } else e) }
    (fun h => ⟨h.free, h.retired, h.chain, h.image, by rw [tags_map_damage]; exact h.index⟩))
  exact (pool.trans (innerMove_refreshTag _ _)).trans (innerMove_raise _ _ _)

theorem innerMove_commitJob (s : State) (l : Link) : s.InnerMove (s.commitJob l) := by
  unfold State.commitJob
  split
  · exact .refl s
  · exact innerMove_setJob s l _

theorem innerMove_beginSwap (s : State) (l : Link) (w : RecWrite) : s.InnerMove (s.beginSwap l w) := by
  unfold State.beginSwap
  dsimp only
  split
  · exact innerMove_setWrite s l _
  · exact (innerMove_setWrite s l _).trans (innerMove_commitJob _ l)

theorem innerMove_beginRequest (s : State) : s.InnerMove s.beginRequest := by
  unfold State.beginRequest
  split
  · exact .refl s
  · have begun := State.InnerMove.nvPort s
    dsimp only
    split
    · split
      · exact begun _
      · split
        · exact (begun _).trans (innerMove_failWrite _ _ _ _)
        · exact (begun _).trans (innerMove_beginSwap _ _ _)
    · exact (begun _).trans (innerMove_commitJob _ _)
    · split
      · exact (begun _).trans (innerMove_commitJob _ _)
      · exact begun _
    · exact begun _
    · exact begun _
    · exact begun _
    · exact begun _
    · exact begun _

theorem innerMove_savedCell (s : State) (l : Link) (v : SaveWork) (good : Bool) : s.InnerMove (s.savedCell l v good) := by
  unfold State.savedCell
  dsimp only
  split
  · split
    · exact innerMove_finishJob s l _ _ _
    · exact (innerMove_setWork s l _).trans (innerMove_request _ l _)
  · split
    · exact innerMove_finishJob s l _ _ _
    · exact (innerMove_setWork s l _).trans (innerMove_request _ l _)

/-! ### Jobs ended early -/

theorem innerMove_withdrawOrders (s : State) (l : Link) : s.InnerMove (s.withdrawOrders l) :=
  .chain (chainStep_withdrawOrders s l)

theorem innerMove_abandonWork (s : State) (l : Link) (w : JobWork) : s.InnerMove (s.abandonWork l w) := by
  cases w with
  | write w => exact (innerMove_withdrawNv s l).trans (innerMove_freeCells _ _)
  | erase tag => exact innerMove_withdrawNv s l
  | audit a => exact innerMove_withdrawNv s l
  | save v => exact innerMove_withdrawNv s l
  | hang h =>
    unfold State.abandonWork
    dsimp only
    split
    · exact innerMove_withdrawOrders s l
    · split
      · exact ((innerMove_withdrawOrders s l).trans (innerMove_withdrawNv _ l)).trans (.nvPort _ _)
      · exact ((innerMove_withdrawOrders s l).trans (innerMove_withdrawNv _ l)).trans (innerMove_freeCells _ _)

theorem innerMove_abandonJob (s : State) (l : Link) : s.InnerMove (s.abandonJob l) := by
  unfold State.abandonJob
  split
  · exact .refl s
  · exact (innerMove_setJob s l _).trans (innerMove_abandonWork _ l _)

/-! ### Gathers and drift cycles -/

theorem innerMove_updateStatus (s : State) (f : TileStatus → TileStatus) (keep : ∀ t, (f t).tag = t.tag) (tag : Nat) :
    s.InnerMove { s with tiles := updateStatus f tag s.tiles } := .tiles s _ (tags_updateStatus f keep tag s.tiles)

theorem takeAnswer_tag (depth : Nat) (x : Sample) (t : TileStatus) : (t.takeAnswer depth x).tag = t.tag := by
  unfold TileStatus.takeAnswer
  split <;> rfl

/-- The place found is a place of the list. -/
theorem placeFrom_lt {α : Type} (p : α → Bool) (i j : Nat) (l : List α) (h : placeFrom p i l = some j) :
    j < i + l.length := by
  induction l generalizing i with
  | nil => simp [placeFrom] at h
  | cons x xs ih =>
    unfold placeFrom at h
    split at h
    · simp only [Option.some.injEq] at h
      simp only [List.length_cons]
      omega
    · have := ih (i + 1) h
      simp only [List.length_cons]
      omega

theorem positionOf_lt (s : State) (tag i : Nat) (h : s.positionOf tag = some i) : i < s.positions.length := by
  simpa using placeFrom_lt _ 0 i _ h

theorem innerMove_markTag (s : State) (tag : Nat) : s.InnerMove (s.markTag tag) := by
  unfold State.markTag
  split
  · next _ i _ at_i =>
    split
    · exact .dirty s _ (positionOf_lt s tag i at_i)
    · exact .refl s
  · exact .refl s

theorem innerMove_takeSample (a : State × List Nat) (x : Sample) : a.1.InnerMove (takeSample a x).1 := by
  unfold takeSample
  split
  · exact .discarded _ _
  · split
    · exact .discarded _ _
    · exact (innerMove_updateStatus a.1 _ (takeAnswer_tag _ x) x.tag).trans (innerMove_markTag _ _)

theorem innerMove_missTag (s : State) (tag : Nat) : s.InnerMove (s.missTag tag) := by
  unfold State.missTag
  split
  · exact .refl s
  · split
    · have missed := innerMove_updateStatus s (fun t => { t with miss := t.miss + 1 }) (fun _ => rfl) tag
      dsimp only
      split
      · exact missed.trans (innerMove_raiseDlSl _ _)
      · exact missed
    · exact .refl s

theorem innerMove_takeSamples (xs : List Sample) (a : State × List Nat) : a.1.InnerMove (xs.foldl takeSample a).1 := by
  induction xs generalizing a with
  | nil => exact .refl _
  | cons x xs ih => exact (innerMove_takeSample a x).trans (ih _)

theorem innerMove_useGather (s : State) (b : Nat) (samples : List Sample) : s.InnerMove (s.useGather b samples) :=
  (innerMove_takeSamples samples (s, [])).trans (innerMove_foldl _ innerMove_missTag _ _)

theorem innerMove_endStream (s : State) (w : Wire) (broken : Bool) : s.InnerMove (s.endStream w broken) := by
  unfold State.endStream
  dsimp only
  split
  · have counted := (chainStep_setBranchState s w.order.branch .idle).trans (chainStep_countAnswers _ w.order.branch w.count)
    refine .chain (State.ChainStep.trans ?_ ((chainStep_tellIdle _ _).trans (chainStep_freeWire _)))
    split
    · exact counted
    · exact counted.trans (chainStep_tell _ _ _ _)
  · refine (innerMove_useGather s w.order.branch w.samples).trans (.chain ?_)
    exact (((chainStep_modBranch _ _ _).trans (chainStep_countAnswers _ _ _)).trans (chainStep_tell _ _ _ _)).trans
      ((chainStep_tellIdle _ _).trans (chainStep_freeWire _))
  · exact .refl s

theorem pulseMove_cycleBranch (a : State × Bool) (b : Nat) : a.1.PulseMove (cycleBranch a b).1 := by
  unfold cycleBranch
  dsimp only
  split
  · exact .overruns _ _
  · split
    · split
      · next room =>
        exact .chain ((chainStep_awaiting a.1 _ (rising_insertAsc b _)).trans (chainStep_queueOrder _ _ room))
      · exact .cyclesSkipped _ _
    · exact .refl _

theorem pulseMove_cycleBranches (bs : List Nat) (a : State × Bool) : a.1.PulseMove (bs.foldl cycleBranch a).1 := by
  induction bs generalizing a with
  | nil => exact .refl _
  | cons b bs ih => exact (pulseMove_cycleBranch a b).trans (ih _)

theorem pulseMove_startCycle (s : State) : s.PulseMove s.startCycle := by
  have cycled := (State.PulseMove.cyclesStarted s ((s.cyclesStarted + 1) % 65536)).trans
    (pulseMove_cycleBranches [0, 1, 2, 3] (_, false))
  unfold State.startCycle
  dsimp only
  split
  · exact cycled.trans ((.chain (chainStep_hang (.notice _ .dl _ nofun rfl))))
  · exact cycled

theorem pulseMove_countPulse (s : State) : s.PulseMove s.countPulse := by
  unfold State.countPulse
  dsimp only
  have counted : ∀ counter, s.PulseMove (if decide (s.timer.counter ≤ 1) = true then
      { s with timer := { s.timer with stage := 0, counter := counter } }.startCycle
      else { s with timer := { s.timer with stage := 0, counter := counter } }) := by
    intro counter
    split
    · exact (State.PulseMove.timer s _).trans (pulseMove_startCycle _)
    · exact .timer s _
  split
  · exact (counted _).trans (.timer _ _)
  · exact counted _
  · exact counted _

theorem pulseMove_sourcePulse (s : State) : s.PulseMove s.sourcePulse := by
  have pulse : s.PulseMove (if s.timer.stage + 1 < s.settings.prescaler then
      { s with timer := { s.timer with stage := s.timer.stage + 1 } } else s.countPulse) := by
    split
    · exact .timer s _
    · exact pulseMove_countPulse s
  unfold State.sourcePulse
  split
  · exact .refl s
  · exact pulse
  · exact pulse

theorem innerMove_countPulse (s : State) : s.InnerMove s.countPulse := .pulse (pulseMove_countPulse s)

theorem innerMove_sourcePulse (s : State) : s.InnerMove s.sourcePulse := .pulse (pulseMove_sourcePulse s)

end Sys2Proof.Machine
end

section
/-! PROOFS. Every command as moves: the events of the NV Port, the tile chain and the timer, and the effects of the
calls. -/
namespace Sys2Proof.Machine

/-! ### Events -/

theorem innerMove_nvRequestBegin {s t : State} (h : exec .nvRequestBegin s = .next t) : s.InnerMove t := by
  cases h
  split
  · exact innerMove_beginRequest s
  · exact .refl s

theorem innerMove_indexSwapBegin {s t : State} (h : exec .indexSwapBegin s = .next t) : s.InnerMove t := by
  cases h
  split
  · exact innerMove_beginRequest s
  · exact .refl s

theorem innerMove_eraseWriteBegin {s t : State} (h : exec .eraseWriteBegin s = .next t) : s.InnerMove t := by
  cases h
  split
  · exact innerMove_beginRequest s
  · exact .refl s

theorem innerMove_settingsWriteBegin {s t : State} (h : exec .settingsWriteBegin s = .next t) : s.InnerMove t := by
  cases h
  split
  · exact innerMove_beginRequest s
  · exact .refl s

theorem rising_writeCell (nv : NvMemory) (good : Bool) (cell : Nat) (g : Group) (h : nv.Rising) :
    (nv.writeCell good cell g).Rising := by
  refine ⟨?_, h.chain, h.index⟩
  unfold NvMemory.writeCell
  dsimp only
  split
  · exact rising_mapSet cell g nv.cells h.cells
  · exact rising_mapErase cell nv.cells h.cells

theorem rising_writeChain (nv : NvMemory) (cell : Nat) (e : ChainEntry) (h : nv.Rising) :
    (nv.writeChain cell e).Rising := ⟨h.cells, rising_chainSet cell e nv.chain h.chain, h.index⟩

theorem innerMove_cellWriteComplete {good : Bool} {s t : State} (h : exec (.cellWriteComplete good) s = .next t) :
    s.InnerMove t := by
  cases h
  split
  · next cell g _ _ =>
    have written : s.InnerMove { s.clearCurrent with nv := s.nv.writeCell good cell g } :=
      (innerMove_clearCurrent s).trans (.nv _ _ (rising_writeCell s.nv good cell g))
    dsimp only
    split
    · split
      · exact written.trans (innerMove_cellGood _ _ _ _ _)
      · exact written.trans (innerMove_cellBad _ _ _ _)
    · exact written
  · exact .refl s

theorem innerMove_retiredWriteComplete {s t : State} (h : exec .retiredWriteComplete s = .next t) : s.InnerMove t := by
  cases h
  split
  · next cell _ _ =>
    have written : s.InnerMove { s.clearCurrent with nv := s.nv.writeChain cell .retired } :=
      (innerMove_clearCurrent s).trans (.nv _ _ (rising_writeChain s.nv cell _))
    dsimp only
    split
    · exact written.trans (innerMove_replaceCell _ _ _)
    · exact written
  · exact .refl s

theorem innerMove_chainEntryWriteComplete {s t : State} (h : exec .chainEntryWriteComplete s = .next t) :
    s.InnerMove t := by
  cases h
  split
  · next cell e _ _ =>
    have written : s.InnerMove { s.clearCurrent with nv := s.nv.writeChain cell e } :=
      (innerMove_clearCurrent s).trans (.nv _ _ (rising_writeChain s.nv cell e))
    dsimp only
    split
    · exact (written.trans (.pool _ { s.pool with chain := chainSet cell e s.pool.chain }
        (fun h => ⟨h.free, h.retired, rising_chainSet cell e _ h.chain, h.image, h.index⟩))).trans
        (innerMove_nextWriteStep _ _ _)
    · exact written
  · exact .refl s

theorem innerMove_indexSwapComplete {s t : State} (h : exec .indexSwapComplete s = .next t) : s.InnerMove t := by
  cases h
  split
  · dsimp only
    have done := innerMove_clearCurrent s
    split
    · exact done
    · split
      · exact done
      · exact (done.trans (innerMove_swapRecord _ _ _)).trans (innerMove_endWrite _ _ _ _)
  · have done := State.InnerMove.nvPort s { s.nvPort with current := none, orphan := none }
    dsimp only
    split
    · exact done
    · split
      · exact done
      · exact done.trans (innerMove_swapRecord _ _ _)
  · exact .refl s

theorem innerMove_eraseWriteComplete {s t : State} (h : exec .eraseWriteComplete s = .next t) : s.InnerMove t := by
  cases h
  split
  · exact (innerMove_clearCurrent s).trans (innerMove_eraseRecord _ _ _)
  · exact .refl s

theorem innerMove_auditCheckReadComplete {good : Bool} {s t : State}
    (h : exec (.auditCheckReadComplete good) s = .next t) : s.InnerMove t := by
  cases h
  split
  · dsimp only
    have done := innerMove_clearCurrent s
    split
    · split
      · exact done
      · exact done.trans (innerMove_auditStep _ _ _ _ _)
    · exact done
  · exact .refl s

theorem innerMove_auditStatusWriteComplete {s t : State} (h : exec .auditStatusWriteComplete s = .next t) :
    s.InnerMove t := by
  cases h
  split
  · next tag _ _ =>
    dsimp only
    have damaged := (innerMove_clearCurrent s).trans (innerMove_damageRecord _ tag)
    split
    · exact damaged.trans (innerMove_auditAdvance _ _ _)
    · exact damaged
  · exact .refl s

theorem innerMove_settingsCellWriteComplete {good : Bool} {s t : State}
    (h : exec (.settingsCellWriteComplete good) s = .next t) : s.InnerMove t := by
  cases h
  split
  · next cell image _ _ =>
    dsimp only
    have written := (innerMove_clearCurrent s).trans (.nv _ { s.nv with
      settings := updateAt (fun _ => if good then some image else none) cell s.nv.settings }
      (fun h => ⟨h.cells, h.chain, h.index⟩))
    split
    · exact written.trans (innerMove_savedCell _ _ _ _)
    · exact written
  · exact .refl s

theorem innerMove_transmitterTake {s t : State} (h : exec .transmitterTake s = .next t) : s.InnerMove t := by
  cases h
  exact .chain (chainStep_kick s)

theorem innerMove_owedGatherQueue {s t : State} (h : exec .owedGatherQueue s = .next t) : s.InnerMove t := by
  cases h
  split
  · exact .refl s
  · split
    · next room => exact .chain ((chainStep_giveOwed s _ _ room).trans (chainStep_kick _))
    · exact .refl s

theorem innerMove_spaceWaiterQueue {s t : State} (h : exec .spaceWaiterQueue s = .next t) : s.InnerMove t := by
  cases h
  split
  · split
    · next room => exact .chain ((chainStep_giveWaiter s _ _ room).trans (chainStep_kick _))
    · exact .refl s
  · exact .refl s

theorem innerMove_echoArrive {branch : Nat} {header : Word} {s t : State}
    (h : exec (.echoArrive branch header) s = .next t) : s.InnerMove t := by
  cases h
  split
  · exact .refl s
  · split
    · split
      · exact .chain (chainStep_enterSweeping s _ _)
      · exact .chain (chainStep_wire s _)
    · exact .refl s

theorem innerMove_wireFault {s t : State} (h : exec .wireFault s = .next t) : s.InnerMove t := by
  cases h
  split
  · exact .refl s
  · next w _ =>
    split
    · exact .refl s
    · dsimp only
      have fault := (chainStep_modBranch s w.order.branch (fun x =>
        { x with state := .fault, orig := none, sweepTimer := false })).trans (chainStep_hang (hangMove_raiseDlSl _ .branchFault rfl))
      refine .chain (State.ChainStep.trans ?_ (chainStep_freeWire _))
      split
      · exact fault
      · exact fault.trans (chainStep_tell _ _ _ _)

theorem innerMove_sweepStartPoint {s t : State} (h : exec .sweepStartPoint s = .next t) : s.InnerMove t := by
  cases h
  split
  · exact .refl s
  · split
    · split
      · exact .chain (chainStep_enterSweeping s _ _)
      · exact .chain (chainStep_wire s _)
    · exact .refl s

theorem innerMove_doneReport {branch : Nat} {report : Word} {s t : State}
    (h : exec (.doneReport branch report) s = .next t) : s.InnerMove t := by
  cases h
  split
  · split
    · exact .chain (chainStep_takeDone s _)
    · split
      · exact .refl s
      · split
        · exact .chain (chainStep_wire s _)
        · exact .refl s
  · exact .refl s

theorem innerMove_sweepTimeout {branch : Nat} {s t : State} (h : exec (.sweepTimeout branch) s = .next t) :
    s.InnerMove t := by
  cases h
  dsimp only
  split
  · have timedOut := (chainStep_modBranch s branch (fun x =>
      { x with state := .idle, timeout := true, sweepTimer := false, orig := none })).trans
      (chainStep_hang (hangMove_raiseDlSl _ .sweepTimeout rfl))
    refine .chain (State.ChainStep.trans ?_ ((chainStep_tellIdle _ _).trans (chainStep_kick _)))
    split
    · exact timedOut
    · exact timedOut.trans (chainStep_tell _ _ _ _)
  · exact .refl s

theorem innerMove_tileAnswer {branch : Nat} {words : List Word} {s t : State}
    (h : exec (.tileAnswer branch words) s = .next t) : s.InnerMove t := by
  cases h
  split
  · split
    · exact .chain (chainStep_wire s _)
    · exact .refl s
  · exact .refl s

theorem innerMove_endMarker {branch : Nat} {s t : State} (h : exec (.endMarker branch) s = .next t) :
    s.InnerMove t := by
  cases h
  split
  · exact .refl s
  · split
    · exact innerMove_endStream s _ _
    · exact .refl s

theorem innerMove_answerStreamBreak {s t : State} (h : exec .answerStreamBreak s = .next t) : s.InnerMove t := by
  cases h
  split
  · exact .refl s
  · split
    · exact innerMove_endStream s _ _
    · exact .refl s

theorem innerMove_waitingHangToldIdle {l : Link} {branch : Nat} {s t : State}
    (h : exec (.waitingHangToldIdle l branch) s = .next t) : s.InnerMove t := by
  cases h
  split
  · exact .chain (((chainStep_idleWaits s _).trans (chainStep_toldIdle _ _ _)).trans (chainStep_kick _))
  · exact .refl s

theorem innerMove_placePost {l : Link} {s t : State} (h : exec (.placePost l) s = .next t) : s.InnerMove t := by
  cases h
  split
  · exact .refl s
  · next m rest waiting =>
    split
    · next hpost =>
      have fewer := chainStep_postWaiters s rest (fun h => by rw [waiting] at h; exact h.of_cons)
      exact .chain (fewer.trans (chainStep_hang (hangMove_post _ l hpost.2)))
    · exact .refl s

theorem innerMove_cadenceCountPulse {s t : State} (h : exec .cadenceCountPulse s = .next t) : s.InnerMove t := by
  cases h
  split
  · exact innerMove_countPulse s
  · exact .refl s

theorem innerMove_cadenceExpiry {s t : State} (h : exec .cadenceExpiry s = .next t) : s.InnerMove t := by
  cases h
  split
  · exact innerMove_countPulse s
  · exact .refl s

theorem innerMove_sourcePulseEvent {s t : State} (h : exec .sourcePulse s = .next t) : s.InnerMove t := by
  cases h
  split
  · exact innerMove_sourcePulse s
  · exact .refl s

theorem innerMove_frameLost {s t : State} (h : exec .frameLost s = .next t) : s.InnerMove t := by
  cases h
  split
  · exact (State.InnerMove.frame s _).trans (innerMove_raiseAll _ _)
  · exact .refl s

/-! ### The effects of the calls -/

/-- What the state after a call's effect satisfies, if its own checks accept the call; its reply is still to be
staged. -/
def Answer.Leads (P : State → Prop) : Answer → Prop
  | .refuse _ _ => True
  | .accept _ _ t => P t
  | .staged _ => False

theorem leads_senseLink (l : Link) (s : State) : (ownSenseLink l s).Leads s.InnerMove := .port s l _ rfl

theorem leads_readNotices (l : Link) (s : State) : (ownReadNotices l s).Leads s.InnerMove := .refl s

theorem leads_clearNotices (l : Link) (ws : List Word) (s : State) : (ownClearNotices l ws s).Leads s.InnerMove := by
  unfold ownClearNotices
  split
  · exact .port s l _ rfl
  · trivial

theorem leads_setNoticeMask (l : Link) (ws : List Word) (s : State) : (ownSetNoticeMask l ws s).Leads s.InnerMove := by
  unfold ownSetNoticeMask
  split
  · exact .port s l _ rfl
  · trivial

theorem leads_senseJob (l : Link) (s : State) : (ownSenseJob l s).Leads s.InnerMove := .refl s

theorem leads_abandonJob (l : Link) (s : State) : (ownAbandonJob l s).Leads s.InnerMove := by
  unfold ownAbandonJob
  split
  · exact .port s l _ rfl
  · split
    · exact .refl s
    · exact (innerMove_abandonJob s l).trans (.port _ l _ rfl)

theorem leads_senseWall (s : State) : (ownSenseWall s).Leads s.InnerMove := .refl s

theorem leads_fetchSpan (ws : List Word) (s : State) : (ownFetchSpan ws s).Leads s.InnerMove := by
  unfold ownFetchSpan
  split
  · split
    · trivial
    · exact .refl s
  · trivial

theorem leads_fetchGlobal (s : State) : (ownFetchGlobal s).Leads s.InnerMove := .refl s

theorem innerMove_enqueue (s : State) (c : Change) (room : ¬s.queueFull = true) : s.InnerMove (s.enqueue c) :=
  .changes s c (Nat.lt_of_not_le (fun full => room (State.queueFull_iff s |>.mpr full)))

theorem leads_setGlobal (ws : List Word) (s : State) : (ownSetGlobal ws s).Leads s.InnerMove := by
  unfold ownSetGlobal
  split
  · trivial
  · split
    · trivial
    · split
      · trivial
      · next room => exact innerMove_enqueue s _ room

theorem leads_override (ws : List Word) (s : State) : (ownOverride ws s).Leads s.InnerMove := by
  unfold ownOverride
  split
  · trivial
  · split
    · trivial
    · split
      · trivial
      · next room => exact innerMove_enqueue s _ room

theorem leads_take (ws : List Word) (s : State) : (ownTake ws s).Leads s.InnerMove := by
  unfold ownTake
  split
  · split
    · trivial
    · split
      · trivial
      · next room => exact innerMove_enqueue s _ room
  · trivial

theorem leads_revert (ws : List Word) (s : State) : (ownRevert ws s).Leads s.InnerMove := by
  unfold ownRevert
  split
  · split
    · trivial
    · split
      · trivial
      · split
        · trivial
        · next room => exact innerMove_enqueue s _ room
  · trivial

theorem leads_setFrameEdge (ws : List Word) (s : State) : (ownSetFrameEdge ws s).Leads s.InnerMove := by
  unfold ownSetFrameEdge
  split
  · split
    · trivial
    · exact .settings s _ rfl rfl
  · trivial

theorem leads_showLock (on : Bool) (s : State) : (ownShowLock on s).Leads s.InnerMove := .showLock s on

theorem leads_hold (on : Bool) (s : State) : (ownHold on s).Leads s.InnerMove := .hold s on

theorem leads_setDriftParameters (ws : List Word) (s : State) : (ownSetDriftParameters ws s).Leads s.InnerMove := by
  unfold ownSetDriftParameters
  split
  · trivial
  · dsimp only
    split
    · exact .settings s _ rfl rfl
    · trivial

theorem leads_setCadence (ws : List Word) (s : State) : (ownSetCadence ws s).Leads s.InnerMove := by
  unfold ownSetCadence
  split
  · trivial
  · next src p r y _ =>
    split
    · trivial
    · exact (State.InnerMove.settings s { s.settings with
        source := src, prescaler := p, reload := r, runAtStart := y } rfl rfl).trans (.timer _ _)

theorem leads_cadenceRun (s : State) : (ownCadenceRun s).Leads s.InnerMove := .timer s _

theorem leads_cadenceStop (s : State) : (ownCadenceStop s).Leads s.InnerMove := by
  unfold ownCadenceStop
  split
  · exact .timer s _
  · exact .refl s
  · exact .refl s

theorem leads_cadenceRestart (s : State) : (ownCadenceRestart s).Leads s.InnerMove := .timer s _

theorem leads_senseCadence (s : State) : (ownSenseCadence s).Leads s.InnerMove := .refl s

theorem leads_selectTile (l : Link) (ws : List Word) (s : State) : (ownSelectTile l ws s).Leads s.InnerMove := by
  unfold ownSelectTile
  split
  · trivial
  · exact .port s l _ rfl

theorem leads_readRecord (l : Link) (s : State) : (ownReadRecord l s).Leads s.InnerMove := by
  unfold ownReadRecord
  split
  · trivial
  · split
    · trivial
    · exact .refl s

theorem leads_listRecords (ws : List Word) (s : State) : (ownListRecords ws s).Leads s.InnerMove := by
  unfold ownListRecords
  split
  · trivial
  · exact .refl s

theorem leads_setWatermark (ws : List Word) (s : State) : (ownSetWatermark ws s).Leads s.InnerMove := by
  unfold ownSetWatermark
  split
  · next w =>
    split
    · trivial
    · exact (State.InnerMove.settings s { s.settings with watermark := w.toNat } rfl rfl).trans (innerMove_evalLow _)
  · trivial

theorem innerMove_startJob (s : State) (l : Link) (w : JobWork) : s.InnerMove (s.startJob l w) :=
  innerMove_setJob s l _

theorem innerMove_acceptWrite (s : State) (l : Link) (tag : Nat) (groups : List Group) :
    s.InnerMove (s.acceptWrite l tag groups) :=
  ((innerMove_claimCells s _).trans (innerMove_startJob _ l _)).trans (innerMove_nextWriteStep _ l _)

theorem leads_writeRecord (l : Link) (ws : List Word) (s : State) : (ownWriteRecord l ws s).Leads s.InnerMove := by
  unfold ownWriteRecord
  split
  · trivial
  · trivial
  · split
    · trivial
    · exact innerMove_acceptWrite s l _ _

theorem leads_eraseRecord (l : Link) (ws : List Word) (s : State) : (ownEraseRecord l ws s).Leads s.InnerMove := by
  unfold ownEraseRecord
  split
  · trivial
  · split
    · trivial
    · split
      · trivial
      · split
        · trivial
        · exact (innerMove_startJob s l _).trans (innerMove_request _ l _)

theorem leads_auditPool (l : Link) (s : State) : (ownAuditPool l s).Leads s.InnerMove :=
  (innerMove_startJob s l _).trans (innerMove_auditAdvance _ l _)

theorem leads_saveSettings (l : Link) (s : State) : (ownSaveSettings l s).Leads s.InnerMove := by
  unfold ownSaveSettings
  split
  · trivial
  · exact (innerMove_startJob s l _).trans (innerMove_request _ l _)

theorem map_ramp_refreshBatch (s : State) (batch : Nat) :
    (s.refreshBatch batch).positions.map Position.ramp = s.positions.map Position.ramp := by
  simp only [State.refreshBatch, List.map_map]
  refine List.map_congr_left (fun p _ => ?_)
  simp only [Function.comp_apply]
  split <;> rfl

theorem leads_setBatchDefault (ws : List Word) (s : State) : (ownSetBatchDefault ws s).Leads s.InnerMove := by
  unfold ownSetBatchDefault
  split
  · trivial
  · next code d _ =>
    split
    · trivial
    · have replaced := State.InnerMove.settings s { s.settings with
        batch := updateAt (fun _ => d) code s.settings.batch } rfl rfl
      exact replaced.trans (.positions _ _ (map_ramp_refreshBatch _ code))

theorem leads_setWhitePoint (ws : List Word) (s : State) : (ownSetWhitePoint ws s).Leads s.InnerMove := by
  unfold ownSetWhitePoint
  split
  · dsimp only
    split
    · trivial
    · exact .settings s _ rfl rfl
  · trivial

theorem innerMove_setRoute (s : State) (b : Nat) (r : Option Route) : s.InnerMove (s.setRoute b r) :=
  .settings s _ rfl rfl

theorem leads_setRoute (ws : List Word) (s : State) : (ownSetRoute ws s).Leads s.InnerMove := by
  unfold ownSetRoute
  split
  · trivial
  · split
    · trivial
    · exact innerMove_setRoute s _ _
  · split
    · trivial
    · split
      · exact innerMove_setRoute s _ _
      · trivial

theorem leads_readTileStatus (ws : List Word) (s : State) : (ownReadTileStatus ws s).Leads s.InnerMove := by
  unfold ownReadTileStatus
  split
  · trivial
  · split
    · trivial
    · split
      · trivial
      · split
        · trivial
        · split
          · trivial
          · exact .refl s

theorem leads_hang (l : Link) (ws : List Word) (s : State) : (ownHang l ws s).Leads s.InnerMove := by
  unfold ownHang
  split
  · trivial
  · split
    · trivial
    · trivial
    · split
      · trivial
      · split
        · trivial
        · exact (innerMove_startJob s l _).trans (.chain ((chainStep_offerRollCalls l 5 _).trans (chainStep_kick _)))

theorem leads_sweepNow (ws : List Word) (s : State) : (ownSweepNow ws s).Leads s.InnerMove := by
  unfold ownSweepNow
  split
  · split
    · trivial
    · split
      · trivial
      · next room => exact .chain (chainStep_queueOrder s _ (Nat.lt_of_not_le room))
  · trivial

theorem leads_senseBranches (ws : List Word) (s : State) : (ownSenseBranches ws s).Leads s.InnerMove := by
  unfold ownSenseBranches
  split
  · split
    · exact .chain (chainStep_clearFlags s _)
    · trivial
  · trivial

theorem leads_clearBranch (ws : List Word) (s : State) : (ownClearBranch ws s).Leads s.InnerMove := by
  unfold ownClearBranch
  split
  · dsimp only
    split
    · trivial
    · simp only [Answer.Leads]
      split
      · exact .chain (((chainStep_setBranchState s _ _).trans (chainStep_tellIdle _ _)).trans (chainStep_kick _))
      · exact .refl s
  · trivial

theorem leads_listPending (ws : List Word) (s : State) : (ownListPending ws s).Leads s.InnerMove := by
  unfold ownListPending
  split
  · split
    · trivial
    · exact .refl s
  · trivial

end Sys2Proof.Machine
end

section
/-! PROOFS. What a frame tick can do to the state: `TickMove`, the moves of the commit (R124) over those of the timer's
pulse and of the end of a hang. -/
namespace Sys2Proof.Machine

/-- A position at rest stands at its target (R130). -/
def Position.Rested (p : Position) : Prop := p.remaining = 0 → p.applied = p.target

/-- The global vector at rest stands at its target (R130). -/
def Global.Rested (g : Global) : Prop := g.remaining = 0 → g.applied = g.target

/-- A digest as R133 and R134 have it: OVERFLOW with no entries, or at most 128 entries of rising positions; 1 to 8
parts. -/
structure Digest.Sound (d : Digest) : Prop where
  entries : d.entries.length ≤ 128
  overflow : d.overflow = true → d.entries = []
  ascending : rising (d.entries.map DigestEntry.position)
  parts : 1 ≤ d.fetched.length ∧ d.fetched.length ≤ 8

/-- What a tick does, move by move: each names what it replaces and what it keeps of it. -/
inductive State.TickMove : State → State → Prop
  | pulse {s t : State} : s.PulseMove t → TickMove s t
  | trans {s t u : State} : TickMove s t → TickMove t u → TickMove s u
  | ended (s : State) (l : Link) (q : Port) : TickMove s (s.setPort l ((s.port l).ended q))
  | positions (s : State) (x : List Position) (count : x.length = s.positions.length)
      (rested : (∀ p ∈ s.positions, p.Rested) → ∀ p ∈ x, p.Rested) : TickMove s { s with positions := x }
  | tiles (s : State) (x : List TileStatus)
      (keep : rising (s.tiles.map TileStatus.tag) → rising (x.map TileStatus.tag)) : TickMove s { s with tiles := x }
  | dirty (s : State) (x : List Nat) (fewer : x.Sublist s.dirty) : TickMove s { s with dirty := x }
  | cursor (s : State) (n : Nat) : TickMove s { s with cursor := n }
  | global (s : State) (g : Global) (rested : s.global.Rested → g.Rested) : TickMove s { s with global := g }
  | epoch (s : State) (e : BitVec 48) : TickMove s { s with epoch := e }
  | digest (s : State) (d : Digest) (sound : d.Sound) : TickMove s { s with digest := d }
  | history (s : State) (x : List (List PosRecord))
      (places : s.history.length ≤ Config.historyPlaces → x.length ≤ Config.historyPlaces) :
      TickMove s { s with history := x }
  | lastSkipped (s : State) (n : Nat) : TickMove s { s with lastSkipped := n }
  | frame (s : State) (x : FrameSync) : TickMove s { s with frame := x }
  | changes (s : State) (x : List Change) : TickMove s { s with changes := x }

theorem State.TickMove.chain {s t : State} (h : s.ChainStep t) : s.TickMove t := .pulse (.chain h)

theorem State.TickMove.refl (s : State) : s.TickMove s := .pulse (.refl s)

theorem tickMove_foldl {α : Type} (f : State → α → State) (step : ∀ (s : State) (a : α), s.TickMove (f s a))
    (as : List α) (s : State) : s.TickMove (as.foldl f s) := by
  induction as generalizing s with
  | nil => exact .refl s
  | cons a as ih => exact (step s a).trans (ih _)

/-! ### Positions -/

theorem rested_of_ramp {p q : Position} (same : q.ramp = p.ramp) (h : p.Rested) : q.Rested := by
  obtain ⟨target, applied, remaining⟩ : q.target = p.target ∧ q.applied = p.applied ∧ q.remaining = p.remaining := by
    simpa [Position.ramp] using same
  intro hzero
  rw [applied, target]
  exact h (remaining ▸ hzero)

theorem rested_of_map_ramp {x y : List Position} (same : x.map Position.ramp = y.map Position.ramp)
    (h : ∀ p ∈ y, p.Rested) (q : Position) (hq : q ∈ x) : q.Rested := by
  have shown : q.ramp ∈ y.map Position.ramp := same ▸ List.mem_map_of_mem hq
  obtain ⟨p, hp, at_p⟩ := List.mem_map.mp shown
  exact rested_of_ramp at_p.symm (h p hp)

theorem length_eq_of_map_eq {α β : Type} {f : α → β} {l m : List α} (h : l.map f = m.map f) : l.length = m.length := by
  simpa using congrArg List.length h

/-- A move that leaves every ramp where it is. -/
theorem tickMove_positions_of_ramp (s : State) (x : List Position)
    (keep : x.map Position.ramp = s.positions.map Position.ramp) : s.TickMove { s with positions := x } :=
  .positions s x (length_eq_of_map_eq keep) (rested_of_map_ramp keep)

theorem tickMove_modPosition (s : State) (i : Nat) (f : Position → Position) (keep : ∀ p, (f p).ramp = p.ramp) :
    s.TickMove (s.modPosition i f) := tickMove_positions_of_ramp s _ (map_updateAt _ _ keep _ _)

theorem tickMove_refreshPending (s : State) (i : Nat) : s.TickMove (s.refreshPending i) :=
  tickMove_modPosition s i _ (fun _ => rfl)

theorem retarget_rested (tiles : List TileStatus) (ramp : Nat) (p : Position) : (p.retarget tiles ramp).Rested := by
  intro hzero
  have := retarget_remaining tiles ramp p
  omega

theorem tickMove_compute (s : State) (ramp i : Nat) : s.TickMove (s.compute ramp i) := by
  cases at_i : s.positions[i]? with
  | none => rw [compute_outside s ramp i at_i]; exact .refl s
  | some p =>
    rw [compute_eq s ramp i p at_i]
    have moved := State.TickMove.positions s (s.positions.set i (p.retarget s.tiles ramp)) (by simp)
      (fun rested q hq => by
        rcases List.mem_or_eq_of_mem_set hq with old | rfl
        · exact rested q old
        · exact retarget_rested _ _ _)
    have posted := moved.trans (.tiles _ (postStatus p.hung.tag s.tiles)
      (fun h => by rw [tags_postStatus]; exact h))
    exact posted.trans (.dirty _ (removeNat i s.dirty) List.filter_sublist)

theorem tickMove_adoptAt (s : State) (ramp i : Nat) (t : TileAt) (a : Adopted) (cause : Cause) :
    s.TickMove (s.adoptAt ramp i t a cause) := by
  unfold State.adoptAt
  exact ((tickMove_modPosition s i _ (by intro _; rfl)).trans (tickMove_compute _ ramp i)).trans
    (tickMove_refreshPending _ i)

/-! ### Entries of the Change Queue -/

theorem tickMove_raise (s : State) (l : Link) (n : Notice) : s.TickMove (s.raise l n) :=
  .ended s l { s.port l with flags := (s.port l).flags ||| n.word }

theorem tickMove_applyGlobal (s : State) (ramp : Nat) (o : IntentOps) : s.TickMove (s.applyGlobal ramp o) :=
  .global s _ (fun _ hzero => absurd hzero (by dsimp only; omega))

theorem tickMove_applyOverride (s : State) (i : Nat) (level : Option Nat) (ramp : Nat) :
    s.TickMove (s.applyOverride i level ramp) := by
  unfold State.applyOverride
  exact (tickMove_modPosition s i _ (by intro _; rfl)).trans (tickMove_compute _ ramp i)

theorem tickMove_takeAt (s : State) (ramp i : Nat) (t : TileAt) (a : Adopted) (r : Reason) :
    s.TickMove (s.takeAt ramp i t a r) := by
  have fromRecord : s.TickMove (match s.findEntry a.tag with
      | none => s
      | some e => s.adoptAt ramp i t (s.adoptRecord e) .noRecord) := by
    split
    · exact .refl s
    · exact tickMove_adoptAt s _ _ _ _ _
  cases r with
  | newRevision => exact fromRecord
  | recordAvailable => exact fromRecord
  | recordAbsent => exact tickMove_adoptAt s ramp i t (s.adoptDefault a.tag a.batch) .noRecord
  | recordDamaged => exact tickMove_adoptAt s ramp i t (s.adoptDefault a.tag a.batch) .damaged
  | batchChanged =>
    unfold State.takeAt
    dsimp only
    split
    · exact fromRecord
    · exact tickMove_adoptAt s _ _ _ _ _

theorem tickMove_takePosition (ramp : Nat) (s : State) (i : Nat) : s.TickMove (takePosition ramp s i) := by
  unfold takePosition
  split
  · exact .refl s
  · split
    · exact tickMove_takeAt s _ _ _ _ _
    · exact .refl s

theorem tickMove_pushPoint (s : State) : s.TickMove s.pushPoint := by
  unfold State.pushPoint
  split
  · next room => exact .history s _ (fun _ => room)
  · refine (State.TickMove.history s (s.restorePoint :: s.history.tail) (fun fits => ?_)).trans (tickMove_raise _ _ _)
    have : 1 ≤ Config.historyPlaces := by decide
    simp only [List.length_cons, List.length_tail]
    omega

theorem tickMove_applyTake (s : State) (ramp : Nat) : s.TickMove (s.applyTake ramp) := by
  unfold State.applyTake
  split
  · exact .refl s
  · exact (tickMove_pushPoint s).trans (tickMove_foldl _ (tickMove_takePosition ramp) _ _)

theorem tickMove_restorePosition (ramp : Nat) (a : State × Nat) (r : PosRecord) :
    a.1.TickMove (restorePosition ramp a r).1 := by
  unfold restorePosition
  split
  · exact .refl _
  · split
    · exact .refl _
    · split
      · split
        · exact .refl _
        · exact tickMove_adoptAt _ _ _ _ _ _
      · exact .refl _

theorem tickMove_restorePositions (ramp : Nat) (rs : List PosRecord) (a : State × Nat) :
    a.1.TickMove (rs.foldl (restorePosition ramp) a).1 := by
  induction rs generalizing a with
  | nil => exact .refl _
  | cons r rs ih => exact (tickMove_restorePosition ramp a r).trans (ih _)

theorem tickMove_applyRevert (s : State) (ramp : Nat) : s.TickMove (s.applyRevert ramp) := by
  unfold State.applyRevert
  split
  · exact tickMove_raise s _ _
  · next point rest held =>
    have popped := State.TickMove.history s rest (fun fits => by
      rw [held, List.length_cons] at fits
      omega)
    exact (popped.trans (tickMove_restorePositions ramp point (_, 0))).trans (.lastSkipped _ _)

theorem tickMove_finishJob (s : State) (l : Link) (st : JobState) (res : ResultCode) (fields : JobFields) :
    s.TickMove (s.finishJob l st res fields) := by
  unfold State.finishJob
  split
  · exact .refl s
  · next j _ =>
    split
    · exact .chain (chainStep_hang (hangMove_setJob s l _))
    · exact (State.TickMove.ended s l { s.port l with
        job := none, record := { state := st, result := res, committed := j.committed, fields := fields } }).trans
        (tickMove_raise _ _ _)

theorem tickMove_endHang (s : State) (l : Link) (moved unrecorded : Nat) : s.TickMove (s.endHang l moved unrecorded) := by
  unfold State.endHang
  split
  · exact .refl s
  · exact tickMove_finishJob s _ _ _ _

theorem rising_statusAfterPlace (live : List Position) (tiles : List TileStatus)
    (h : rising (tiles.map TileStatus.tag)) : rising ((statusAfterPlace live tiles).map TileStatus.tag) := by
  have insert : ∀ (tags : List Nat) (acc : List TileStatus), rising (acc.map TileStatus.tag) →
      rising ((tags.foldl (fun acc tag => insertStatus (TileStatus.new tag) acc) acc).map TileStatus.tag) := by
    intro tags
    induction tags with
    | nil => exact fun _ h => h
    | cons tag tags ih => exact fun acc h => ih _ (rising_insertStatus _ acc h)
  exact insert _ _ (h.sublist (List.filter_sublist.map _))

theorem map_ramp_layChanges (changes : List (Nat × (Hung × Option Adopted))) (live : List Position) :
    (layChanges changes live).map Position.ramp = live.map Position.ramp := by
  have paired : live.map Position.ramp = ((List.range live.length).zip live).map (fun e => e.2.ramp) := by
    rw [← Function.comp_def, ← List.map_map, List.map_snd_zip (by simp)]
  rw [paired]
  simp only [layChanges, List.map_map]
  refine List.map_congr_left (fun e _ => ?_)
  simp only [Function.comp_apply]
  split <;> rfl

theorem tickMove_applyPlace (s : State) (l : Link) (ramp : Nat) (staged : List (Nat × Hung)) (seen : List TileSeen) :
    s.TickMove (s.applyPlace l ramp staged seen) := by
  unfold State.applyPlace
  have laid := tickMove_positions_of_ramp s (layChanges (s.placeChanges staged seen) s.positions)
    (map_ramp_layChanges _ _)
  have listed := laid.trans (.tiles _ (statusAfterPlace (layChanges (s.placeChanges staged seen) s.positions) s.tiles)
    (rising_statusAfterPlace _ _))
  have computed (u : State) (is : List Nat) := tickMove_foldl (fun acc i => State.compute acc ramp i)
    (fun t i => tickMove_compute t ramp i) is u
  exact ((listed.trans (computed _ _)).trans (tickMove_foldl State.refreshPending tickMove_refreshPending _ _)).trans
    (tickMove_endHang _ _ _ _)

theorem tickMove_applyChange (s : State) (c : Change) : s.TickMove (s.applyChange c) := by
  cases c with
  | global ramp o => exact tickMove_applyGlobal s ramp o
  | take ramp => exact tickMove_applyTake s ramp
  | revert ramp => exact tickMove_applyRevert s ramp
  | override i level ramp => exact tickMove_applyOverride s i level ramp
  | place l ramp staged seen => exact tickMove_applyPlace s l ramp staged seen

theorem tickMove_post (s : State) (l : Link) : s.TickMove (s.post l) := by
  unfold State.post
  split
  · exact (State.TickMove.chain (chainStep_hang (hangMove_setJob s l _))).trans (.changes _ _)
  · exact .refl s

theorem tickMove_applyQueue (s : State) : s.TickMove s.applyQueue := by
  have applied := (tickMove_foldl State.applyChange tickMove_applyChange s.changes s).trans (.changes _ [])
  have waiting := applied.trans (.chain (chainStep_postWaiters _ [] (fun _ => List.nodup_nil)))
  exact waiting.trans (tickMove_foldl State.post tickMove_post _ _)

/-! ### Drift, ramps and the digest -/

theorem tickMove_takeDirty (s : State) : s.TickMove s.takeDirty := by
  unfold State.takeDirty
  split
  · exact .refl s
  · exact (tickMove_foldl (fun acc i => State.compute acc acc.settings.driftRamp i)
      (fun t i => tickMove_compute t _ i) _ s).trans (.cursor _ _)

theorem global_step_rested (g : Global) (h : g.Rested) : g.step.Rested := by
  unfold Global.step
  split
  · exact h
  · next running =>
    intro hzero
    have last : g.remaining = 1 := by dsimp only at hzero; omega
    simp only [last]
    cases g.target
    simp [GlobalVector.step, stepTerm_one]

theorem tickMove_stepRamps (s : State) : s.TickMove s.stepRamps := by
  have stepped := State.TickMove.positions s (s.positions.map Position.step) (by simp) (fun rested q hq => by
    obtain ⟨p, hp, rfl⟩ := List.mem_map.mp hq
    exact step_atTarget p (rested p hp))
  exact stepped.trans (.global _ s.global.step (global_step_rested s.global))

theorem indexed_map_fst (s : State) : s.indexed.map Prod.fst = List.range s.positions.length :=
  List.map_fst_zip (by simp)

theorem rising_indexed_filter (s : State) (p : Nat × Position → Bool) : rising ((s.indexed.filter p).map Prod.fst) := by
  have all : rising (s.indexed.map Prod.fst) := by rw [indexed_map_fst]; exact List.pairwise_lt_range
  exact all.sublist (List.filter_sublist.map _)

theorem rising_changedEntries (s : State) (before : List Position) :
    rising ((s.changedEntries before).map DigestEntry.position) := by
  unfold State.changedEntries
  rw [List.map_map]
  exact rising_indexed_filter s _

theorem sound_newDigest (s : State) (entries : List DigestEntry) (globalChanged : Bool) (epoch : BitVec 48)
    (ascending : rising (entries.map DigestEntry.position)) : (s.newDigest entries globalChanged epoch).Sound := by
  have parts : 1 ≤ partCount entries.length ∧ partCount entries.length ≤ 8 := by
    unfold partCount Config.digestEntries Config.partEntries
    split <;> omega
  refine ⟨?_, ?_, ?_, ?_⟩
  · simp only [State.newDigest]
    split
    · simp
    · next few =>
      have := of_decide_eq_false (Bool.not_eq_true _ ▸ few)
      simpa [Config.digestEntries] using this
  · intro overflowed
    simp only [State.newDigest] at overflowed ⊢
    rw [if_pos overflowed]
  · simp only [State.newDigest]
    split
    · simp
    · exact ascending
  · simpa [State.newDigest] using parts

theorem tickMove_buildDigest (s : State) (before : List Position) (globalBefore : GlobalVector) :
    s.TickMove (s.buildDigest before globalBefore) := by
  unfold State.buildDigest
  dsimp only
  split
  · exact .refl s
  · refine State.TickMove.trans ?_ (tickMove_raise _ _ _)
    have built : ∀ u : State, u.TickMove { u with
        epoch := nextEpoch s.epoch
        digest := s.newDigest (s.changedEntries before) (decide (s.global.applied ≠ globalBefore))
          (nextEpoch s.epoch) } := fun u =>
      (State.TickMove.epoch u (nextEpoch s.epoch)).trans
        (.digest { u with epoch := nextEpoch s.epoch } _ (sound_newDigest s _ _ _ (rising_changedEntries s before)))
    split
    · exact built s
    · exact (tickMove_raise s _ _).trans (built _)

theorem tickMove_commit (s : State) : s.TickMove s.commit :=
  (((tickMove_applyQueue s).trans (tickMove_takeDirty _)).trans (tickMove_stepRamps _)).trans (tickMove_buildDigest _ _ _)

theorem pulseMove_framePulse (s : State) : s.PulseMove s.framePulse := by
  unfold State.framePulse
  split
  · exact .refl s
  · exact pulseMove_sourcePulse s

theorem tickMove_tick (s : State) (first : Bool) : s.TickMove (s.tick first) := by
  have running := State.TickMove.frame s { s.frame with state := .running, timerRunning := true }
  unfold State.tick
  dsimp only
  split
  · exact running.trans ((State.TickMove.pulse (pulseMove_framePulse _)).trans (tickMove_commit _))
  · exact running.trans ((tickMove_commit _).trans (.pulse (pulseMove_framePulse _)))

theorem tickMove_frameTick {first : Bool} {s t : State} (h : exec (.frameTick first) s = .next t) : s.TickMove t := by
  cases h
  split
  · exact (State.TickMove.frame s _).trans (tickMove_tick _ _)
  · exact .refl s

theorem tickMove_filterClockSample {level : Level} {first : Bool} {s t : State}
    (h : exec (.filterClockSample level first) s = .next t) : s.TickMove t := by
  cases h
  split
  · unfold State.sample
    split
    · exact .frame s _
    · split
      · exact .frame s _
      · dsimp only
        split
        · exact (State.TickMove.frame s _).trans (tickMove_tick _ _)
        · exact .frame s _
  · exact .refl s

end Sys2Proof.Machine
end

section
/-! PROOFS. What the moves keep: `Conserves`, the invariants of the state clause by clause, of every move; `Serves`, what
is served and the room of the Change Queue, of the moves that are no tick's. -/
namespace Sys2Proof.Machine

/-- The invariants of the state, clause by clause: what holds before holds after. A move names the clauses of what it
replaces. -/
structure State.Conserves (s t : State) : Prop where
  pending : t.pending = s.pending := by rfl
  count : s.positions.length = s.positionCount → t.positions.length = t.positionCount := by exact id
  rested : (∀ p ∈ s.positions, p.Rested) → ∀ p ∈ t.positions, p.Rested := by exact id
  global : s.global.Rested → t.global.Rested := by exact id
  inside : (∀ i ∈ s.dirty, i < s.positions.length) → ∀ i ∈ t.dirty, i < t.positions.length := by exact id
  digest : s.digest.Sound → t.digest.Sound := by exact id
  orders : s.orders.length ≤ Config.orderPlaces → t.orders.length ≤ Config.orderPlaces := by exact id
  history : s.history.length ≤ Config.historyPlaces → t.history.length ≤ Config.historyPlaces := by exact id
  postWaiters : s.postWaiters.Nodup → t.postWaiters.Nodup := by exact id
  nv : s.nv.Rising → t.nv.Rising := by exact id
  pool : s.nv.Rising → s.pool.Rising → t.pool.Rising := by exact fun _ => id
  tiles : rising (s.tiles.map TileStatus.tag) → rising (t.tiles.map TileStatus.tag) := by exact id
  dirty : rising s.dirty → rising t.dirty := by exact id
  awaiting : rising s.awaiting → rising t.awaiting := by exact id

theorem State.Conserves.refl (s : State) : s.Conserves s := {}

theorem State.Conserves.trans {s t u : State} (h : s.Conserves t) (k : t.Conserves u) : s.Conserves u where
  pending := k.pending.trans h.pending
  count := k.count ∘ h.count
  rested := k.rested ∘ h.rested
  global := k.global ∘ h.global
  inside := k.inside ∘ h.inside
  digest := k.digest ∘ h.digest
  orders := k.orders ∘ h.orders
  history := k.history ∘ h.history
  postWaiters := k.postWaiters ∘ h.postWaiters
  nv := k.nv ∘ h.nv
  pool stored := k.pool (h.nv stored) ∘ h.pool stored
  tiles := k.tiles ∘ h.tiles
  dirty := k.dirty ∘ h.dirty
  awaiting := k.awaiting ∘ h.awaiting

theorem conserves_setPort (s : State) (l : Link) (p : Port) : s.Conserves (s.setPort l p) := by cases l <;> exact {}

theorem State.HangMove.conserves {s t : State} (h : s.HangMove t) : s.Conserves t := by
  induction h with
  | refl s => exact .refl s
  | trans _ _ ih1 ih2 => exact ih1.trans ih2
  | job s l j => exact conserves_setPort s l _
  | notice s l n _ _ => exact conserves_setPort s l _
  | claim s n low => exact { pool := fun _ h => ⟨rising_drop n _ h.free, h.retired, h.chain, h.image, h.index⟩ }
  | request s l op => exact {}
  | post s l ramp staged seen room => exact {}
  | waitToPost s l new => exact { postWaiters := fun h => nodup_concat h new }

/-- The Chain Engine keeps all but the bound of its queue, which `ChainStep` adds. -/
theorem State.ChainMove.conserves_but_orders {s t : State} (h : s.ChainMove t) : s.Conserves { t with orders := s.orders } := by
  induction h with
  | hang h =>
    have kept := h.conserves
    exact { kept with orders := id }
  | @trans s t u _ _ ih1 ih2 =>
    have first : s.Conserves { t with orders := s.orders } := ih1
    have second : State.Conserves { t with orders := s.orders } { u with orders := s.orders } :=
      { ih2 with orders := id }
    exact first.trans second
  | postWaiters s x keep => exact { postWaiters := keep }
  | awaiting s x keep => exact { awaiting := keep }
  | _ => exact {}

theorem State.ChainStep.conserves {s t : State} (h : s.ChainStep t) : s.Conserves t :=
  { h.move.conserves_but_orders with orders := h.fit }

theorem State.PulseMove.conserves {s t : State} (h : s.PulseMove t) : s.Conserves t := by
  induction h with
  | chain h => exact h.conserves
  | trans _ _ ih1 ih2 => exact ih1.trans ih2
  | _ => exact {}

theorem State.InnerMove.conserves {s t : State} (h : s.InnerMove t) : s.Conserves t := by
  induction h with
  | pulse h => exact h.conserves
  | trans _ _ ih1 ih2 => exact ih1.trans ih2
  | port s l p wire => exact conserves_setPort s l p
  | pool s p keep => exact { pool := fun _ => keep }
  | nv s m keep => exact { nv := keep }
  | positions s x keep => 
    have length := length_eq_of_map_eq keep
    exact { count := length.trans, inside := fun h i hi => length ▸ h i hi, rested := rested_of_map_ramp keep }
  | tiles s x keep => exact { tiles := fun h => by rw [keep]; exact h }
  | dirty s i inside =>
    exact {
      inside := fun h j hj => by
        rcases (mem_insertAsc _ _ _).mp hj with rfl | old
        · exact inside
        · exact h j old
      dirty := rising_insertAsc i _ }
  | settings s g columns rows => 
    have same : State.positionCount { s with settings := g } = s.positionCount := by
      rw [State.positionCount, State.positionCount, columns, rows]
    exact { count := fun h => h.trans same.symm }
  | _ => exact {}

theorem State.TickMove.conserves {s t : State} (h : s.TickMove t) : s.Conserves t := by
  induction h with
  | pulse h => exact h.conserves
  | trans _ _ ih1 ih2 => exact ih1.trans ih2
  | ended s l q => exact conserves_setPort s l _
  | positions s x count rested => 
    exact { count := count.trans, inside := fun h i hi => count ▸ h i hi, rested := rested }
  | tiles s x keep => exact { tiles := keep }
  | dirty s x fewer => exact { inside := fun h i hi => h i (fewer.subset hi), dirty := fun h => h.sublist fewer }
  | global s g rested => exact { global := rested }
  | digest s d sound => exact { digest := fun _ => sound }
  | history s x places => exact { history := places }
  | _ => exact {}

/-! ### What the wire sees -/

/-- What the wire sees of every port is the same. -/
def State.SameWire (s t : State) : Prop := ∀ l, (t.port l).wirePart = (s.port l).wirePart

theorem State.SameWire.trans {s t u : State} (h : s.SameWire t) (k : t.SameWire u) : s.SameWire u :=
  fun l => (k l).trans (h l)

theorem sameWire_setPort (s : State) (l : Link) (p : Port) (same : p.wirePart = (s.port l).wirePart) :
    s.SameWire (s.setPort l p) := by
  intro m
  by_cases h : m = l
  · subst h
    rw [State.port_setPort, same]
  · rw [State.port_setPort_of_ne s l m p h]

theorem State.ChainMove.sameWire {s t : State} (h : s.ChainMove t) : s.SameWire t := by
  intro l
  rw [h.chainFrom]
  cases l <;> rfl

theorem State.PulseMove.sameWire {s t : State} (h : s.PulseMove t) : s.SameWire t := by
  induction h with
  | chain h => exact h.move.sameWire
  | trans _ _ ih1 ih2 => exact ih1.trans ih2
  | _ => exact fun l => by cases l <;> rfl

theorem State.InnerMove.sameWire {s t : State} (h : s.InnerMove t) : s.SameWire t := by
  induction h with
  | pulse h => exact h.sameWire
  | trans _ _ ih1 ih2 => exact ih1.trans ih2
  | port s l p wire => exact sameWire_setPort s l p wire
  | _ => exact fun l => by cases l <;> rfl

theorem State.TickMove.sameWire {s t : State} (h : s.TickMove t) : s.SameWire t := by
  induction h with
  | pulse h => exact h.sameWire
  | trans _ _ ih1 ih2 => exact ih1.trans ih2
  | ended s l q => exact sameWire_setPort s l _ rfl
  | _ => exact fun l => by cases l <;> rfl

/-! ### What is served -/

/-- Nothing that is served moves, and the Change Queue keeps within its places. -/
structure State.Serves (s t : State) : Prop where
  epoch : t.epoch = s.epoch := by rfl
  global : t.global = s.global := by rfl
  lastSkipped : t.lastSkipped = s.lastSkipped := by rfl
  digest : t.digest = s.digest := by rfl
  plane : t.plane = s.plane := by rfl
  history : t.history = s.history := by rfl
  changes : s.changes.length ≤ Config.changePlaces → t.changes.length ≤ Config.changePlaces := by exact id

theorem State.Serves.refl (s : State) : s.Serves s := {}

theorem State.Serves.trans {s t u : State} (h : s.Serves t) (k : t.Serves u) : s.Serves u where
  epoch := k.epoch.trans h.epoch
  global := k.global.trans h.global
  lastSkipped := k.lastSkipped.trans h.lastSkipped
  digest := k.digest.trans h.digest
  plane := k.plane.trans h.plane
  history := k.history.trans h.history
  changes := k.changes ∘ h.changes

theorem serves_setPort (s : State) (l : Link) (p : Port) : s.Serves (s.setPort l p) := by cases l <;> exact {}

theorem length_append_one_le {α : Type} {l : List α} {n : Nat} (room : l.length < n) (a : α) : (l ++ [a]).length ≤ n := by
  rw [List.length_append]
  exact room

theorem State.HangMove.serves {s t : State} (h : s.HangMove t) : s.Serves t := by
  induction h with
  | trans _ _ ih1 ih2 => exact ih1.trans ih2
  | job s l j => exact serves_setPort s l _
  | notice s l n _ _ => exact serves_setPort s l _
  | post s l ramp staged seen room => exact { changes := fun _ => length_append_one_le room _ }
  | _ => exact {}

theorem State.ChainMove.serves {s t : State} (h : s.ChainMove t) : s.Serves t := by
  induction h with
  | hang h => exact h.serves
  | trans _ _ ih1 ih2 => exact ih1.trans ih2
  | _ => exact {}

theorem State.PulseMove.serves {s t : State} (h : s.PulseMove t) : s.Serves t := by
  induction h with
  | chain h => exact h.move.serves
  | trans _ _ ih1 ih2 => exact ih1.trans ih2
  | _ => exact {}

theorem State.InnerMove.serves {s t : State} (h : s.InnerMove t) : s.Serves t := by
  induction h with
  | pulse h => exact h.serves
  | trans _ _ ih1 ih2 => exact ih1.trans ih2
  | port s l p wire => exact serves_setPort s l p
  | positions s x keep => exact { plane := keep }
  | changes s c room => exact { changes := fun _ => length_append_one_le room _ }
  | _ => exact {}

end Sys2Proof.Machine
end

section
/-! PROOFS. What a frame on the wire can do to the state: a call's own effect between two changes of its link's port. -/
namespace Sys2Proof.Machine

/-! ### Ports -/

theorem consistent_of_wirePart {p q : Port} (same : q.wirePart = p.wirePart) (h : p.Consistent) : q.Consistent := by
  obtain ⟨state, slot, ready, word⟩ : q.state = p.state ∧ q.slot = p.slot ∧ q.ready = p.ready ∧
      q.wordBits = p.wordBits := by simpa [Port.wirePart] using same
  constructor
  · rw [state, slot]; exact h.idle
  · rw [state, slot]; exact h.pending
  · rw [ready, slot]; exact h.ready
  · rw [word]; exact h.word

theorem stage_state_ne_idle (p : Port) (st : Status) (ws : List Word) : (p.stage st ws).state ≠ .idle := by
  cases h : p.state <;> simp [Port.stage, PortState.isOpen, h]

/-- A port with a reply staged between two words is consistent, whatever it was before. -/
theorem consistent_stage (p : Port) (st : Status) (ws : List Word) (boundary : p.wordBits = []) :
    (p.stage st ws).Consistent where
  idle := fun h => absurd h (stage_state_ne_idle p st ws)
  pending := fun _ => rfl
  ready := fun _ => rfl
  word := by simp [Port.stage, boundary]

theorem consistent_oversized (p : Port) :
    { p.stage .badLength [] with receiver := .discarding, wordBits := [] }.Consistent :=
  consistent_of_wirePart (p := { p with wordBits := [] }.stage .badLength []) rfl (consistent_stage _ _ _ rfl)

theorem consistent_refuseLink (p : Port) (st : Status) (boundary : p.wordBits = []) : (p.refuseLink st).Consistent := by
  cases st <;> exact consistent_stage _ _ _ boundary

/-! ### A frame -/

/-- What a command but a tick, a reset of the plane or a power event does: inner moves; a change of one port; or inner
moves between two changes of a link's port, the second of which leaves it consistent. -/
inductive State.OuterMove (s : State) : State → Prop
  | inner {t : State} : s.InnerMove t → OuterMove s t
  | port (l : Link) (p : Port) (keep : (s.port l).Consistent → p.Consistent) : OuterMove s (s.setPort l p)
  | call {u : State} (l : Link) (p q : Port) (own : (s.setPort l p).InnerMove u) (sound : q.Consistent) :
      OuterMove s (u.setPort l q)

/-- Whatever `R` says of the state after a port is made consistent and of the state after a judgement over a port between
words, it says of the state after a frame. -/
theorem rel_takeFrame {R : State → Prop} {code : Word} {opensDown : Bool} {judged : State → State} {l : Link} {f : Frame}
    {s : State} (same : R s) (port : ∀ q : Port, q.Consistent → R (s.setPort l q))
    (judgement : ∀ p : Port, p.wordBits = [] → R (judged (s.setPort l p))) :
    R (takeFrame code opensDown judged l f s) := by
  unfold takeFrame
  split
  · exact same
  · split
    · exact port _ (consistent_oversized _)
    · dsimp only
      have replied : ∀ (p : Port) (st : Status), p.wordBits = [] → R ((s.setPort l p).reply l st []) := by
        intro p st boundary
        rw [State.reply, State.port_setPort, State.setPort_setPort]
        exact port _ (consistent_stage _ _ _ boundary)
      split
      · exact replied _ _ rfl
      · split
        · exact judgement _ rfl
        · split
          · exact replied _ _ rfl
          · rw [State.port_setPort, State.setPort_setPort]
            exact port _ (consistent_refuseLink _ _ rfl)
      · exact judgement _ rfl
      · exact judgement _ rfl

/-- What the state after a call satisfies, if the call's own checks let it pass. -/
def Answer.Ends (l : Link) (P : State → Prop) : Answer → Prop
  | .refuse _ _ => True
  | .accept st ws t => P (t.reply l st ws)
  | .staged t => P t

/-- What `R` says of the state after a port is made consistent and after the call's own effect, it says after the
call. -/
theorem rel_takeCall {R : State → Prop} {c : CallRow} {opensDown : Bool} {len : List Word → Bool} {own : State → Answer}
    {l : Link} {f : Frame} {s : State} (same : R s) (port : ∀ q : Port, q.Consistent → R (s.setPort l q))
    (effect : ∀ p : Port, p.wordBits = [] → (own (s.setPort l p)).Ends l R) :
    R (takeCall c opensDown len own l f s) := by
  refine rel_takeFrame same port (fun p boundary => ?_)
  unfold judge
  rw [State.port_setPort, State.setPort_setPort]
  split
  · rw [State.setPort_setPort]
    exact port _ (consistent_refuseLink _ _ boundary)
  · have ends := effect p.countTaken boundary
    cases answer : own (s.setPort l p.countTaken) with
    | refuse st ws =>
      dsimp only
      rw [State.reply, State.port_setPort, State.setPort_setPort]
      exact port _ (consistent_stage _ _ _ boundary)
    | accept st ws t => rw [answer] at ends; exact ends
    | staged t => rw [answer] at ends; exact ends

theorem wordBits_of_wirePart {p q : Port} (same : q.wirePart = p.wirePart) : q.wordBits = p.wordBits :=
  congrArg (fun w => w.2.2.2) same

theorem State.InnerMove.wordBits {s t : State} (h : s.InnerMove t) (l : Link) :
    (t.port l).wordBits = (s.port l).wordBits := wordBits_of_wirePart (h.sameWire l)

/-- A call whose own effect is inner moves. -/
theorem outerMove_takeCall {c : CallRow} {opensDown : Bool} {len : List Word → Bool} {own : State → Answer} {l : Link}
    {f : Frame} {s : State} (leads : ∀ u : State, (own u).Leads u.InnerMove) : s.OuterMove (takeCall c opensDown len own l f s) := by
  refine rel_takeCall (.inner (.refl s)) (fun q sound => .port l q (fun _ => sound)) (fun p boundary => ?_)
  have led := leads (s.setPort l p)
  cases answer : own (s.setPort l p) with
  | refuse st ws => trivial
  | accept st ws u =>
    rw [answer] at led
    refine .call l p _ led (consistent_stage _ _ _ ?_)
    rw [State.InnerMove.wordBits led, State.port_setPort, boundary]
  | staged u => rw [answer] at led; exact led.elim

end Sys2Proof.Machine
end

section
/-! PROOFS. Every command but a tick, a reset of the plane, a served part and a power event makes outer moves. -/
namespace Sys2Proof.Machine

/-! ### The wire -/

/-- A port brought to a word boundary is still consistent. -/
theorem consistent_boundary {p q : Port} (h : p.Consistent) (state : q.state = p.state := by rfl)
    (slot : q.slot = p.slot := by rfl) (ready : q.ready = p.ready := by rfl) (word : q.wordBits = [] := by rfl) :
    q.Consistent where
  idle := by rw [state, slot]; exact h.idle
  pending := by rw [state, slot]; exact h.pending
  ready := by rw [ready, slot]; exact h.ready
  word := by simp [word]

theorem consistent_clockedOut {p : Port} (word : p.wordBits.length < 16) : p.clockedOut.Consistent where
  idle := fun _ => rfl
  pending := fun h => by
    simp only [Port.clockedOut] at h
    split at h
    · cases h
    · next other => exact absurd h other
  ready := fun h => by cases h
  word := word

theorem consistent_wordOut {p : Port} (h : p.Consistent) : p.wordOut.Consistent := by
  unfold Port.wordOut
  split
  · exact h
  · next r held =>
    split
    · exact ⟨fun idle => (by simpa [held] using h.idle idle), fun _ => rfl, fun _ => rfl, h.word⟩
    · exact consistent_clockedOut h.word

theorem consistent_clock (bits : List Bool) {p : Port} (h : p.Consistent) : (p.clock bits).Consistent := by
  induction bits generalizing p with
  | nil => exact h
  | cons b bits ih =>
    unfold Port.clock
    split
    · next short =>
      refine ih ⟨h.idle, h.pending, h.ready, ?_⟩
      simp only [List.length_append, List.length_singleton]
      omega
    · dsimp only
      split
      · exact consistent_boundary h
      · exact ih (consistent_wordOut (consistent_boundary h))

theorem outerMove_idleGap {l : Link} {received : List Word} {s t : State}
    (h : exec (.idleGap l received) s = .next t) : s.OuterMove t := by
  cases h
  split
  · exact .inner (.refl s)
  · dsimp only
    split
    · exact .port l _ consistent_boundary
    · exact .port l _ consistent_boundary
    · split
      · rw [State.port_setPort, State.setPort_setPort]
        exact .port l _ consistent_boundary
      · rw [oversize, State.port_setPort, State.setPort_setPort]
        exact .port l _ (fun _ => consistent_boundary (consistent_oversized _))

theorem outerMove_operandCountOversize {l : Link} {code count : Word} {s t : State}
    (h : exec (.operandCountOversize l code count) s = .next t) : s.OuterMove t := by
  cases h
  split
  · exact .inner (.refl s)
  · exact .port l _ (fun _ => consistent_oversized _)

theorem outerMove_replyClockedOut {l : Link} {s t : State} (h : exec (.replyClockedOut l) s = .next t) :
    s.OuterMove t := by
  cases h
  split
  · exact .inner (.refl s)
  · split
    · exact .inner (.refl s)
    · exact .port l _ (fun h => consistent_clockedOut h.word)

theorem outerMove_readyFalls {l : Link} {bits : List Bool} {s t : State} (h : exec (.readyFalls l bits) s = .next t) :
    s.OuterMove t := by
  cases h
  split
  · exact .inner (.refl s)
  · exact .port l _ (fun h => consistent_clock bits ⟨h.idle, h.pending, (by simp), h.word⟩)

theorem outerMove_unknownCallFrame {l : Link} {code : Word} {f : Frame} {s t : State}
    (h : exec (.unknownCallFrame l code f) s = .next t) : s.OuterMove t := by
  cases h
  split
  · exact .inner (.refl s)
  · refine rel_takeFrame (.inner (.refl s)) (fun q sound => .port l q (fun _ => sound)) (fun p boundary => ?_)
    rw [judgeUnknown, State.port_setPort, State.setPort_setPort]
    exact .port l _ (fun _ => consistent_refuseLink _ _ boundary)

/-! ### TERMS and LINK RESET -/

theorem outerMove_terms {l : Link} {f : Frame} {s t : State} (h : exec (.terms l f) s = .next t) : s.OuterMove t := by
  cases h
  refine rel_takeCall (.inner (.refl s)) (fun q sound => .port l q (fun _ => sound)) (fun p boundary => ?_)
  unfold ownTerms
  split
  · trivial
  · simp only [Answer.Ends, State.reply, State.port_setPort, State.setPort_setPort]
    exact .port l _ (fun _ => consistent_stage _ _ _ boundary)

theorem innerMove_endJobAtReset (s : State) (l : Link) : s.InnerMove (s.endJobAtReset l) := by
  unfold State.endJobAtReset
  split
  · exact .port s l _ rfl
  · split
    · exact .port s l _ rfl
    · exact (innerMove_abandonJob s l).trans (.port _ l _ rfl)

theorem consistent_reset (p : Port) : p.reset.Consistent :=
  ⟨fun h => (by cases h), fun h => (by cases h), fun _ => rfl, (by simp [Port.reset])⟩

theorem outerMove_linkReset {l : Link} {f : Frame} {s t : State} (h : exec (.linkReset l f) s = .next t) :
    s.OuterMove t := by
  cases h
  refine rel_takeCall (.inner (.refl s)) (fun q sound => .port l q (fun _ => sound)) (fun p _ => ?_)
  exact .call l p _ (innerMove_endJobAtReset _ l) (consistent_reset _)

/-! ### All of them -/

/-- The commands that may touch more than outer moves do: power, the scan, the ticks, the resets of the plane, and
FETCH DIGEST. -/
def isOuter : Instr → Bool
  | .powerUp => false
  | .powerLoss => false
  | .startUpScanEnd _ _ _ _ => false
  | .frameTick _ => false
  | .filterClockSample _ _ => false
  | .wallReset _ _ => false
  | .setGeometry _ _ => false
  | .fetchDigest _ _ => false
  | _ => true

theorem outerMove_of_exec (c : Instr) {s t : State} (outer : isOuter c = true) (h : exec c s = .next t) :
    s.OuterMove t := by
  cases c with
  | powerUp => cases outer
  | powerLoss => cases outer
  | startUpScanEnd sync badCells badEntries badSettings => cases outer
  | frameTick first => cases outer
  | filterClockSample level first => cases outer
  | wallReset l f => cases outer
  | setGeometry l f => cases outer
  | fetchDigest l f => cases outer
  | idleGap l received => exact outerMove_idleGap h
  | operandCountOversize l code count => exact outerMove_operandCountOversize h
  | replyClockedOut l => exact outerMove_replyClockedOut h
  | readyFalls l bits => exact outerMove_readyFalls h
  | unknownCallFrame l code f => exact outerMove_unknownCallFrame h
  | terms l f => exact outerMove_terms h
  | linkReset l f => exact outerMove_linkReset h
  | senseLink l f => cases h; exact outerMove_takeCall (leads_senseLink l)
  | readNotices l f => cases h; exact outerMove_takeCall (leads_readNotices l)
  | clearNotices l f => cases h; exact outerMove_takeCall (leads_clearNotices l _)
  | setNoticeMask l f => cases h; exact outerMove_takeCall (leads_setNoticeMask l _)
  | senseJob l f => cases h; exact outerMove_takeCall (leads_senseJob l)
  | abandonJob l f => cases h; exact outerMove_takeCall (leads_abandonJob l)
  | senseWall l f => cases h; exact outerMove_takeCall leads_senseWall
  | fetchSpan l f => cases h; exact outerMove_takeCall (leads_fetchSpan _)
  | fetchGlobal l f => cases h; exact outerMove_takeCall leads_fetchGlobal
  | setGlobal l f => cases h; exact outerMove_takeCall (leads_setGlobal _)
  | override l f => cases h; exact outerMove_takeCall (leads_override _)
  | take l f => cases h; exact outerMove_takeCall (leads_take _)
  | setFrameEdge l f => cases h; exact outerMove_takeCall (leads_setFrameEdge _)
  | revert l f => cases h; exact outerMove_takeCall (leads_revert _)
  | holdDrift l f => cases h; exact outerMove_takeCall (leads_hold true)
  | releaseDrift l f => cases h; exact outerMove_takeCall (leads_hold false)
  | setDriftParameters l f => cases h; exact outerMove_takeCall (leads_setDriftParameters _)
  | setCadence l f => cases h; exact outerMove_takeCall (leads_setCadence _)
  | cadenceRun l f => cases h; exact outerMove_takeCall leads_cadenceRun
  | cadenceStop l f => cases h; exact outerMove_takeCall leads_cadenceStop
  | cadenceRestart l f => cases h; exact outerMove_takeCall leads_cadenceRestart
  | senseCadence l f => cases h; exact outerMove_takeCall leads_senseCadence
  | showLock l f => cases h; exact outerMove_takeCall (leads_showLock true)
  | showUnlock l f => cases h; exact outerMove_takeCall (leads_showLock false)
  | selectTile l f => cases h; exact outerMove_takeCall (leads_selectTile l _)
  | readRecord l f => cases h; exact outerMove_takeCall (leads_readRecord l)
  | listRecords l f => cases h; exact outerMove_takeCall (leads_listRecords _)
  | setWatermark l f => cases h; exact outerMove_takeCall (leads_setWatermark _)
  | writeRecord l f => cases h; exact outerMove_takeCall (leads_writeRecord l _)
  | eraseRecord l f => cases h; exact outerMove_takeCall (leads_eraseRecord l _)
  | auditPool l f => cases h; exact outerMove_takeCall (leads_auditPool l)
  | setBatchDefault l f => cases h; exact outerMove_takeCall (leads_setBatchDefault _)
  | setWhitePoint l f => cases h; exact outerMove_takeCall (leads_setWhitePoint _)
  | setRoute l f => cases h; exact outerMove_takeCall (leads_setRoute _)
  | readTileStatus l f => cases h; exact outerMove_takeCall (leads_readTileStatus _)
  | hang l f => cases h; exact outerMove_takeCall (leads_hang l _)
  | saveSettings l f => cases h; exact outerMove_takeCall (leads_saveSettings l)
  | sweepNow l f => cases h; exact outerMove_takeCall (leads_sweepNow _)
  | senseBranches l f => cases h; exact outerMove_takeCall (leads_senseBranches _)
  | clearBranch l f => cases h; exact outerMove_takeCall (leads_clearBranch _)
  | listPending l f => cases h; exact outerMove_takeCall (leads_listPending _)
  | nvRequestBegin => exact .inner (innerMove_nvRequestBegin h)
  | indexSwapBegin => exact .inner (innerMove_indexSwapBegin h)
  | eraseWriteBegin => exact .inner (innerMove_eraseWriteBegin h)
  | settingsWriteBegin => exact .inner (innerMove_settingsWriteBegin h)
  | cellWriteComplete good => exact .inner (innerMove_cellWriteComplete h)
  | retiredWriteComplete => exact .inner (innerMove_retiredWriteComplete h)
  | chainEntryWriteComplete => exact .inner (innerMove_chainEntryWriteComplete h)
  | indexSwapComplete => exact .inner (innerMove_indexSwapComplete h)
  | eraseWriteComplete => exact .inner (innerMove_eraseWriteComplete h)
  | auditCheckReadComplete good => exact .inner (innerMove_auditCheckReadComplete h)
  | auditStatusWriteComplete => exact .inner (innerMove_auditStatusWriteComplete h)
  | settingsCellWriteComplete good => exact .inner (innerMove_settingsCellWriteComplete h)
  | transmitterTake => exact .inner (innerMove_transmitterTake h)
  | owedGatherQueue => exact .inner (innerMove_owedGatherQueue h)
  | spaceWaiterQueue => exact .inner (innerMove_spaceWaiterQueue h)
  | echoArrive branch header => exact .inner (innerMove_echoArrive h)
  | wireFault => exact .inner (innerMove_wireFault h)
  | sweepStartPoint => exact .inner (innerMove_sweepStartPoint h)
  | doneReport branch report => exact .inner (innerMove_doneReport h)
  | sweepTimeout branch => exact .inner (innerMove_sweepTimeout h)
  | tileAnswer branch words => exact .inner (innerMove_tileAnswer h)
  | endMarker branch => exact .inner (innerMove_endMarker h)
  | answerStreamBreak => exact .inner (innerMove_answerStreamBreak h)
  | waitingHangToldIdle l branch => exact .inner (innerMove_waitingHangToldIdle h)
  | placePost l => exact .inner (innerMove_placePost h)
  | cadenceCountPulse => exact .inner (innerMove_cadenceCountPulse h)
  | cadenceExpiry => exact .inner (innerMove_cadenceExpiry h)
  | frameLost => exact .inner (innerMove_frameLost h)
  | sourcePulse => exact .inner (innerMove_sourcePulseEvent h)

end Sys2Proof.Machine
end

section
/-! PROOFS. The invariants of the state kept by every step (O56 to O59), what is served between ticks (O55), and that
every step answers a next state (O2). -/
namespace Sys2Proof.Machine

/-! ### The start-up scan -/

theorem tags_foldl_scanEntry (nv : NvMemory) (bad retired : List Nat) (es : List NvEntry) (a : Scan) :
    (es.foldl (scanEntry nv bad retired) a).index.map IndexEntry.tag = a.index.map IndexEntry.tag ++ es.map NvEntry.tag := by
  induction es generalizing a with
  | nil => simp
  | cons e es ih => simp [ih, scanEntry]

/-- The volatile image loaded with the cells of one walk. -/
theorem rising_foldl_loadCell (cells : List (Nat × Group)) (walk : List Nat) (image : List (Nat × Group))
    (h : rising (image.map Prod.fst)) :
    rising ((walk.foldl (fun m c => match mapGet c cells with
      | none => m
      | some g => mapSet c g m) image).map Prod.fst) := by
  induction walk generalizing image with
  | nil => exact h
  | cons c walk ih =>
    refine ih _ ?_
    dsimp only
    split
    · exact h
    · exact rising_mapSet _ _ _ h

theorem rising_image_scanEntry (nv : NvMemory) (bad retired : List Nat) (a : Scan) (e : NvEntry)
    (h : rising (a.image.map Prod.fst)) : rising ((scanEntry nv bad retired a e).image.map Prod.fst) := by
  unfold scanEntry
  dsimp only
  split
  · exact rising_foldl_loadCell _ _ _ h
  · exact h

theorem rising_image_foldl_scanEntry (nv : NvMemory) (bad retired : List Nat) (es : List NvEntry) (a : Scan)
    (h : rising (a.image.map Prod.fst)) : rising ((es.foldl (scanEntry nv bad retired) a).image.map Prod.fst) := by
  induction es generalizing a with
  | nil => exact h
  | cons e es ih => exact ih _ (rising_image_scanEntry nv bad retired a e h)

theorem rising_filter_range (n : Nat) (p : Nat → Bool) : rising ((List.range n).filter p) :=
  rising_filter p _ List.pairwise_lt_range

theorem rested_atRest (n : Nat) : ∀ p ∈ List.replicate n Position.atRest, p.Rested := by
  intro p hp
  rw [List.eq_of_mem_replicate hp]
  exact fun _ => rfl

theorem conserves_scanEnd (s : State) (sync : Level) (badCells badEntries badSettings : List Nat) :
    s.Conserves (s.scanEnd sync badCells badEntries badSettings) := by
  unfold State.scanEnd
  dsimp only
  refine State.Conserves.trans ?_ (hangMove_evalLow _).conserves
  have flagged (u : State) (b : Bool) (n : Notice) : u.Conserves (if b then u.raise .sl n else u) := by
    split
    · exact (innerMove_raise u _ _).conserves
    · exact .refl u
  have flaggedAll (u : State) (b : Bool) (n : Notice) : u.Conserves (if b then u.raiseAll n else u) := by
    split
    · exact (innerMove_raiseAll u _).conserves
    · exact .refl u
  refine State.Conserves.trans (State.Conserves.trans ?_ (flagged _ _ _)) (flaggedAll _ _ _)
  exact {
    count := fun _ => List.length_replicate
    rested := fun _ => rested_atRest _
    global := fun _ _ => rfl
    inside := fun _ _ h => absurd h List.not_mem_nil
    history := fun _ => Nat.zero_le _
    pool := fun stored _ => {
      free := by dsimp only; exact rising_filter_range _ _
      retired := rising_filter_keys _ _ stored.chain
      chain := rising_filter_keys _ _ stored.chain
      image := rising_image_foldl_scanEntry _ _ _ _ _ .nil
      index := by
        rw [tags_foldl_scanEntry]
        exact rising_nvTags_filter _ _ stored.index }
    dirty := fun _ => .nil }

/-! ### Power, and the resets of the plane -/

theorem rising_tornNv (s : State) (h : s.nv.Rising) : s.tornNv.Rising := by
  unfold State.tornNv
  split
  · exact h
  · split
    · exact ⟨rising_mapErase _ _ h.cells, h.chain, h.index⟩
    · exact ⟨h.cells, h.chain, h.index⟩
    · exact h
    · exact h
    · exact h
    · exact h
    · exact h
    · exact h

theorem sound_reset : Digest.reset.Sound :=
  ⟨by decide, fun _ => rfl, .nil, by decide⟩

theorem conserves_powerUp (s : State) (power : Power) :
    s.Conserves { State.powerUp s.tornNv s.pending with power := power } where
  count _ := List.length_replicate
  rested _ := rested_atRest 512
  global _ _ := rfl
  inside _ _ h := absurd h List.not_mem_nil
  digest _ := sound_reset
  orders _ := Nat.zero_le _
  history _ := Nat.zero_le _
  postWaiters _ := .nil
  nv h := rising_tornNv s h
  pool _ _ := ⟨.nil, .nil, .nil, .nil, .nil⟩
  tiles _ := .nil
  dirty _ := .nil
  awaiting _ := .nil

theorem conserves_resetPlane (s : State) : s.Conserves s.resetPlane := by
  refine State.Conserves.trans ?_ (innerMove_raise _ _ _).conserves
  exact {
    count := fun _ => List.length_replicate
    rested := fun _ => rested_atRest _
    global := fun _ _ => rfl
    inside := fun _ _ h => absurd h List.not_mem_nil
    digest := fun _ => sound_reset
    history := fun _ => Nat.zero_le _
    postWaiters := fun _ => .nil
    tiles := fun _ => .nil
    dirty := fun _ => .nil }

theorem innerMove_wallResetHang (s0 : State) (a : State × Nat) (l : Link) : a.1.InnerMove (wallResetHang s0 a l).1 := by
  unfold wallResetHang
  split
  · exact .refl _
  · split
    · dsimp only
      split
      · exact innerMove_abandonJob _ l
      · exact (innerMove_abandonJob _ l).trans (.trans (.port _ l { (a.1.abandonJob l).port l with
          record := Job.abandonedRecord _ } rfl) (innerMove_raise _ l _))
    · exact .refl _
    · exact .refl _
    · exact .refl _
    · exact .refl _

theorem innerMove_wallResetHangs (s0 s : State) :
    s.InnerMove ([Link.dl, Link.sl].foldl (wallResetHang s0) (s, 0)).1 :=
  (innerMove_wallResetHang s0 (s, 0) .dl).trans (innerMove_wallResetHang s0 _ .sl)

theorem conserves_newGrid (s : State) (columns rows : Nat) (routes : List (Option Route)) :
    s.Conserves ({ s with settings := { s.settings with
      columns := columns, rows := rows, routes := routes } }.planeAtRest (columns * rows)) where
  count _ := List.length_replicate
  rested _ := rested_atRest _
  inside _ _ h := absurd h List.not_mem_nil
  history _ := Nat.zero_le _
  dirty _ := .nil

theorem conserves_fetched (s : State) (p : Nat) :
    s.Conserves { s with digest := { s.digest with fetched := updateAt (fun _ => true) p s.digest.fetched } } where
  digest h := ⟨h.entries, h.overflow, h.ascending, by simpa using h.parts⟩

/-! ### The effects of WALL RESET, SET GEOMETRY and FETCH DIGEST -/

theorem leads_wallReset (s : State) : (ownWallReset s).Leads (fun t => s.Conserves t ∧ s.SameWire t) := by
  have abandoned := innerMove_wallResetHangs s s
  exact ⟨abandoned.conserves.trans (conserves_resetPlane _),
    (abandoned.sameWire.trans (fun l => by cases l <;> rfl))⟩

theorem leads_setGeometry (ws : List Word) (s : State) :
    (ownSetGeometry ws s).Leads (fun t => s.Conserves t ∧ s.SameWire t) := by
  unfold ownSetGeometry
  split
  · split
    · trivial
    · split
      · trivial
      · exact ⟨conserves_newGrid s _ _ _, fun l => by cases l <;> rfl⟩
  · trivial

theorem leads_fetchDigest (ws : List Word) (s : State) :
    (ownFetchDigest ws s).Leads (fun t => s.Conserves t ∧ s.SameWire t) := by
  unfold ownFetchDigest
  split
  · split
    · trivial
    · split
      · trivial
      · split
        · trivial
        · exact ⟨conserves_fetched s _, fun l => by cases l <;> rfl⟩
  · trivial

/-! ### Calls -/

theorem conserves_takeCall {c : CallRow} {opensDown : Bool} {len : List Word → Bool} {own : State → Answer} {l : Link}
    {f : Frame} {s : State} (leads : ∀ u : State, (own u).Leads (fun t => u.Conserves t ∧ u.SameWire t)) :
    s.Conserves (takeCall c opensDown len own l f s) := by
  refine rel_takeCall (.refl s) (fun q _ => conserves_setPort s l q) (fun p _ => ?_)
  have led := leads (s.setPort l p)
  cases answer : own (s.setPort l p) with
  | refuse st ws => trivial
  | accept st ws u =>
    rw [answer] at led
    exact ((conserves_setPort s l p).trans led.1).trans (conserves_setPort u l _)
  | staged u => rw [answer] at led; exact led.elim

theorem port_setPort_consistent {s : State} (l : Link) (p : Port) (others : ∀ m, m ≠ l → (s.port m).Consistent)
    (sound : p.Consistent) : (s.setPort l p).PortsConsistent := by
  intro m
  by_cases h : m = l
  · rw [h, State.port_setPort]
    exact sound
  · rw [State.port_setPort_of_ne s l m p h]
    exact others m h

theorem State.SameWire.others {s t : State} {l : Link} {p : Port} (same : (s.setPort l p).SameWire t)
    (h : s.PortsConsistent) (m : Link) (other : m ≠ l) : (t.port m).Consistent := by
  refine consistent_of_wirePart (same m) ?_
  rw [State.port_setPort_of_ne s l m p other]
  exact h m

theorem portsConsistent_takeCall {c : CallRow} {opensDown : Bool} {len : List Word → Bool} {own : State → Answer}
    {l : Link} {f : Frame} {s : State} (leads : ∀ u : State, (own u).Leads (fun t => u.Conserves t ∧ u.SameWire t))
    (h : s.PortsConsistent) : (takeCall c opensDown len own l f s).PortsConsistent := by
  refine rel_takeCall h (fun q sound => port_setPort_consistent l q (fun m _ => h m) sound) (fun p boundary => ?_)
  have led := leads (s.setPort l p)
  cases answer : own (s.setPort l p) with
  | refuse st ws => trivial
  | accept st ws u =>
    rw [answer] at led
    refine port_setPort_consistent l _ (led.2.others h) (consistent_stage _ _ _ ?_)
    rw [wordBits_of_wirePart (led.2 l), State.port_setPort, boundary]
  | staged u => rw [answer] at led; exact led.elim

/-! ### Every command -/

theorem State.OuterMove.conserves {s t : State} (h : s.OuterMove t) : s.Conserves t := by
  cases h with
  | inner h => exact h.conserves
  | port l p keep => exact conserves_setPort s l p
  | @call u l p q own sound => exact ((conserves_setPort s l p).trans own.conserves).trans (conserves_setPort u l q)

theorem State.OuterMove.portsConsistent {s t : State} (h : s.OuterMove t) (sound : s.PortsConsistent) :
    t.PortsConsistent := by
  cases h with
  | inner h => exact fun l => consistent_of_wirePart (h.sameWire l) (sound l)
  | port l p keep => exact port_setPort_consistent l p (fun m _ => sound m) (keep (sound l))
  | call l p q own consistent => exact port_setPort_consistent l q (own.sameWire.others sound) consistent

/-- A command makes outer moves, or is one of the eight others. -/
theorem isOuter_cases (c : Instr) : isOuter c = true ∨ c = .powerUp ∨ c = .powerLoss ∨
    (∃ v x y z, c = .startUpScanEnd v x y z) ∨ (∃ b, c = .frameTick b) ∨ (∃ v b, c = .filterClockSample v b) ∨
    (∃ l f, c = .wallReset l f) ∨ (∃ l f, c = .setGeometry l f) ∨ ∃ l f, c = .fetchDigest l f := by
  cases c <;> simp [isOuter]

theorem conserves_of_exec (c : Instr) {s t : State} (h : exec c s = .next t) : s.Conserves t := by
  rcases isOuter_cases c with outer | rfl | rfl | ⟨v, x, y, z, rfl⟩ | ⟨b, rfl⟩ | ⟨v, b, rfl⟩ | ⟨l, f, rfl⟩ | ⟨l, f, rfl⟩ |
    ⟨l, f, rfl⟩
  · exact (outerMove_of_exec c outer h).conserves
  · cases h
    exact conserves_powerUp s .starting
  · cases h
    split
    · exact .refl s
    · exact conserves_powerUp s .off
    · exact conserves_powerUp s .off
  · cases h
    split
    · exact .refl s
    · exact conserves_scanEnd s _ _ _ _
    · exact .refl s
  · exact (tickMove_frameTick h).conserves
  · exact (tickMove_filterClockSample h).conserves
  · cases h
    exact conserves_takeCall leads_wallReset
  · cases h
    exact conserves_takeCall (leads_setGeometry _)
  · cases h
    exact conserves_takeCall (leads_fetchDigest _)

theorem portsConsistent_powerUp (nv : NvMemory) (pending : List Instr) (power : Power) :
    State.PortsConsistent { State.powerUp nv pending with power := power } := by
  intro l
  cases l <;> exact ⟨fun h => (by cases h), fun h => (by cases h), fun h => (by cases h), Nat.zero_lt_succ 15⟩

theorem consistent_leaveScan {p : Port} (h : p.Consistent) : p.leaveScan.Consistent :=
  ⟨fun h => (by cases h), fun h => (by cases h), h.ready, Nat.zero_lt_succ 15⟩

theorem portsConsistent_scanEnd (s : State) (sync : Level) (badCells badEntries badSettings : List Nat)
    (h : s.PortsConsistent) : (s.scanEnd sync badCells badEntries badSettings).PortsConsistent := by
  have left : ∀ m, (s.scanEnd sync badCells badEntries badSettings |>.port m).wirePart =
      ((s.port m).leaveScan).wirePart := by
    intro m
    unfold State.scanEnd
    dsimp only
    rw [(hangMove_evalLow _).inner.sameWire m]
    split <;> split <;> cases m <;> rfl
  exact fun m => consistent_of_wirePart (left m) (consistent_leaveScan (h m))

theorem portsConsistent_of_exec (c : Instr) {s t : State} (sound : s.PortsConsistent) (h : exec c s = .next t) :
    t.PortsConsistent := by
  rcases isOuter_cases c with outer | rfl | rfl | ⟨v, x, y, z, rfl⟩ | ⟨b, rfl⟩ | ⟨v, b, rfl⟩ | ⟨l, f, rfl⟩ | ⟨l, f, rfl⟩ |
    ⟨l, f, rfl⟩
  · exact (outerMove_of_exec c outer h).portsConsistent sound
  · cases h
    exact portsConsistent_powerUp _ _ .starting
  · cases h
    split
    · exact sound
    · exact portsConsistent_powerUp _ _ .off
    · exact portsConsistent_powerUp _ _ .off
  · cases h
    split
    · exact sound
    · exact portsConsistent_scanEnd s _ _ _ _ sound
    · exact sound
  · exact fun l => consistent_of_wirePart ((tickMove_frameTick h).sameWire l) (sound l)
  · exact fun l => consistent_of_wirePart ((tickMove_filterClockSample h).sameWire l) (sound l)
  · cases h
    exact portsConsistent_takeCall leads_wallReset sound
  · cases h
    exact portsConsistent_takeCall (leads_setGeometry _) sound
  · cases h
    exact portsConsistent_takeCall (leads_fetchDigest _) sound

end Sys2Proof.Machine
end

section
/-! PROOFS. The obligations on every command and every step: O1, O2, O55 to O60. -/
namespace Sys2Proof.Machine

/-! ### One step -/

/-- Settles O1, by the definition of the step. -/
theorem stepRunsFrontCommand : Obligations.StepRunsFrontCommand := by
  intro c rest s waiting
  rw [step, waiting]

theorem step_of_empty {s : State} (empty : s.pending = []) : step s = .next s := by rw [step, empty]

theorem exec_next (c : Instr) (s : State) : ∃ t, exec c s = .next t := by
  cases c <;> exact ⟨_, rfl⟩

/-- Settles O2: every arm of `exec` answers a next state, and every command conserves what waits. -/
theorem everyStepAnswersNext : Obligations.EveryStepAnswersNext := by
  refine ⟨fun c s => ?_, fun s empty => step_of_empty empty⟩
  obtain ⟨t, done⟩ := exec_next c s
  exact ⟨t, done, (conserves_of_exec c done).pending⟩

/-- A step conserves what its command conserves: the queue's rest is no part of it. -/
theorem step_cases {s t : State} (h : step s = .next t) :
    t = s ∨ ∃ c rest, s.pending = c :: rest ∧ exec c { s with pending := rest } = .next t := by
  cases waiting : s.pending with
  | nil =>
    rw [step_of_empty waiting] at h
    cases h
    exact .inl rfl
  | cons c rest =>
    rw [stepRunsFrontCommand c rest s waiting] at h
    exact .inr ⟨c, rest, rfl, h⟩

/-! ### The invariants -/

/-- Settles O56: every command conserves the two clauses. -/
theorem restMeansAtTarget : Obligations.RestMeansAtTarget := by
  intro s t rest h
  rcases step_cases h with rfl | ⟨c, _, _, done⟩
  · exact rest
  · have kept := conserves_of_exec c done
    exact ⟨kept.rested rest.positions, kept.global rest.global⟩

/-- Settles O57: outside the calls the wire's part of a port moves in `clock` and `clockedOut` alone, and a call ends by
staging its reply. -/
theorem portsStayConsistent : Obligations.PortsStayConsistent := by
  intro s t sound h
  rcases step_cases h with rfl | ⟨c, _, _, done⟩
  · exact sound
  · refine portsConsistent_of_exec c (fun l => ?_) done
    have at_l := sound l
    cases l <;> exact at_l

/-- Settles O59: every command conserves the eleven clauses. -/
theorem tablesStayCanonical : Obligations.TablesStayCanonical := by
  intro s t canonical h
  rcases step_cases h with rfl | ⟨c, _, _, done⟩
  · exact canonical
  · have kept := conserves_of_exec c done
    have stored : s.nv.Rising := ⟨canonical.nvCells, canonical.nvChain, canonical.nvIndex⟩
    have pool := kept.pool stored
      ⟨canonical.free, canonical.retired, canonical.chain, canonical.image, canonical.index⟩
    have nv := kept.nv stored
    exact {
      nvCells := nv.cells, nvChain := nv.chain, nvIndex := nv.index
      free := pool.free, retired := pool.retired, chain := pool.chain, image := pool.image, index := pool.index
      tiles := kept.tiles canonical.tiles, dirty := kept.dirty canonical.dirty
      awaiting := kept.awaiting canonical.awaiting }

/-! ### The Change Queue -/

theorem State.OuterMove.changes {s t : State} (h : s.OuterMove t) (fits : s.changes.length ≤ Config.changePlaces) :
    t.changes.length ≤ Config.changePlaces := by
  cases h with
  | inner h => exact h.serves.changes fits
  | port l p keep => exact (serves_setPort s l p).changes fits
  | call l p q own sound =>
    exact (((serves_setPort s l p).trans own.serves).trans (serves_setPort _ l q)).changes fits

theorem length_changes_post (s : State) (l : Link) : (s.post l).changes.length ≤ s.changes.length + 1 := by
  unfold State.post
  split
  · simp
  · omega

theorem length_changes_posts (ls : List Link) (s : State) :
    (ls.foldl State.post s).changes.length ≤ s.changes.length + ls.length := by
  induction ls generalizing s with
  | nil => exact Nat.le_refl _
  | cons l ls ih =>
    have first := length_changes_post s l
    have rest := ih (s.post l)
    simp only [List.foldl_cons, List.length_cons]
    omega

theorem length_le_three_of_nodup {ls : List Link} (h : ls.Nodup) : ls.length ≤ 3 := by
  have sub : ls ⊆ [.pl, .dl, .sl] := fun l _ => by cases l <;> simp
  exact h.length_le_of_subset sub

/-- Phase 1 leaves at most the posts of the hangs that waited. -/
theorem length_changes_applyQueue (s : State) (waiting : s.postWaiters.Nodup) : s.applyQueue.changes.length ≤ 3 := by
  have applied := (tickMove_foldl State.applyChange tickMove_applyChange s.changes s).conserves
  have posted := length_changes_posts (s.changes.foldl State.applyChange s).postWaiters
    { s.changes.foldl State.applyChange s with changes := [], postWaiters := [] }
  have few := length_le_three_of_nodup (applied.postWaiters waiting)
  simp only [List.length_nil] at posted
  exact Nat.le_trans posted (by omega)

theorem compute_changes (s : State) (ramp i : Nat) : (s.compute ramp i).changes = s.changes := by
  cases at_i : s.positions[i]? with
  | none => rw [compute_outside s ramp i at_i]
  | some p => rw [compute_eq s ramp i p at_i]

theorem foldl_compute_changes (ramp : State → Nat) (is : List Nat) (s : State) :
    (is.foldl (fun acc i => State.compute acc (ramp acc) i) s).changes = s.changes := by
  induction is generalizing s with
  | nil => rfl
  | cons i is ih => exact (ih _).trans (compute_changes s _ i)

theorem takeDirty_changes (s : State) : s.takeDirty.changes = s.changes := by
  unfold State.takeDirty
  split
  · rfl
  · exact foldl_compute_changes (fun acc => acc.settings.driftRamp) _ s

theorem buildDigest_changes (s : State) (before : List Position) (globalBefore : GlobalVector) :
    (s.buildDigest before globalBefore).changes = s.changes := by
  unfold State.buildDigest
  dsimp only
  split
  · rfl
  · rw [State.raise_changes]
    dsimp only
    split
    · rfl
    · exact State.raise_changes _ _ _

/-- After a commit the Change Queue is what phase 1 left of it. -/
theorem commit_changes (s : State) : s.commit.changes = s.applyQueue.changes :=
  (buildDigest_changes _ _ _).trans (takeDirty_changes s.applyQueue)

theorem length_changes_commit (s : State) (waiting : s.postWaiters.Nodup) :
    s.commit.changes.length ≤ Config.changePlaces := by
  rw [commit_changes]
  exact Nat.le_trans (length_changes_applyQueue s waiting) (by decide)

theorem length_changes_tick (s : State) (first : Bool) (waiting : s.postWaiters.Nodup) :
    (s.tick first).changes.length ≤ Config.changePlaces := by
  unfold State.tick
  dsimp only
  split
  · exact length_changes_commit _ ((pulseMove_framePulse _).conserves.postWaiters waiting)
  · exact (pulseMove_framePulse _).serves.changes (length_changes_commit _ waiting)

theorem length_changes_takeCall {c : CallRow} {opensDown : Bool} {len : List Word → Bool} {own : State → Answer}
    {l : Link} {f : Frame} {s : State} (leads : ∀ u : State, (own u).Leads (fun t => t.changes.length ≤ u.changes.length))
    (fits : s.changes.length ≤ Config.changePlaces) :
    (takeCall c opensDown len own l f s).changes.length ≤ Config.changePlaces := by
  refine rel_takeCall (R := fun t => t.changes.length ≤ Config.changePlaces) fits
    (fun q _ => by rw [State.setPort_changes]; exact fits) (fun p _ => ?_)
  have led := leads (s.setPort l p)
  cases answer : own (s.setPort l p) with
  | refuse st ws => trivial
  | accept st ws u =>
    rw [answer, Answer.Leads, State.setPort_changes] at led
    rw [Answer.Ends, State.reply_changes]
    exact Nat.le_trans led fits
  | staged u => rw [answer] at led; exact led.elim

theorem wallReset_changes (s : State) : (ownWallReset s).Leads (fun t => t.changes.length ≤ s.changes.length) := by
  simp [ownWallReset, Answer.Leads, State.resetPlane]

theorem setGeometry_changes (ws : List Word) (s : State) :
    (ownSetGeometry ws s).Leads (fun t => t.changes.length ≤ s.changes.length) := by
  unfold ownSetGeometry
  split
  · split
    · trivial
    · split
      · trivial
      · exact Nat.le_refl _
  · trivial

theorem fetchDigest_changes (ws : List Word) (s : State) :
    (ownFetchDigest ws s).Leads (fun t => t.changes.length ≤ s.changes.length) := by
  unfold ownFetchDigest
  split
  · split
    · trivial
    · split
      · trivial
      · split
        · trivial
        · exact Nat.le_refl _
  · trivial

theorem evalLow_changes (s : State) : s.evalLow.changes = s.changes := by
  unfold State.evalLow
  dsimp only
  split
  · simp [State.raiseDlSl]
  · rfl

theorem scanEnd_changes (s : State) (sync : Level) (badCells badEntries badSettings : List Nat) :
    (s.scanEnd sync badCells badEntries badSettings).changes = s.changes := by
  unfold State.scanEnd
  dsimp only
  rw [evalLow_changes]
  split <;> split <;> simp [State.raiseAll, State.raiseDlSl]

theorem sample_changes (s : State) (level : Level) (first : Bool) (waiting : s.postWaiters.Nodup)
    (fits : s.changes.length ≤ Config.changePlaces) : (s.sample level first).changes.length ≤ Config.changePlaces := by
  unfold State.sample
  split
  · exact fits
  · split
    · exact fits
    · dsimp only
      split
      · exact length_changes_tick _ first waiting
      · exact fits

theorem length_changes_of_exec (c : Instr) {s t : State} (waiting : s.postWaiters.Nodup)
    (fits : s.changes.length ≤ Config.changePlaces) (h : exec c s = .next t) :
    t.changes.length ≤ Config.changePlaces := by
  rcases isOuter_cases c with outer | rfl | rfl | ⟨v, x, y, z, rfl⟩ | ⟨b, rfl⟩ | ⟨v, b, rfl⟩ | ⟨l, f, rfl⟩ | ⟨l, f, rfl⟩ |
    ⟨l, f, rfl⟩
  · exact (outerMove_of_exec c outer h).changes fits
  · cases h
    exact Nat.zero_le _
  · cases h
    split
    · exact fits
    · exact Nat.zero_le _
    · exact Nat.zero_le _
  · cases h
    split
    · exact fits
    · rw [scanEnd_changes]; exact fits
    · exact fits
  · cases h
    split
    · exact length_changes_tick _ b waiting
    · exact fits
  · cases h
    split
    · exact sample_changes s v b waiting fits
    · exact fits
  · cases h
    exact length_changes_takeCall wallReset_changes fits
  · cases h
    exact length_changes_takeCall (setGeometry_changes _) fits
  · cases h
    exact length_changes_takeCall (fetchDigest_changes _) fits

/-- Settles O58: every command conserves the bounds; what the Change Queue holds is bounded by the room each entry
needs, and after a tick by the hangs that waited to post. -/
theorem queuesGridAndDigestKeepTheirBounds : Obligations.QueuesGridAndDigestKeepTheirBounds := by
  refine ⟨fun s t bounded h => ?_, fun s t gridded h => ?_, fun s t sound h => ?_⟩
  · rcases step_cases h with rfl | ⟨c, rest, _, done⟩
    · exact bounded
    · have kept := conserves_of_exec c done
      exact ⟨kept.orders bounded.orders,
        length_changes_of_exec c (s := { s with pending := rest }) bounded.postWaiters bounded.changes done,
        kept.history bounded.history, kept.postWaiters bounded.postWaiters⟩
  · rcases step_cases h with rfl | ⟨c, _, _, done⟩
    · exact gridded
    · have kept := conserves_of_exec c done
      exact ⟨kept.count gridded.count, kept.inside gridded.dirty⟩
  · rcases step_cases h with rfl | ⟨c, _, _, done⟩
    · exact sound
    · have kept := (conserves_of_exec c done).digest ⟨sound.entries, sound.overflow, sound.ascending, sound.parts⟩
      exact ⟨kept.entries, kept.overflow, kept.ascending, kept.parts⟩

/-- Settles O60. -/
theorem resetMeetsTheInvariants : Obligations.ResetMeetsTheInvariants where
  left := ⟨Nat.zero_le _, Nat.zero_le _, Nat.zero_le _, .nil⟩
  right.left := ⟨rested_atRest 512, fun _ => rfl⟩
  right.right.left := portsConsistent_powerUp .factory [] .starting
  right.right.right.left := ⟨List.length_replicate, fun _ h => absurd h List.not_mem_nil⟩
  right.right.right.right.left := ⟨.nil, .nil, .nil, .nil, .nil, .nil, .nil, .nil, .nil, .nil, .nil⟩
  right.right.right.right.right := ⟨sound_reset.entries, sound_reset.overflow, sound_reset.ascending, sound_reset.parts⟩

/-! ### What is served between ticks -/

theorem State.OuterMove.serves {s t : State} (h : s.OuterMove t) : s.Serves t := by
  cases h with
  | inner h => exact h.serves
  | port l p keep => exact serves_setPort s l p
  | call l p q own sound => exact ((serves_setPort s l p).trans own.serves).trans (serves_setPort _ l q)

/-- What is served but the plane and the History, which a new grid resets. -/
structure State.ServesBeforePlane (s t : State) : Prop where
  epoch : t.epoch = s.epoch
  global : t.global = s.global
  lastSkipped : t.lastSkipped = s.lastSkipped
  digest : t.digest = s.digest

/-- What is served but the fetched marks of the digest. -/
structure State.ServesUnmarked (s t : State) : Prop where
  epoch : t.epoch = s.epoch
  global : t.global = s.global
  lastSkipped : t.lastSkipped = s.lastSkipped
  digest : t.digest = { s.digest with fetched := t.digest.fetched }
  plane : t.plane = s.plane
  history : t.history = s.history

theorem servesBeforePlane_setGeometry {l : Link} {f : Frame} {s t : State} (h : exec (.setGeometry l f) s = .next t) :
    s.ServesBeforePlane t := by
  cases h
  have port (u : State) (q : Port) (h : s.ServesBeforePlane u) : s.ServesBeforePlane (u.setPort l q) := by
    cases l <;> exact ⟨h.epoch, h.global, h.lastSkipped, h.digest⟩
  have same : s.ServesBeforePlane s := ⟨rfl, rfl, rfl, rfl⟩
  refine rel_takeCall same (fun q _ => port s q same) (fun p _ => ?_)
  unfold ownSetGeometry
  split
  · split
    · trivial
    · split
      · trivial
      · have called := port s p same
        exact port _ _ ⟨called.epoch, called.global, called.lastSkipped, called.digest⟩
  · trivial

theorem servesUnmarked_fetchDigest {l : Link} {f : Frame} {s t : State} (h : exec (.fetchDigest l f) s = .next t) :
    s.ServesUnmarked t := by
  cases h
  have port (u : State) (q : Port) (h : s.ServesUnmarked u) : s.ServesUnmarked (u.setPort l q) := by
    cases l <;> exact ⟨h.epoch, h.global, h.lastSkipped, h.digest, h.plane, h.history⟩
  have same : s.ServesUnmarked s := ⟨rfl, rfl, rfl, rfl, rfl, rfl⟩
  refine rel_takeCall same (fun q _ => port s q same) (fun p _ => ?_)
  unfold ownFetchDigest
  split
  · split
    · trivial
    · split
      · trivial
      · split
        · trivial
        · have called := port s p same
          refine port _ _ ⟨called.epoch, called.global, called.lastSkipped, ?_, called.plane, called.history⟩
          rw [called.digest]
  · trivial

/-- Settles O55: outer moves leave what is served as it is, and the two commands that do not make them touch the fetched
marks or the plane of a new grid alone. -/
theorem servedValuesMoveOnlyAtTicks : Obligations.ServedValuesMoveOnlyAtTicks := by
  intro c s t h notTick notSample notUp notLoss notScan notReset
  rcases isOuter_cases c with outer | rfl | rfl | ⟨v, x, y, z, rfl⟩ | ⟨b, rfl⟩ | ⟨v, b, rfl⟩ | ⟨l, f, rfl⟩ | ⟨l, f, rfl⟩ |
    ⟨l, f, rfl⟩
  · have served := (outerMove_of_exec c outer h).serves
    exact ⟨served.epoch, served.global, served.lastSkipped, by rw [served.digest], fun _ => served.digest,
      fun _ => ⟨served.plane, served.history⟩⟩
  · exact absurd rfl notUp
  · exact absurd rfl notLoss
  · exact absurd rfl (notScan v x y z)
  · exact absurd rfl (notTick b)
  · exact absurd rfl (notSample v b)
  · exact absurd rfl (notReset l f)
  · have served := servesBeforePlane_setGeometry h
    exact ⟨served.epoch, served.global, served.lastSkipped, by rw [served.digest], fun _ => served.digest,
      fun other => absurd rfl (other l f)⟩
  · have served := servesUnmarked_fetchDigest h
    exact ⟨served.epoch, served.global, served.lastSkipped, served.digest, fun other => absurd rfl (other l f),
      fun _ => ⟨served.plane, served.history⟩⟩

end Sys2Proof.Machine
end

section
/-! PROOFS. A call that passes the link checks: what its own checks' three endings come to; then the calls of every link
(O9, O11, O12), the switches (O18) and FETCH DIGEST (O14), and POWER_UP (O3). -/
namespace Sys2Proof.Machine

/-! ### A call that passes the link checks -/

/-- The catalogue admits the call on its link now: it is permitted, neither locked out nor kept out by a running job
(R170 steps 4 to 6). -/
structure State.Admits (s : State) (c : CallRow) (l : Link) : Prop where
  permits : c.permits l = true
  unlocked : l = .sl → s.showLock = true → c.locked = true → False
  free : c.job = true → (s.port l).job = none

/-- A call that is not locked and starts no job is admitted wherever it is permitted. -/
theorem admits_plain {s : State} {c : CallRow} {l : Link} (permits : c.permits l = true)
    (locked : c.locked = false := by rfl) (job : c.job = false := by rfl) : s.Admits c l :=
  ⟨permits, fun _ _ h => by simp [locked] at h, fun h => by simp [job] at h⟩

@[simp] theorem port_called (s : State) (l : Link) : (s.called l).port l = (s.port l).heard.countTaken :=
  State.port_setPort s l _

section
variable {c : CallRow} {od : Bool} {len : List Word → Bool} {own : State → Answer} {l : Link} {f : Frame} {s u : State}
  {st : Status} {ws : List Word}

theorem takeCall_declines (h : s.takes l f c.code = true) (admits : s.Admits c l) (hlen : len f.operands = true)
    (hown : own (s.called l) = .refuse st ws) : takeCall c od len own l f s = s.declined l st ws := by
  rw [takeCall_takes c od len own l f s h rfl hlen admits.permits admits.unlocked admits.free, hown]

theorem takeCall_accepts (h : s.takes l f c.code = true) (admits : s.Admits c l) (hlen : len f.operands = true)
    (hown : own (s.called l) = .accept st ws u) : takeCall c od len own l f s = u.reply l st ws := by
  rw [takeCall_takes c od len own l f s h rfl hlen admits.permits admits.unlocked admits.free, hown]

theorem takeCall_answers (h : s.takes l f c.code = true) (admits : s.Admits c l) (hlen : len f.operands = true)
    (hown : own (s.called l) = .accept st ws (s.called l)) : takeCall c od len own l f s = s.answered l st ws := by
  rw [takeCall_accepts h admits hlen hown, reply_answered s l st ws (open_of_takes h)]

/-- An effect that a reply neither reads nor overwrites is an effect on the answered state. -/
theorem takeCall_changes (g : State → State) (commutes : ∀ u : State, (g u).reply l st ws = g (u.reply l st ws))
    (h : s.takes l f c.code = true) (admits : s.Admits c l) (hlen : len f.operands = true)
    (hown : own (s.called l) = .accept st ws (g (s.called l))) :
    takeCall c od len own l f s = g (s.answered l st ws) := by
  rw [takeCall_accepts h admits hlen hown, commutes, reply_answered s l st ws (open_of_takes h)]

end

/-- A call of every link. -/
theorem permits_all {code : Word} {job locked : Bool} (l : Link) :
    ({ code := code, pl := true, dl := true, sl := true, job := job, locked := locked } : CallRow).permits l = true := by
  cases l <;> rfl

theorem hasLength_of {f : Frame} {ws : List Word} (h : f.operands = ws) : hasLength ws.length f.operands = true := by
  simp [hasLength, h]

/-! ### READ NOTICES, CLEAR NOTICES, SET NOTICE MASK -/

theorem exec_readNotices (l : Link) (f : Frame) (s : State) : exec (.readNotices l f) s =
    .next (takeCall rowReadNotices false (hasLength 0) (ownReadNotices l) l f s) := rfl

theorem exec_clearNotices (l : Link) (f : Frame) (s : State) : exec (.clearNotices l f) s =
    .next (takeCall rowClearNotices false (hasLength 1) (ownClearNotices l f.operands) l f s) := rfl

theorem exec_setNoticeMask (l : Link) (f : Frame) (s : State) : exec (.setNoticeMask l f) s =
    .next (takeCall rowSetNoticeMask false (hasLength 1) (ownSetNoticeMask l f.operands) l f s) := rfl

/-- An update of a port that leaves its reply alone passes a reply. -/
theorem reply_setPort (g : Port → Port) (st : Status) (ws : List Word) (keep : ∀ p, (g p).stage st ws = g (p.stage st ws))
    (u : State) (l : Link) : (u.setPort l (g (u.port l))).reply l st ws =
      (u.reply l st ws).setPort l (g ((u.reply l st ws).port l)) := by
  simp [State.reply, keep]

/-- Settles O12: each call reads its own port, and the two that write it leave the reply alone. -/
theorem noticeCallsAnswer : Obligations.NoticeCallsAnswer := by
  intro l f s
  refine ⟨fun takes operands => ?_, fun w takes operands => ?_, fun w takes operands => ?_⟩
  · rw [exec_readNotices]
    refine congrArg Host.Outcome.next (takeCall_answers takes (admits_plain (permits_all l)) (hasLength_of operands) ?_)
    simp [ownReadNotices, Port.countTaken]
  · rw [exec_clearNotices, operands]
    refine congrArg Host.Outcome.next (takeCall_changes
      (fun u => u.setPort l { u.port l with flags := (s.port l).flags &&& ~~~w })
      (fun u => reply_setPort (fun p => { p with flags := (s.port l).flags &&& ~~~w }) _ _ (fun _ => rfl) u l) takes
      (admits_plain (permits_all l)) (hasLength_of operands) ?_)
    simp [ownClearNotices, Port.countTaken]
  · rw [exec_setNoticeMask, operands]
    refine congrArg Host.Outcome.next (takeCall_changes (fun u => u.setPort l { u.port l with mask := w })
      (fun u => reply_setPort (fun p => { p with mask := w }) _ _ (fun _ => rfl) u l) takes
      (admits_plain (permits_all l)) (hasLength_of operands) ?_)
    simp [ownSetNoticeMask, Port.countTaken]

/-! ### SENSE LINK and SENSE WALL -/

theorem exec_senseLink (l : Link) (f : Frame) (s : State) : exec (.senseLink l f) s =
    .next (takeCall rowSenseLink false (hasLength 0) (ownSenseLink l) l f s) := rfl

theorem exec_senseWall (l : Link) (f : Frame) (s : State) : exec (.senseWall l f) s =
    .next (takeCall rowSenseWall false (hasLength 0) ownSenseWall l f s) := rfl

theorem isSome_detachedJob (p : Port) :
    p.detachedJob.isSome = (match p.job with | none => false | some j => j.detached) := by
  unfold Port.detachedJob
  cases p.job with
  | none => rfl
  | some j => cases h : j.detached <;> simp [h]

theorem markWord_noticeLine (p : Port) : markWord p.noticeLine = if p.flags &&& ~~~p.mask = 0 then 0 else 1 := by
  by_cases h : p.flags &&& ~~~p.mask = 0 <;> simp [markWord, Port.noticeLine, h]

/-- The work of the running jobs is no part of what a call counts. -/
@[simp] theorem called_works (s : State) (l : Link) : (s.called l).works = s.works := by cases l <;> rfl

@[simp] theorem called_recWrites (s : State) (l : Link) : (s.called l).recWrites = s.recWrites := by cases l <;> rfl

@[simp] theorem called_isLocked (s : State) (l : Link) (tag : Nat) : (s.called l).isLocked tag = s.isLocked tag := by
  cases l <;> rfl

/-- Settles O11: the reply of SENSE LINK is the port as the call finds it, its own acceptance counted; the mark is cleared
after it. SENSE WALL reads no port. -/
theorem senseCallsReport : Obligations.SenseCallsReport := by
  refine ⟨fun l f s takes operands => ?_, fun l f s takes operands => ?_⟩
  · rw [exec_senseLink]
    refine congrArg Host.Outcome.next (takeCall_changes (fun u => u.setPort l { u.port l with discardedMark := false })
      (fun u => reply_setPort (fun p => { p with discardedMark := false }) _ _ (fun _ => rfl) u l) takes
      (admits_plain (permits_all l)) (hasLength_of operands) ?_)
    have showLock : (s.called l).showLock = s.showLock := State.setPort_showLock s l _
    simp only [ownSenseLink, senseLinkWords, port_called, showLock, isSome_detachedJob, markWord_noticeLine,
      Counters.words, onWord]
    rfl
  · rw [exec_senseWall]
    refine congrArg Host.Outcome.next (takeCall_answers takes (admits_plain (permits_all l)) (hasLength_of operands) ?_)
    cases l <;> rfl

/-! ### The desk's switches -/

theorem exec_setFrameEdge (l : Link) (f : Frame) (s : State) : exec (.setFrameEdge l f) s =
    .next (takeCall (deskRow 0x0010) false (hasLength 1) (ownSetFrameEdge f.operands) l f s) := rfl

theorem polarity_ofWord_word (p : Polarity) : Polarity.ofWord p.word = some p := by cases p <;> rfl

/-- The words above 1 name no value of a list of two (R183). -/
theorem ne_zero_one_of_lt {w : Word} (h : 1 < w.toNat) : w ≠ 0 ∧ w ≠ 1 := by
  constructor <;> (rintro rfl; simp at h)

theorem polarity_ofWord_outside {w : Word} (h : 1 < w.toNat) : Polarity.ofWord w = none := by
  obtain ⟨h0, h1⟩ := ne_zero_one_of_lt h
  rw [Polarity.ofWord, if_neg h0, if_neg h1]

/-- Settles O18: each switch is a desk call whose reply is the state found and whose effect is one field. -/
theorem switchCallsAnswer : Obligations.SwitchCallsAnswer := by
  intro f s
  refine ⟨fun operands => ⟨fun takes => ?_, fun takes => ?_, fun takes => ?_, fun takes => ?_⟩,
    fun w operands takes => ⟨fun outside => ?_, fun p word => ?_⟩⟩
  · exact congrArg Host.Outcome.next (takeCall_changes (fun u => { u with showLock := true }) (fun _ => rfl) takes
      (admits_plain rfl) (hasLength_of operands) rfl)
  · exact congrArg Host.Outcome.next (takeCall_changes (fun u => { u with showLock := false }) (fun _ => rfl) takes
      (admits_plain rfl) (hasLength_of operands) rfl)
  · exact congrArg Host.Outcome.next (takeCall_changes (fun u => { u with hold := true }) (fun _ => rfl) takes
      (admits_plain rfl) (hasLength_of operands) rfl)
  · exact congrArg Host.Outcome.next (takeCall_changes (fun u => { u with hold := false }) (fun _ => rfl) takes
      (admits_plain rfl) (hasLength_of operands) rfl)
  · rw [exec_setFrameEdge, operands]
    refine congrArg Host.Outcome.next (takeCall_declines takes (admits_plain rfl) (hasLength_of operands) ?_)
    simp only [ownSetFrameEdge, polarity_ofWord_outside outside]
  · subst word
    rw [exec_setFrameEdge, operands]
    refine congrArg Host.Outcome.next (takeCall_changes
      (fun u => { u with settings := { s.settings with polarity := p } }) (fun _ => rfl) takes (admits_plain rfl)
      (hasLength_of operands) ?_)
    simp only [ownSetFrameEdge, polarity_ofWord_word, State.called_settings]

/-! ### FETCH DIGEST -/

theorem exec_fetchDigest (l : Link) (f : Frame) (s : State) : exec (.fetchDigest l f) s =
    .next (takeCall rowFetchDigest false (hasLength 4) (ownFetchDigest f.operands) l f s) := rfl

theorem wordOfNat_toNat (w : Word) : wordOfNat w.toNat = w := by simp [wordOfNat]

/-- The set word of the two digest marks, bit by bit (R183). -/
theorem setWord_digestMarks (globalChanged overflow : Bool) :
    setWord ((if globalChanged then [0] else []) ++ (if overflow then [1] else [])) =
      (if globalChanged then 1 else 0) ||| (if overflow then 2 else 0) := by
  cases globalChanged <;> cases overflow <;> decide

/-- FETCH DIGEST's own checks in their order; the marks answered are the ones after the fetch (R150 to R155). -/
theorem ownFetchDigest_called (a b c p : Word) (s : State) (l : Link) :
    ownFetchDigest [a, b, c, p] (s.called l) =
      if 7 < p.toNat then .refuse .badValue []
      else if epochOf a b c ≠ s.epoch then .refuse .stale (words48 s.epoch)
      else if s.digest.fetched.length ≤ p.toNat then
        .refuse .badPart (words48 s.epoch ++ [wordOfNat s.digest.fetched.length])
      else .accept .ok ({ s.digest with fetched := s.digest.fetched.set p.toNat true }.partWords p.toNat)
        { s.called l with digest := { s.digest with fetched := s.digest.fetched.set p.toNat true } } := by
  have epoch : (s.called l).epoch = s.epoch := State.called_epoch s l
  have digest : (s.called l).digest = s.digest := State.setPort_digest s l _
  simp only [ownFetchDigest, epoch, digest, updateAt_const]

/-- Settles O14: three refusals in their order, else the marks with the part's one set and the part served. -/
theorem fetchDigestServesParts : Obligations.FetchDigestServesParts := by
  intro f a b c p s takes operands
  have own := ownFetchDigest_called a b c p s .pl
  have hlen := hasLength_of operands
  rw [exec_fetchDigest, operands]
  split
  · next large =>
    rw [if_pos large] at own
    exact congrArg Host.Outcome.next (takeCall_declines takes (admits_plain rfl) hlen own)
  · next small =>
    rw [if_neg small] at own
    split
    · next stale =>
      rw [if_pos stale] at own
      exact congrArg Host.Outcome.next (takeCall_declines takes (admits_plain rfl) hlen own)
    · next fresh =>
      rw [if_neg fresh] at own
      split
      · next noPart =>
        rw [if_pos noPart] at own
        exact congrArg Host.Outcome.next (takeCall_declines takes (admits_plain rfl) hlen own)
      · next part =>
        rw [if_neg part] at own
        refine congrArg Host.Outcome.next (Eq.trans (takeCall_changes
          (fun u => { u with digest := { s.digest with fetched := s.digest.fetched.set p.toNat true } })
          (fun _ => rfl) takes (admits_plain rfl) hlen own) ?_)
        simp only [Digest.partWords, setWord_digestMarks, wordOfNat_toNat]
        rfl

/-! ### POWER_UP -/

theorem positions_powerUp (nv : NvMemory) (pending : List Instr) :
    ∀ p ∈ (State.powerUp nv pending).positions, p = .atRest := fun _ hp => List.eq_of_mem_replicate hp

/-- Settles O3: the values are those `State.powerUp` writes down. -/
theorem powerUpResets : Obligations.PowerUpResets := by
  intro s
  have ports : ∀ l, (State.powerUp s.tornNv s.pending).port l = .powerUp := fun l => by cases l <;> rfl
  have branches : ∀ b, b < 4 → (List.replicate 4 Branch.atRest)[b]? = some .atRest := fun b hb => by
    rw [List.getElem?_replicate, if_pos hb]
  have positions : ∀ p ∈ (State.powerUp s.tornNv s.pending).positions, p.hung = .empty ∧ p.override = none ∧
      p.adopted = none ∧ p.target = .emptyTarget ∧ p.applied = .emptyTarget ∧ p.remaining = 0 := fun p hp => by
    rw [positions_powerUp _ _ p hp]
    exact ⟨rfl, rfl, rfl, rfl, rfl, rfl⟩
  have nv : s.nvPort.current = none → s.tornNv = s.nv := fun free => by rw [State.tornNv, free]
  refine ⟨_, rfl, rfl, fun l => ?_, rfl, branches, rfl, rfl, rfl, rfl, rfl, rfl, rfl, rfl, rfl, rfl, rfl, rfl, rfl, rfl, rfl,
    rfl, rfl, positions, rfl, rfl, rfl, rfl, rfl, rfl, nv⟩
  rw [ports]
  exact ⟨rfl, rfl, rfl, rfl, rfl, rfl, rfl, rfl, rfl, rfl, rfl, rfl⟩

end Sys2Proof.Machine
end

section
/-! PROOFS. Calls whose operands name values: TERMS (O9), SET GLOBAL and OVERRIDE (O16), SET DRIFT PARAMETERS (O19), the
cadence settings (O20). -/
namespace Sys2Proof.Machine

/-! ### TERMS -/

theorem exec_terms (l : Link) (f : Frame) (s : State) : exec (.terms l f) s =
    .next (takeCall rowTerms true (hasLength 2) (ownTerms l f.operands) l f s) := rfl

/-- TERMS is judged in every state but STARTING (R168). -/
theorem takeFrame_terms {code : Word} {judged : State → State} {l : Link} {f : Frame} {s : State} (h : s.hears l f = true)
    (powered : (s.port l).state ≠ .starting) :
    takeFrame code true judged l f s = judged (s.setPort l (s.port l).heard) := by
  rw [takeFrame_hears code true judged l f s h]
  cases state : (s.port l).state with
  | starting => exact absurd state powered
  | down => rfl
  | idle => rfl
  | replyPending => rfl

theorem linkRefusal_terms {l : Link} {f : Frame} {s : State}
    (check : (s.port l).terms.check = .on → frameCheckOk f 1 = true) (length : hasLength 2 f.operands = true) :
    linkRefusal rowTerms (hasLength 2) l f (s.setPort l (s.port l).heard) = none := by
  have right : ¬((s.port l).terms.check = .on ∧ frameCheckOk f rowTerms.code = false) := fun ⟨on, wrong⟩ => by
    rw [show rowTerms.code = 1 from rfl, check on] at wrong
    cases wrong
  simp only [linkRefusal, State.port_setPort, heard_terms, if_neg right, length]
  cases l <;> simp [rowTerms, CallRow.permits]

theorem judge_terms {l : Link} {f : Frame} {s : State} (h : s.hears l f = true)
    (powered : (s.port l).state ≠ .starting) (check : (s.port l).terms.check = .on → frameCheckOk f 1 = true)
    (length : hasLength 2 f.operands = true) :
    takeCall rowTerms true (hasLength 2) (ownTerms l f.operands) l f s =
      match ownTerms l f.operands (s.called l) with
      | .refuse st ws => (s.setPort l (s.port l).heard).reply l st ws
      | .accept st ws u => u.reply l st ws
      | .staged u => u := by
  rw [takeCall, takeFrame_terms h powered, judge, linkRefusal_terms check length, State.port_setPort,
    State.setPort_setPort]
  rfl

theorem bitOrder_ofWord_word (o : BitOrder) : BitOrder.ofWord o.word = some o := by cases o <;> rfl

theorem checkSetting_ofWord_word (c : CheckSetting) : CheckSetting.ofWord c.word = some c := by cases c <;> rfl

theorem bitOrder_ofWord_outside {w : Word} (h : 1 < w.toNat) : BitOrder.ofWord w = none := by
  obtain ⟨h0, h1⟩ := ne_zero_one_of_lt h
  rw [BitOrder.ofWord, if_neg h0, if_neg h1]

theorem checkSetting_ofWord_outside {w : Word} (h : 1 < w.toNat) : CheckSetting.ofWord w = none := by
  obtain ⟨h0, h1⟩ := ne_zero_one_of_lt h
  rw [CheckSetting.ofWord, if_neg h0, if_neg h1]

theorem parseTerms_outside {o c : Word} (h : 1 < o.toNat ∨ 1 < c.toNat) : parseTerms [o, c] = none := by
  simp only [parseTerms]
  rcases h with h | h
  · rw [bitOrder_ofWord_outside h]
  · rw [checkSetting_ofWord_outside h]
    cases BitOrder.ofWord o <;> rfl

theorem reply_turnedAway (s : State) (l : Link) (st : Status) (down : (s.port l).state = .down) :
    (s.setPort l (s.port l).heard).reply l st [] = s.turnedAway l st := by
  simp [State.reply, State.turnedAway, Port.stage, Port.replied, down, PortState.isOpen]

/-- Settles O9: in every state but STARTING the call is judged, and its reply is staged over the terms it sets. -/
theorem termsTakeEffectAtOnce : Obligations.TermsTakeEffectAtOnce := by
  intro l f o c s hears powered check operands
  have judged := judge_terms hears powered check (hasLength_of operands)
  refine ⟨fun order setting ho hc => ?_, fun outside => ?_⟩
  · subst ho hc
    rw [exec_terms, judged, operands]
    simp only [ownTerms, parseTerms, bitOrder_ofWord_word, checkSetting_ofWord_word]
    simp [State.reply, State.called, Port.stage, Port.countTaken, PortState.isOpen]
  · rw [exec_terms, judged, operands]
    simp only [ownTerms, parseTerms_outside outside]
    split
    · next down => rw [reply_turnedAway s l _ down]
    · next up =>
      refine congrArg Host.Outcome.next (reply_declined s l _ _ ?_)
      cases state : (s.port l).state with
      | starting => exact absurd state powered
      | down => exact absurd state up
      | idle => exact .inl rfl
      | replyPending => exact .inr rfl

/-! ### Optional operands (R183) -/

theorem presenceOf_eq (p : Word) :
    presenceOf p = if noPresence p then none else some (decide (p = 1)) := by
  rcases Nat.lt_or_ge 1 p.toNat with h | h
  · obtain ⟨h0, h1⟩ := ne_zero_one_of_lt h
    rw [presenceOf, if_neg h0, if_neg h1, if_pos h]
  · rw [if_neg (Nat.not_lt.mpr h), presenceOf]
    by_cases h0 : p = 0
    · subst h0; rfl
    · have h1 : p = 1 := by
        apply BitVec.eq_of_toNat_eq
        have : p.toNat ≠ 0 := fun e => h0 (BitVec.eq_of_toNat_eq (by simpa using e))
        have one : (1 : Word).toNat = 1 := rfl
        omega
      subst h1; rfl

theorem optNatOf_eq (p v : Word) :
    optNatOf p v = if noPresence p then none else some ((given p v).map BitVec.toNat) := by
  rw [optNatOf, presenceOf_eq, given]
  by_cases none : noPresence p
  · rw [if_pos none, if_pos none]
  · rw [if_neg none, if_neg none]
    by_cases h : p = 1
    · rw [decide_eq_true h, if_pos h]; rfl
    · rw [decide_eq_false h, if_neg h]; rfl

theorem optIntOf_eq (p v : Word) :
    optIntOf p v = if noPresence p then none else some ((given p v).map BitVec.toInt) := by
  rw [optIntOf, presenceOf_eq, given]
  by_cases none : noPresence p
  · rw [if_pos none, if_pos none]
  · rw [if_neg none, if_neg none]
    by_cases h : p = 1
    · rw [decide_eq_true h, if_pos h]; rfl
    · rw [decide_eq_false h, if_neg h]; rfl

/-- A test that a given operand passes, in the terms of one that it fails. -/
theorem optOk_eq_false {α : Type} {p : α → Bool} {q : α → Prop} [DecidablePred q] (h : ∀ a, p a = false ↔ q a)
    (o : Option α) : optOk p o = false ↔ o.any (fun a => decide (q a)) = true := by
  cases o with
  | none => simp [optOk]
  | some a => simp [optOk, h]

theorem inRange_eq_false (lo hi v : Int) : inRange lo hi v = false ↔ v < lo ∨ hi < v := by
  simp only [inRange, decide_eq_false_iff_not]
  omega

/-! ### SET GLOBAL and OVERRIDE -/

theorem exec_setGlobal (l : Link) (f : Frame) (s : State) : exec (.setGlobal l f) s =
    .next (takeCall (deskRow 0x000D) false (hasLength 11) (ownSetGlobal f.operands) l f s) := rfl

theorem exec_override (l : Link) (f : Frame) (s : State) : exec (.override l f) s =
    .next (takeCall (deskRow 0x000E) false (hasLength 4) (ownOverride f.operands) l f s) := rfl

theorem intentOk_eq_false (o : IntentOps) :
    o.ok = false ↔ o.master.any (fun v => decide (1000 < v)) = true ∨ o.white.any (fun v => decide (15 < v)) = true ∨
      o.trimR.any (fun v => decide (v < -256 ∨ 255 < v)) = true ∨
      o.trimG.any (fun v => decide (v < -256 ∨ 255 < v)) = true ∨
      o.trimB.any (fun v => decide (v < -256 ∨ 255 < v)) = true := by
  have atMost (n : Nat) (v : Nat) : decide (v ≤ n) = false ↔ n < v := by simp
  simp only [IntentOps.ok, Bool.and_eq_false_iff, optOk_eq_false (atMost _), optOk_eq_false (inRange_eq_false _ _),
    or_assoc]

/-- SET GLOBAL's operands: an intent, or a presence word that is none (R112, R183). -/
theorem parseSetGlobal_eq (ramp pm m pw w pr r pg g pb b : Word) :
    parseSetGlobal [ramp, pm, m, pw, w, pr, r, pg, g, pb, b] =
      if noPresence pm ∨ noPresence pw ∨ noPresence pr ∨ noPresence pg ∨ noPresence pb then none
      else some (ramp.toNat,
        { master := (given pm m).map BitVec.toNat, white := (given pw w).map BitVec.toNat
          trimR := (given pr r).map BitVec.toInt, trimG := (given pg g).map BitVec.toInt
          trimB := (given pb b).map BitVec.toInt }) := by
  simp only [parseSetGlobal, optNatOf_eq, optIntOf_eq]
  by_cases hm : noPresence pm
  · simp [hm]
  by_cases hw : noPresence pw
  · simp [hm, hw]
  by_cases hr : noPresence pr
  · simp [hm, hw, hr]
  by_cases hg : noPresence pg
  · simp [hm, hw, hr, hg]
  by_cases hb : noPresence pb
  · simp [hm, hw, hr, hg, hb]
  · simp [hm, hw, hr, hg, hb]

theorem ownSetGlobal_called (ramp pm m pw w pr r pg g pb b : Word) (s : State) (l : Link) :
    ownSetGlobal [ramp, pm, m, pw, w, pr, r, pg, g, pb, b] (s.called l) = (
      let o : IntentOps :=
        { master := (given pm m).map BitVec.toNat, white := (given pw w).map BitVec.toNat
          trimR := (given pr r).map BitVec.toInt, trimG := (given pg g).map BitVec.toInt
          trimB := (given pb b).map BitVec.toInt }
      if noPresence pm ∨ noPresence pw ∨ noPresence pr ∨ noPresence pg ∨ noPresence pb ∨ 1023 < ramp.toNat ∨
          o.master.any (fun v => decide (1000 < v)) = true ∨ o.white.any (fun v => decide (15 < v)) = true ∨
          o.trimR.any (fun v => decide (v < -256 ∨ 255 < v)) = true ∨ o.trimG.any (fun v => decide (v < -256 ∨ 255 < v)) = true ∨
          o.trimB.any (fun v => decide (v < -256 ∨ 255 < v)) = true then .refuse .badValue []
      else if 16 ≤ s.changes.length then .refuse .queueFull []
      else .accept .ok [wordOfNat (s.changes.length + 1)] ((s.called l).enqueue (.global ramp.toNat o))) := by
  rw [ownSetGlobal, parseSetGlobal_eq]
  by_cases presence : noPresence pm ∨ noPresence pw ∨ noPresence pr ∨ noPresence pg ∨ noPresence pb
  · rw [if_pos presence, if_pos (presence.imp_right (Or.imp_right (Or.imp_right (Or.imp_right .inl))))]
  · rw [if_neg presence]
    dsimp only
    simp only [Config.maxRamp, intentOk_eq_false, State.queueFull_iff, State.depthWord_enqueue, State.called_changes]
    congr 1
    simp only [eq_iff_iff]
    simp only [not_or] at presence
    obtain ⟨no_m, no_w, no_r, no_g, no_b⟩ := presence
    exact ((or_iff_right no_m).trans ((or_iff_right no_w).trans ((or_iff_right no_r).trans ((or_iff_right no_g).trans
      (or_iff_right no_b))))).symm

theorem parseOverride_eq (i p v ramp : Word) :
    parseOverride [i, p, v, ramp] =
      if noPresence p then none else some (i.toNat, (given p v).map BitVec.toNat, ramp.toNat) := by
  simp only [parseOverride, optNatOf_eq]
  split <;> split <;> simp_all

theorem ownOverride_called (i p v ramp : Word) (s : State) (l : Link) :
    ownOverride [i, p, v, ramp] (s.called l) = (
      let level := (given p v).map BitVec.toNat
      if noPresence p ∨ s.settings.columns * s.settings.rows ≤ i.toNat ∨ level.any (fun n => decide (1000 < n)) = true ∨
          1023 < ramp.toNat then .refuse .badValue []
      else if 16 ≤ s.changes.length then .refuse .queueFull []
      else .accept .ok
        (wordOfNat (s.changes.length + 1) :: optWords ((s.positions[i.toNat]?).bind Position.override))
        ((s.called l).enqueue (.override i.toNat level ramp.toNat))) := by
  rw [ownOverride, parseOverride_eq]
  by_cases presence : noPresence p
  · rw [if_pos presence, if_pos (.inl presence)]
  · rw [if_neg presence]
    have atMost (v : Nat) : decide (v ≤ 1000) = false ↔ 1000 < v := by simp
    dsimp only
    simp only [Config.maxRamp, optOk_eq_false atMost, State.queueFull_iff, State.depthWord_enqueue, State.called_changes,
      State.called_settings, State.called_positions, State.positionCount]
    congr 1
    simp only [eq_iff_iff]
    exact (or_iff_right presence).symm

/-- A desk call whose own checks are a refusal by value, then one by room, then an entry at the back of the queue. -/
theorem takeCall_desk_queues {len : List Word → Bool} {own : State → Answer} {f : Frame} {s : State} {code : Word}
    {ws : List Word} {bad : Prop} [Decidable bad] {c : Change} (takes : s.takes .dl f code = true)
    (length : len f.operands = true)
    (checks : own (s.called .dl) = if bad then .refuse .badValue []
      else if 16 ≤ s.changes.length then .refuse .queueFull []
      else .accept .ok ws ((s.called .dl).enqueue c)) :
    takeCall (deskRow code) false len own .dl f s =
      if bad then s.declined .dl .badValue []
      else if 16 ≤ s.changes.length then s.declined .dl .queueFull []
      else { s.answered .dl .ok ws with changes := s.changes ++ [c] } := by
  split
  · next outside => exact takeCall_desk_refuses takes length (checks.trans (if_pos outside))
  · next inside =>
    rw [if_neg inside] at checks
    split
    · next full => exact takeCall_desk_refuses takes length (checks.trans (if_pos full))
    · next room => exact takeCall_desk_enqueues takes length (checks.trans (if_neg room))

/-- Settles O16: each call's own checks are one refusal by value, one by room, and an entry at the back of the queue. -/
theorem intentCallsQueueAnEntry : Obligations.IntentCallsQueueAnEntry := by
  refine ⟨fun f ramp pm m pw w pr r pg g pb b s takes operands => ?_, fun f i p v ramp s takes operands => ?_⟩
  · rw [exec_setGlobal, operands]
    exact congrArg Host.Outcome.next (takeCall_desk_queues takes (hasLength_of operands)
      (ownSetGlobal_called ramp pm m pw w pr r pg g pb b s .dl))
  · rw [exec_override, operands]
    exact congrArg Host.Outcome.next (takeCall_desk_queues takes (hasLength_of operands)
      (ownOverride_called i p v ramp s .dl))

end Sys2Proof.Machine
end

section
/-! PROOFS. The calls on the Drift Tracker's parameters and the Cadence Timer's settings (O19, O20). -/
namespace Sys2Proof.Machine

/-! ### SET DRIFT PARAMETERS -/

theorem exec_setDriftParameters (l : Link) (f : Frame) (s : State) : exec (.setDriftParameters l f) s =
    .next (takeCall (deskRow 0x0014) false (hasLength 8) (ownSetDriftParameters f.operands) l f s) := rfl

theorem parseDriftParameters_eq (pk k pd d pb b pr r : Word) :
    parseDriftParameters [pk, k, pd, d, pb, b, pr, r] =
      if noPresence pk ∨ noPresence pd ∨ noPresence pb ∨ noPresence pr then none
      else some ((given pk k).map BitVec.toNat, (given pd d).map BitVec.toNat, (given pb b).map BitVec.toNat,
        (given pr r).map BitVec.toNat) := by
  simp only [parseDriftParameters, optNatOf_eq]
  by_cases hk : noPresence pk
  · simp [hk]
  by_cases hd : noPresence pd
  · simp [hk, hd]
  by_cases hb : noPresence pb
  · simp [hk, hd, hb]
  by_cases hr : noPresence pr
  · simp [hk, hd, hb, hr]
  · simp [hk, hd, hb, hr]

/-- An operand given, in the statement's words. -/
theorem given_getD (p v : Word) (old : Nat) : ((given p v).map BitVec.toNat).getD old = if p = 1 then v.toNat else old := by
  rw [given]
  split <;> rfl

theorem optOk_given (p v : Word) (test : Nat → Prop) [DecidablePred test] :
    optOk (fun n => decide (test n)) ((given p v).map BitVec.toNat) = true ↔ (p = 1 → test v.toNat) := by
  rw [given]
  by_cases h : p = 1
  · rw [if_pos h]
    simp [optOk, h]
  · rw [if_neg h]
    exact ⟨fun _ given => absurd given h, fun _ => rfl⟩

/-- Settles O19: an operand is bad by its presence word or by its range, and one that is omitted leaves its parameter. -/
theorem setDriftParametersTakesGivenOperands : Obligations.SetDriftParametersTakesGivenOperands := by
  intro f pk k pd d pb b pr r s takes operands
  rw [exec_setDriftParameters, operands]
  refine congrArg Host.Outcome.next ?_
  dsimp only
  split
  · next bad =>
    refine takeCall_declines takes (admits_plain rfl) (hasLength_of operands) ?_
    rw [ownSetDriftParameters, parseDriftParameters_eq]
    by_cases presence : noPresence pk ∨ noPresence pd ∨ noPresence pb ∨ noPresence pr
    · rw [if_pos presence]
    · rw [if_neg presence]
      dsimp only
      rw [if_neg]
      simp only [not_or] at presence
      obtain ⟨hk, hd, hb, hr⟩ := presence
      simp only [hk, hd, hb, hr, false_or, Bool.or_eq_true, decide_eq_true_eq] at bad
      simp only [Bool.and_eq_true, optOk_given]
      simp only [Config.maxRamp]
      rintro ⟨⟨⟨okK, okD⟩, okB⟩, okR⟩
      rcases bad with ((bad | bad) | bad) | bad
      · have := okK bad.1; omega
      · have := okD bad.1; omega
      · have := okB bad.1; omega
      · have := okR bad.1; omega
  · next good =>
    simp only [Bool.or_eq_true, decide_eq_true_eq, not_or, not_and] at good
    obtain ⟨⟨⟨⟨hk, okK⟩, ⟨hd, okD⟩⟩, ⟨hb, okB⟩⟩, ⟨hr, okR⟩⟩ := good
    refine takeCall_changes (fun u => { u with settings := { s.settings with
      depth := if pk = 1 then k.toNat else s.settings.depth, deadband := if pd = 1 then d.toNat else s.settings.deadband
      budget := if pb = 1 then b.toNat else s.settings.budget
      driftRamp := if pr = 1 then r.toNat else s.settings.driftRamp } }) (fun _ => rfl) takes (admits_plain rfl)
      (hasLength_of operands) ?_
    rw [ownSetDriftParameters, parseDriftParameters_eq, if_neg (by simp only [not_or]; exact ⟨hk, hd, hb, hr⟩)]
    dsimp only
    rw [if_pos]
    · simp only [State.called_settings, given_getD, Settings.driftWords]
    · simp only [Bool.and_eq_true, optOk_given]
      simp only [Config.maxRamp]
      exact ⟨⟨⟨fun h => by have := okK h; omega, fun h => by have := okD h; omega⟩, fun h => by have := okB h; omega⟩,
        fun h => by have := okR h; omega⟩

/-! ### SET CADENCE and SENSE CADENCE -/

theorem exec_setCadence (l : Link) (f : Frame) (s : State) : exec (.setCadence l f) s =
    .next (takeCall (deskRow 0x0015) false (hasLength 4) (ownSetCadence f.operands) l f s) := rfl

theorem exec_senseCadence (l : Link) (f : Frame) (s : State) : exec (.senseCadence l f) s =
    .next (takeCall (deskRow 0x0019) false (hasLength 0) ownSenseCadence l f s) := rfl

theorem cadenceSource_ofWord_word (c : CadenceSource) : CadenceSource.ofWord c.word = some c := by cases c <;> rfl

theorem yesNoOf_yesNoWord (b : Bool) : yesNoOf (yesNoWord b) = some b := by cases b <;> rfl

theorem cadenceSource_ofWord_outside {w : Word} (h : 1 < w.toNat) : CadenceSource.ofWord w = none := by
  obtain ⟨h0, h1⟩ := ne_zero_one_of_lt h
  rw [CadenceSource.ofWord, if_neg h0, if_neg h1]

theorem yesNoOf_outside {w : Word} (h : 1 < w.toNat) : yesNoOf w = none := by
  obtain ⟨h0, h1⟩ := ne_zero_one_of_lt h
  rw [yesNoOf, if_neg h0, if_neg h1]

theorem prescalerOk_toNat (p : Word) : prescalerOk p.toNat = true ↔ p = 1 ∨ p = 4 ∨ p = 32 ∨ p = 256 := by
  have same (q : Word) : p.toNat = q.toNat ↔ p = q := BitVec.toNat_inj
  rw [prescalerOk, decide_eq_true_iff]
  exact or_congr (same 1) (or_congr (same 4) (or_congr (same 32) (same 256)))

theorem toNat_eq_zero_iff (w : Word) : w.toNat = 0 ↔ w = 0 := BitVec.toNat_inj (y := 0)

theorem ownSetCadence_outside {src p r y : Word} (u : State)
    (h : 1 < src.toNat ∨ 1 < y.toNat ∨ (p ≠ 1 ∧ p ≠ 4 ∧ p ≠ 32 ∧ p ≠ 256) ∨ r = 0) :
    ownSetCadence [src, p, r, y] u = .refuse .badValue [] := by
  unfold ownSetCadence
  split
  · rfl
  · next source prescaler reload run parsed =>
    simp only [parseCadence] at parsed
    split at parsed
    · next hs hy =>
      cases parsed
      rw [if_pos]
      rw [← Bool.not_eq_true, prescalerOk_toNat, toNat_eq_zero_iff]
      rcases h with h | h | h | h
      · rw [cadenceSource_ofWord_outside h] at hs; cases hs
      · rw [yesNoOf_outside h] at hy; cases hy
      · exact .inl (by simpa using h)
      · exact .inr h
    · cases parsed

/-- Settles O20: SET CADENCE by value, its stage kept if source and prescaler are; SENSE CADENCE only reads. -/
theorem cadenceSettingsCallsAnswer : Obligations.CadenceSettingsCallsAnswer := by
  refine ⟨fun f src p r y s takes operands => ⟨fun outside => ?_, fun source run hsrc hy prescaler reload => ?_⟩,
    fun f s takes operands => ?_⟩
  · rw [exec_setCadence, operands]
    exact congrArg Host.Outcome.next (takeCall_declines takes (admits_plain rfl) (hasLength_of operands)
      (ownSetCadence_outside _ outside))
  · subst hsrc hy
    rw [exec_setCadence, operands]
    refine congrArg Host.Outcome.next (takeCall_changes (fun u => { u with
      settings := { s.settings with source := source, prescaler := p.toNat, reload := r.toNat, runAtStart := run }
      timer := { s.timer with
        stage := if source = s.settings.source ∧ p.toNat = s.settings.prescaler then s.timer.stage else 0 } })
      (fun _ => rfl) takes (admits_plain rfl) (hasLength_of operands) ?_)
    have accepted : ¬(prescalerOk p.toNat = false ∨ r.toNat = 0) := by
      rw [← Bool.not_eq_true, prescalerOk_toNat, toNat_eq_zero_iff]
      exact fun h => h.elim (fun h => h prescaler) reload
    simp only [ownSetCadence, parseCadence, cadenceSource_ofWord_word, yesNoOf_yesNoWord]
    rw [if_neg accepted]
    have stage : (if source ≠ s.settings.source ∨ p.toNat ≠ s.settings.prescaler then 0 else s.timer.stage) =
        if source = s.settings.source ∧ p.toNat = s.settings.prescaler then s.timer.stage else 0 := by
      by_cases h : source = s.settings.source ∧ p.toNat = s.settings.prescaler
      · rw [if_pos h, if_neg (by simpa using h)]
      · rw [if_neg h, if_pos (Classical.not_and_iff_not_or_not.mp h)]
    simp only [State.called_settings, State.called_timer, stage, Settings.cadenceWords, wordOfNat_toNat,
      List.cons_append, List.nil_append]
  · rw [exec_senseCadence]
    refine congrArg Host.Outcome.next (takeCall_answers takes (admits_plain rfl) (hasLength_of operands) ?_)
    have runFlag : markWord s.timer.state.runFlag = if s.timer.state = .stopped then 0 else 1 := by
      cases s.timer.state <;> rfl
    rw [← runFlag]
    rfl

end Sys2Proof.Machine
end

section
/-! PROOFS. Notice flags, and the survey station's calls on the Record Store (O24, O25, O27 to O29). -/
namespace Sys2Proof.Machine

/-! ### Notice flags (R175, R183) -/

/-- The notices in the order of their bits. -/
def noticesByBit : List Notice :=
  [.epochReady, .digestMissed, .frameLost, .settingsLost, .jobDone, .sweepClash, .sweepTimeout, .branchFault, .tileMute,
   .stranger, .poolLow, .cellRetired, .recordDamaged, .historyOverrun, .historyEmpty, .cycleOverrun]

theorem noticesByBit_bit (n : Notice) : noticesByBit[n.bit]? = some n := by cases n <;> rfl

theorem bit_lt (n : Notice) : n.bit < 16 := by cases n <;> decide

theorem bit_inj {n m : Notice} : n.bit = m.bit ↔ n = m := by
  refine ⟨fun h => ?_, fun h => h ▸ rfl⟩
  have same := noticesByBit_bit n
  rw [h, noticesByBit_bit] at same
  exact (Option.some.inj same).symm

theorem getLsbD_noticeWord (n m : Notice) : m.word.getLsbD n.bit = decide (n = m) := by
  have hn := bit_lt n
  rw [Notice.word, BitVec.getLsbD_shiftLeft, ← Bool.coe_iff_coe]
  simp only [Bool.and_eq_true, decide_eq_true_eq, Bool.not_eq_true', decide_eq_false_iff_not, ← bit_inj]
  constructor
  · rintro ⟨⟨_, reached⟩, one⟩
    have : n.bit - m.bit = 0 := Classical.byContradiction fun nonzero => by
      simp [BitVec.getLsbD_one, nonzero] at one
    omega
  · intro same
    rw [same]
    simp [bit_lt]

/-- After a notice is raised its flag is set and every other is as it was. -/
theorem hasFlag_raise (p : Port) (n m : Notice) : (p.raise m).hasFlag n = (p.hasFlag n || decide (n = m)) := by
  simp only [Port.hasFlag, Port.raise, BitVec.getLsbD_or, getLsbD_noticeWord]

/-! ### The Tag Index read after a call -/

@[simp] theorem called_findEntry (s : State) (l : Link) (tag : Nat) : (s.called l).findEntry tag = s.findEntry tag := by
  cases l <;> rfl

@[simp] theorem called_pool (s : State) (l : Link) : (s.called l).pool = s.pool := State.setPort_pool s l _

@[simp] theorem called_content (s : State) (l : Link) (e : IndexEntry) : (s.called l).content e = s.content e := by
  cases l <;> rfl

theorem findEntry_tag {s : State} {tag : Nat} {e : IndexEntry} (h : s.findEntry tag = some e) : e.tag = tag := by
  simpa using List.find?_some h

theorem isSome_findEntry (s : State) (tag : Nat) : (s.findEntry tag).isSome = true ↔ ∃ e ∈ s.pool.index, e.tag = tag := by
  simp [State.findEntry, List.find?_isSome]

theorem presence_word (p : Presence) : p.word =
    (if p.survey then 1 else 0) ||| (if p.drift then 2 else 0) ||| (if p.trim then 4 else 0) := by
  obtain ⟨survey, drift, trim⟩ := p
  cases survey <;> cases drift <;> cases trim <;> decide

/-! ### SELECT TILE, READ RECORD and LIST RECORDS -/

theorem exec_selectTile (l : Link) (f : Frame) (s : State) : exec (.selectTile l f) s =
    .next (takeCall (surveyRow 0x001D false false) false (hasLength 2) (ownSelectTile l f.operands) l f s) := rfl

theorem exec_readRecord (l : Link) (f : Frame) (s : State) : exec (.readRecord l f) s =
    .next (takeCall (surveyRow 0x001E false false) false (hasLength 0) (ownReadRecord l) l f s) := rfl

theorem exec_listRecords (l : Link) (f : Frame) (s : State) : exec (.listRecords l f) s =
    .next (takeCall (surveyRow 0x001F false false) false (hasLength 2) (ownListRecords f.operands) l f s) := rfl

theorem markWord_decide (p : Prop) [Decidable p] {b : Bool} (h : b = true ↔ p) : markWord b = if p then 1 else 0 := by
  by_cases hp : p
  · rw [if_pos hp, h.mpr hp]; rfl
  · rw [if_neg hp, Bool.eq_false_iff.mpr (fun hb => hp (h.mp hb))]; rfl

/-- The served words of a record (R26, R183): of a DAMAGED one the tag, revision, status and lock alone. -/
theorem recordWords_eq (s : State) (e : IndexEntry) :
    s.recordWords e = (
      let c := s.content e
      let locked : Word := if s.isLocked e.tag then 1 else 0
      if e.status = .damaged then words32 e.tag ++ words32 e.revision ++ [2, locked]
      else
        words32 e.tag ++ [wordOfNat c.batch, wordOfInt c.base.r, wordOfInt c.base.g, wordOfInt c.base.b,
          (if c.survey.isSome then 1 else 0) ||| (if c.drift.isSome then 2 else 0) |||
            (if c.trim.isSome then 4 else 0)] ++
          words32 e.revision ++ [if e.status = .ok then 0 else 1, locked] ++
          (c.survey.map Matrix.words).getD [] ++ (c.drift.map DriftCoef.words).getD [] ++
          (c.trim.map Trims.words).getD []) := by
  cases status : e.status with
  | damaged => simp [State.recordWords, status, RecStatus.word, markWord]
  | ok =>
    simp [State.recordWords, status, RecStatus.word, markWord, presence_word, Content.presence, Gains.words]
  | provisional =>
    simp [State.recordWords, status, RecStatus.word, markWord, presence_word, Content.presence, Gains.words]

theorem recordWords_called (s : State) (l : Link) (e : IndexEntry) : (s.called l).recordWords e = s.recordWords e := by
  simp only [recordWords_eq, called_content, called_isLocked]

theorem listEntry_eq (s : State) (e : IndexEntry) :
    s.listEntry e = words32 e.tag ++ words32 e.revision ++
      [e.status.word,
       if e.status = .damaged then 0 else
        (if (s.content e).survey.isSome then 1 else 0) ||| (if (s.content e).drift.isSome then 2 else 0) |||
          (if (s.content e).trim.isSome then 4 else 0),
       if s.isLocked e.tag then 1 else 0] := by
  cases status : e.status with
  | damaged => simp only [State.listEntry, status]; rfl
  | ok => simp only [State.listEntry, status, presence_word, Content.presence]; rfl
  | provisional => simp only [State.listEntry, status, presence_word, Content.presence]; rfl

theorem listEntry_called (s : State) (l : Link) : (s.called l).listEntry = s.listEntry := by
  funext e
  simp only [listEntry_eq, called_content, called_isLocked]

/-- Settles O24: SELECT TILE changes its port's selection; READ RECORD and LIST RECORDS only read. -/
theorem recordReadsAnswer : Obligations.RecordReadsAnswer := by
  intro f s
  refine ⟨fun hi lo takes operands => ?_, fun takes operands => ⟨fun unselected => ?_, fun tag selected absent => ?_,
    fun tag e selected found => ?_⟩, fun hi lo takes operands => ?_⟩
  · rw [exec_selectTile, operands]
    refine congrArg Host.Outcome.next (takeCall_changes (fun u => u.setPort .sl { u.port .sl with
      selection := if hi.toNat * 65536 + lo.toNat = 0 then none else some (hi.toNat * 65536 + lo.toNat) })
      (fun u => reply_setPort (fun p => { p with
        selection := if hi.toNat * 65536 + lo.toNat = 0 then none else some (hi.toNat * 65536 + lo.toNat) })
        _ _ (fun _ => rfl) u .sl) takes (admits_plain rfl) (hasLength_of operands) ?_)
    simp only [ownSelectTile, parseTag, nat32, called_findEntry, markWord_decide _ (isSome_findEntry _ _)]
  · rw [exec_readRecord]
    refine congrArg Host.Outcome.next (takeCall_declines takes (admits_plain rfl) (hasLength_of operands) ?_)
    have selection : ((s.called .sl).port .sl).selection = none := by rw [port_called]; exact unselected
    rw [ownReadRecord, selection]
  · rw [exec_readRecord]
    refine congrArg Host.Outcome.next (takeCall_declines takes (admits_plain rfl) (hasLength_of operands) ?_)
    have selection : ((s.called .sl).port .sl).selection = some tag := by rw [port_called]; exact selected
    rw [ownReadRecord, selection]
    simp only [called_findEntry, absent]
  · rw [exec_readRecord]
    refine congrArg Host.Outcome.next (takeCall_answers takes (admits_plain rfl) (hasLength_of operands) ?_)
    have selection : ((s.called .sl).port .sl).selection = some tag := by rw [port_called]; exact selected
    rw [ownReadRecord, selection]
    simp only [called_findEntry, found]
    rw [recordWords_called, recordWords_eq, findEntry_tag found]
  · rw [exec_listRecords, operands]
    refine congrArg Host.Outcome.next (takeCall_answers takes (admits_plain rfl) (hasLength_of operands) ?_)
    simp only [ownListRecords, parseTag, nat32, called_pool, listEntry_called, Config.listEntries, List.length_take,
      Nat.min_comm 32]
    have more (n : Nat) : markWord (decide (min n 32 < n)) = if 32 < n then 1 else 0 :=
      markWord_decide _ (by rw [decide_eq_true_iff]; omega)
    rw [more, funext (listEntry_eq s)]
    rfl

end Sys2Proof.Machine
end

section
/-! PROOFS. The survey station's calls that start work: SET WATERMARK (O25), ERASE RECORD (O27), AUDIT POOL (O28) and
SAVE SETTINGS (O29). -/
namespace Sys2Proof.Machine

/-! ### SET WATERMARK -/

theorem exec_setWatermark (l : Link) (f : Frame) (s : State) : exec (.setWatermark l f) s =
    .next (takeCall (surveyRow 0x0020 false false) false (hasLength 1) (ownSetWatermark f.operands) l f s) := rfl

/-- POOL_LOW evaluated: raised when the condition becomes true (R11). -/
theorem evalLow_eq (s : State) : s.evalLow =
    if decide (s.pool.free.length < s.settings.watermark) && !s.pool.low then
      { s with pool := { s.pool with low := decide (s.pool.free.length < s.settings.watermark) } }.raiseDlSl .poolLow
    else { s with pool := { s.pool with low := decide (s.pool.free.length < s.settings.watermark) } } := by
  unfold State.evalLow
  dsimp only
  by_cases h : decide (s.pool.free.length < s.settings.watermark) = true ∧ s.pool.low = false
  · rw [if_pos h, if_pos (by simpa using h)]
  · rw [if_neg h, if_neg (by simpa using h)]

/-- A port with a notice raised if a condition holds. -/
def Port.raiseIf (c : Bool) (n : Notice) (p : Port) : Port := { p with flags := if c then p.flags ||| n.word else p.flags }

theorem hasFlag_raiseIf (c : Bool) (n m : Notice) (p : Port) :
    (p.raiseIf c n).hasFlag m = (p.hasFlag m || (c && decide (m = n))) := by
  cases c with
  | false => simp [Port.raiseIf, Port.hasFlag]
  | true => exact hasFlag_raise p m n

/-- What SET WATERMARK makes of a state `u`, over the pool of `s` (R11). -/
def State.watermarked (s : State) (watermark : Nat) (u : State) : State :=
  let low := decide (s.pool.free.length < watermark)
  { u with
    settings := { s.settings with watermark := watermark }, pool := { s.pool with low := low }
    dl := u.dl.raiseIf (low && !s.pool.low) .poolLow, sl := u.sl.raiseIf (low && !s.pool.low) .poolLow }

theorem evalLow_watermark (s : State) (watermark : Nat) :
    { s with settings := { s.settings with watermark := watermark } }.evalLow = s.watermarked watermark s := by
  rw [evalLow_eq, State.watermarked]
  dsimp only
  cases decide (s.pool.free.length < watermark) && !s.pool.low <;> rfl

/-- Settles O25: the effect is the watermark and the evaluation of POOL_LOW, which touches the two links' flags alone. -/
theorem setWatermarkEvaluatesThePool : Obligations.SetWatermarkEvaluatesThePool := by
  intro f w s takes operands
  refine ⟨fun large => ?_, fun small => ?_⟩
  · rw [exec_setWatermark, operands]
    refine congrArg Host.Outcome.next (takeCall_declines takes (admits_plain rfl) (hasLength_of operands) ?_)
    rw [ownSetWatermark, if_pos large]
  · have raised := takeCall_changes (c := surveyRow 0x0020 false false) (od := false) (len := hasLength 1)
      (own := ownSetWatermark [w]) (s.watermarked w.toNat)
      (fun _ => rfl) takes (admits_plain rfl) (hasLength_of operands)
      (by rw [ownSetWatermark, if_neg (Nat.not_lt.mpr small)]; exact congrArg _ (evalLow_watermark (s.called .sl) w.toNat))
    refine ⟨_, congrArg Host.Outcome.next (operands ▸ raised), rfl, rfl, fun l other => ?_, rfl, fun l n other => ?_⟩
    · cases l with
      | pl => exact absurd rfl other
      | dl => exact (hasFlag_raiseIf _ _ _ _).trans (by simp; rfl)
      | sl => exact (hasFlag_raiseIf _ _ _ _).trans (by simp; rfl)
    · cases l with
      | pl => rfl
      | dl => exact (hasFlag_raiseIf _ _ _ _).trans (by simp [other]; rfl)
      | sl => exact (hasFlag_raiseIf _ _ _ _).trans (by simp [other]; rfl)

/-! ### ERASE RECORD -/

theorem exec_eraseRecord (l : Link) (f : Frame) (s : State) : exec (.eraseRecord l f) s =
    .next (takeCall (surveyRow 0x0022 true true) false (hasLength 2) (ownEraseRecord l f.operands) l f s) := rfl

theorem isSome_placeFrom {α : Type} (p : α → Bool) (i : Nat) (l : List α) :
    (placeFrom p i l).isSome = true ↔ ∃ a ∈ l, p a = true := by
  induction l generalizing i with
  | nil => simp [placeFrom]
  | cons a l ih =>
    unfold placeFrom
    by_cases h : p a = true
    · simp [h]
    · simp [h, ih]

theorem isSome_positionOf (s : State) (tag : Nat) :
    (s.positionOf tag).isSome = true ↔ ∃ p ∈ s.positions, p.hung.tag = some tag := by
  simp [State.positionOf, positionIn, isSome_placeFrom]

/-- A call of SL that starts a job and that the show lock refuses, when neither keeps it out. -/
theorem admits_locked {s : State} {c : CallRow} {l : Link} (permits : c.permits l = true) (unlocked : s.showLock = false)
    (free : (s.port l).job = none) : s.Admits c l :=
  ⟨permits, fun _ locked => by simp [unlocked] at locked, fun _ => free⟩

/-- A call that starts a job and that the show lock lets pass. -/
theorem admits_job {s : State} {c : CallRow} {l : Link} (permits : c.permits l = true) (locked : c.locked = false)
    (free : (s.port l).job = none) : s.Admits c l :=
  ⟨permits, fun _ _ h => by simp [locked] at h, fun _ => free⟩

/-- Settles O27: three refusals in their order, else the job and its one request. -/
theorem eraseRecordQueuesItsWrite : Obligations.EraseRecordQueuesItsWrite := by
  intro f hi lo s takes unlocked free operands
  have admits : s.Admits (surveyRow 0x0022 true true) .sl := admits_locked rfl unlocked free
  have hlen := hasLength_of operands
  rw [exec_eraseRecord, operands]
  refine congrArg Host.Outcome.next ?_
  have own : ownEraseRecord .sl [hi, lo] (s.called .sl) = (
      let tag := hi.toNat * 65536 + lo.toNat
      if s.isLocked tag then .refuse .recordBusy []
      else if (s.findEntry tag).isNone then .refuse .noRecord []
      else if ∃ p ∈ s.positions, p.hung.tag = some tag then .refuse .tilePlaced []
      else .accept .ok [] (((s.called .sl).startJob .sl (.erase tag)).request .sl (.remove tag))) := by
    have placed : ((s.called .sl).positionOf (hi.toNat * 65536 + lo.toNat)).isSome = true ↔
        ∃ p ∈ s.positions, p.hung.tag = some (hi.toNat * 65536 + lo.toNat) := isSome_positionOf s _
    simp only [ownEraseRecord, parseTag, nat32, called_isLocked, called_findEntry, placed]
  dsimp only at own ⊢
  split
  · next busy => exact takeCall_declines takes admits hlen (own.trans (if_pos busy))
  · next idle =>
    rw [if_neg idle] at own
    split
    · next absent => exact takeCall_declines takes admits hlen (own.trans (if_pos absent))
    · next found =>
      rw [if_neg found] at own
      split
      · next placed => exact takeCall_declines takes admits hlen (own.trans (if_pos placed))
      · next unplaced =>
        exact takeCall_changes (fun u => { u.setPort .sl { u.port .sl with
            job := some { detached := false, committed := false, work := .erase (hi.toNat * 65536 + lo.toNat) } } with
          nvPort := { s.nvPort with waiting := s.nvPort.waiting ++ [⟨.sl, .remove (hi.toNat * 65536 + lo.toNat)⟩] } })
          (fun _ => rfl) takes admits hlen (own.trans (if_neg unplaced))

/-! ### SAVE SETTINGS -/

theorem exec_saveSettings (l : Link) (f : Frame) (s : State) : exec (.saveSettings l f) s =
    .next (takeCall (bothRow 0x002A true true) false (hasLength 0) (ownSaveSettings l) l f s) := rfl

theorem saving_iff (p : Port) : p.saving = true ↔ ∃ j v, p.job = some j ∧ j.work = .save v := by
  unfold Port.saving
  cases job : p.job with
  | none => simp
  | some j => cases work : j.work <;> simp [work]

/-- Settles O29: the other link's save refuses it, else the job, its image and the request for settings cell 0. -/
theorem saveSettingsTakesItsImage : Obligations.SaveSettingsTakesItsImage := by
  intro l m f s links takes free operands
  have other : otherLink l = m ∧ ((s.called l).port m) = s.port m := by
    rcases links with ⟨rfl, rfl⟩ | ⟨rfl, rfl, _⟩ <;> exact ⟨rfl, rfl⟩
  have admits : s.Admits (bothRow 0x002A true true) l := by
    rcases links with ⟨rfl, _⟩ | ⟨rfl, _, unlocked⟩
    · exact ⟨rfl, nofun, fun _ => free⟩
    · exact admits_locked rfl unlocked free
  rw [exec_saveSettings]
  refine ⟨fun busy => ?_, fun idle => ?_⟩
  · refine congrArg Host.Outcome.next (takeCall_declines takes admits (hasLength_of operands) ?_)
    rw [ownSaveSettings, other.1, other.2, if_pos ((saving_iff _).mpr busy)]
  · refine congrArg Host.Outcome.next (takeCall_changes (fun u => { u.setPort l { u.port l with job := some ⟨false, false, .save
        { image := s.settings, cell := 0, written := 0, cellRewrites := 0, rewrites := 0 }⟩ } with
      nvPort := { s.nvPort with waiting := s.nvPort.waiting ++ [⟨l, .settings 0 s.settings⟩] } })
      (fun u => by cases l <;> rfl) takes admits (hasLength_of operands) ?_)
    have notSaving : ¬(s.port m).saving = true := fun saving => by
      obtain ⟨j, v, job, work⟩ := (saving_iff _).mp saving
      exact idle j v job work
    rw [ownSaveSettings, other.1, other.2, if_neg notSaving]
    cases l <;> rfl

/-! ### AUDIT POOL -/

theorem exec_auditPool (l : Link) (f : Frame) (s : State) : exec (.auditPool l f) s =
    .next (takeCall (surveyRow 0x0023 true false) false (hasLength 0) (ownAuditPool l) l f s) := rfl

/-- The audit passes a record over: it is DAMAGED or locked (R20). -/
def State.passesOver (s : State) (e : IndexEntry) : Bool := decide (e.status = .damaged) || s.isLocked e.tag

/-- An audit that has passed records over: the last of them handled, the locked ones counted, no lock held (R20). -/
def AuditWork.past (a : AuditWork) (passed : List IndexEntry) : AuditWork :=
  { a with
    last := (passed.getLast?.map IndexEntry.tag).getD a.last
    skipped := a.skipped + (passed.filter (fun e => decide (e.status ≠ .damaged))).length
    reading := none }

theorem past_nil (a : AuditWork) (idle : a.reading = none) : a.past [] = a := by
  cases a
  cases idle
  rfl

theorem past_damaged (a : AuditWork) (e : IndexEntry) (es : List IndexEntry) (damaged : e.status = .damaged) :
    ({ a with last := e.tag, reading := none } : AuditWork).past es = a.past (e :: es) := by
  cases es <;> simp [AuditWork.past, damaged, List.getLast?_cons]

theorem past_locked (a : AuditWork) (e : IndexEntry) (es : List IndexEntry) (sound : e.status ≠ .damaged) :
    ({ a with last := e.tag, skipped := a.skipped + 1, reading := none } : AuditWork).past es = a.past (e :: es) := by
  cases es <;> simp [AuditWork.past, sound, List.getLast?_cons, Nat.add_assoc, Nat.add_comm]

/-- One record passed over. -/
theorem auditNext_passes {s : State} {e : IndexEntry} (h : s.passesOver e = true) (l : Link) (rest : List IndexEntry)
    (a : AuditWork) : ∃ b : AuditWork, auditNext l (e :: rest) a s = auditNext l rest b s ∧
      b.reading = none ∧ ∀ es, b.past es = a.past (e :: es) := by
  by_cases damaged : e.status = .damaged
  · exact ⟨_, by rw [auditNext, damaged], rfl, fun es => past_damaged a e es damaged⟩
  · have locked : s.isLocked e.tag = true := by simpa [State.passesOver, damaged] using h
    refine ⟨_, ?_, rfl, fun es => past_locked a e es damaged⟩
    rw [auditNext]
    cases status : e.status with
    | damaged => exact absurd status damaged
    | ok => simp only [if_pos locked]
    | provisional => simp only [if_pos locked]

/-- The audit goes on past the records it passes over. -/
theorem auditNext_append {s : State} (l : Link) (passed rest : List IndexEntry)
    (h : ∀ e ∈ passed, s.passesOver e = true) (a : AuditWork) (idle : a.reading = none) :
    auditNext l (passed ++ rest) a s = auditNext l rest (a.past passed) s := by
  induction passed generalizing a with
  | nil => rw [past_nil a idle]; rfl
  | cons e es ih =>
    obtain ⟨b, passes, bIdle, past⟩ := auditNext_passes (h e List.mem_cons_self) l (es ++ rest) a
    rw [List.cons_append, passes, ih (fun x hx => h x (List.mem_cons_of_mem _ hx)) b bIdle, past]

/-- The first record it does not pass over is read from its head (R20). -/
theorem auditNext_reads {s : State} {e : IndexEntry} (h : s.passesOver e = false) (l : Link) (rest : List IndexEntry)
    (a : AuditWork) : auditNext l (e :: rest) a s =
      (s.setWork l (.audit { a with last := e.tag, reading := some ⟨e.tag, e.head, [], [], false⟩ })).request l
        (.checkRead e.head) := by
  obtain ⟨sound, unlocked⟩ : ¬e.status = .damaged ∧ s.isLocked e.tag = false := by
    simpa [State.passesOver] using h
  rw [auditNext]
  cases status : e.status with
  | damaged => exact absurd status sound
  | ok => simp only [unlocked]; rfl
  | provisional => simp only [unlocked]; rfl

/-! ### Locks (R7) -/

theorem mem_works (s : State) (w : JobWork) : w ∈ s.works ↔ ∃ l j, (s.port l).job = some j ∧ j.work = w := by
  simp only [State.works, List.mem_append, Option.mem_toList, Option.map_eq_some_iff]
  constructor
  · rintro ((h | h) | h)
    · exact ⟨.pl, h⟩
    · exact ⟨.dl, h⟩
    · exact ⟨.sl, h⟩
  · rintro ⟨l, h⟩
    cases l with
    | pl => exact .inl (.inl h)
    | dl => exact .inl (.inr h)
    | sl => exact .inr h

/-- A tag is locked by a running job, or by a swap whose hang has ended. -/
theorem isLocked_iff (s : State) (tag : Nat) : s.isLocked tag = true ↔
    (∃ l j, (s.port l).job = some j ∧ j.work.lock = some tag) ∨ ∃ w, s.nvPort.orphan = some w ∧ w.tag = tag := by
  simp only [State.isLocked, State.locks, List.contains_iff_mem, List.mem_append, List.mem_filterMap, mem_works,
    Option.mem_toList, Option.map_eq_some_iff]
  constructor
  · rintro (⟨w, ⟨l, j, job, rfl⟩, lock⟩ | h)
    · exact .inl ⟨l, j, job, lock⟩
    · exact .inr h
  · rintro (⟨l, j, job, lock⟩ | h)
    · exact .inl ⟨_, ⟨l, j, job, rfl⟩, lock⟩
    · exact .inr h

/-- A port whose work locks no tag leaves the locks to the others. -/
theorem isLocked_setPort_iff (s : State) (l : Link) (p : Port) (tag : Nat)
    (unlocked : ∀ j, p.job = some j → j.work.lock = none) : (s.setPort l p).isLocked tag = true ↔
      (∃ m j, m ≠ l ∧ (s.port m).job = some j ∧ j.work.lock = some tag) ∨ ∃ w, s.nvPort.orphan = some w ∧ w.tag = tag := by
  rw [isLocked_iff, State.setPort_nvPort]
  refine or_congr ⟨fun ⟨m, j, job, lock⟩ => ?_, fun ⟨m, j, other, job, lock⟩ => ⟨m, j, ?_, lock⟩⟩ Iff.rfl
  · by_cases same : m = l
    · rw [same, State.port_setPort] at job
      rw [unlocked j job] at lock
      cases lock
    · rw [State.port_setPort_of_ne s l m p same] at job
      exact ⟨m, j, same, job, lock⟩
  · rw [State.port_setPort_of_ne s l m p other]
    exact job

/-! ### An audit that goes on (R20) -/

theorem setWork_eq {s : State} {l : Link} {j : Job} (job : (s.port l).job = some j) (w : JobWork) :
    s.setWork l w = s.setPort l { s.port l with job := some { j with work := w } } := by
  rw [State.setWork, job]
  rfl

theorem finishJob_attached {s : State} {l : Link} {j : Job} (job : (s.port l).job = some j) (attached : j.detached = false)
    (st : JobState) (res : ResultCode) (fields : JobFields) :
    s.finishJob l st res fields = s.setPort l { s.port l with
      job := none, record := ⟨st, res, j.committed, fields⟩, flags := (s.port l).flags ||| Notice.jobDone.word } := by
  simp [State.finishJob, job, attached, State.raise, Port.raise]

theorem finishJob_detached {s : State} {l : Link} {j : Job} (job : (s.port l).job = some j) (detached : j.detached = true)
    (st : JobState) (res : ResultCode) (fields : JobFields) :
    s.finishJob l st res fields = s.setPort l { s.port l with job := none } := by
  simp [State.finishJob, job, detached, State.setJob]

section
variable {s : State} {l : Link} {j : Job} {a : AuditWork} {skip : IndexEntry → Bool} {later passed : List IndexEntry}

/-- The state in which an audit looks for the next record: its own lock released. -/
theorem auditAdvance_eq (s : State) (l : Link) (a : AuditWork) :
    s.auditAdvance l a = auditNext l (s.pool.index.filter (fun e => decide (a.last < e.tag))) { a with reading := none }
      (s.setWork l (.audit { a with reading := none })) := rfl

/-- An audit that finds a record to read (R20). -/
theorem auditAdvance_reads (job : (s.port l).job = some j)
    (passes : ∀ e ∈ s.pool.index, a.last < e.tag →
      (s.setWork l (.audit { a with reading := none })).passesOver e = skip e)
    (hlater : later = s.pool.index.filter (fun e => decide (a.last < e.tag))) (hpassed : passed = later.takeWhile skip)
    {e : IndexEntry} {rest : List IndexEntry} (found : later = passed ++ e :: rest) :
    s.auditAdvance l a =
      { s.setPort l { s.port l with job := some { j with work := .audit { a with
          last := e.tag, skipped := a.skipped + (passed.filter (fun e => decide (e.status ≠ .damaged))).length
          reading := some ⟨e.tag, e.head, [], [], false⟩ } } } with
        nvPort := { s.nvPort with waiting := s.nvPort.waiting ++ [⟨l, .checkRead e.head⟩] } } := by
  have inIndex : ∀ x ∈ later, (s.setWork l (.audit { a with reading := none })).passesOver x = skip x := fun x hx => by
    rw [hlater, List.mem_filter, decide_eq_true_eq] at hx
    exact passes x hx.1 hx.2
  have isOver : ∀ x ∈ passed, (s.setWork l (.audit { a with reading := none })).passesOver x = true := fun x hx => by
    rw [inIndex x (found ▸ List.mem_append_left _ hx)]
    exact pass_of_mem_takeWhile (hpassed ▸ hx)
  have notOver : (s.setWork l (.audit { a with reading := none })).passesOver e = false := by
    rw [inIndex e (found ▸ List.mem_append_right _ List.mem_cons_self)]
    have stops : later.dropWhile skip = e :: rest := by
      have split := List.takeWhile_append_dropWhile (p := skip) (l := later)
      rw [← hpassed] at split
      exact List.append_cancel_left (split.trans found)
    have := List.head_dropWhile_not skip (l := later) (by rw [stops]; exact List.cons_ne_nil _ _)
    simpa [stops] using this
  rw [auditAdvance_eq, ← hlater, found, auditNext_append l passed (e :: rest) isOver _ rfl, auditNext_reads notOver,
    setWork_eq job]
  rw [setWork_eq (j := { j with work := .audit { a with reading := none } }) (by rw [State.port_setPort])]
  rw [State.setPort_setPort, State.port_setPort]
  cases l <;> rfl

/-- An audit with no record left to read ends DONE (R20). -/
theorem auditAdvance_ends (job : (s.port l).job = some j) (attached : j.detached = false)
    (passes : ∀ e ∈ s.pool.index, a.last < e.tag →
      (s.setWork l (.audit { a with reading := none })).passesOver e = skip e)
    (hlater : later = s.pool.index.filter (fun e => decide (a.last < e.tag))) (hpassed : passed = later.takeWhile skip)
    (whole : later = passed) :
    s.auditAdvance l a = s.setPort l { s.port l with
      job := .none
      record := ⟨.done, .none, j.committed, .audit ((passed.getLast?.map IndexEntry.tag).getD a.last) a.checked a.damaged
        (a.skipped + (passed.filter (fun e => decide (e.status ≠ .damaged))).length) (some s.pool.retired.length)⟩
      flags := (s.port l).flags ||| Notice.jobDone.word } := by
  have isOver : ∀ x ∈ later, (s.setWork l (.audit { a with reading := .none })).passesOver x = true := fun x hx => by
    have skipped : skip x = true := pass_of_mem_takeWhile (hpassed ▸ whole ▸ hx)
    rw [hlater, List.mem_filter, decide_eq_true_eq] at hx
    rw [passes x hx.1 hx.2, skipped]
  have append := auditNext_append l later [] isOver { a with reading := .none } rfl
  rw [List.append_nil] at append
  rw [auditAdvance_eq, ← hlater, append, auditNext, whole, setWork_eq job]
  rw [finishJob_attached (j := { j with work := .audit { a with reading := .none } }) (by rw [State.port_setPort])
    attached]
  rw [State.setPort_setPort, State.port_setPort]
  simp [AuditWork.past, State.retiredCount]

end

/-! ### AUDIT POOL -/

/-- An audit at its start (R20). -/
def AuditWork.start : AuditWork := { last := 0, checked := 0, damaged := 0, skipped := 0, reading := none }

theorem isLocked_setPort_of_unlocked {s : State} {l : Link} {p : Port} (before : ∀ j, (s.port l).job = some j → j.work.lock = none)
    (after : ∀ j, p.job = some j → j.work.lock = none) (tag : Nat) : (s.setPort l p).isLocked tag = s.isLocked tag := by
  rw [Bool.eq_iff_iff, isLocked_setPort_iff s l p tag after, ← isLocked_setPort_iff s l (s.port l) tag before,
    State.setPort_port]

section
variable {f : Frame} {s : State} {passed : List IndexEntry}

theorem passesOver_auditStart (free : (s.port .sl).job = none) (e : IndexEntry) :
    (((s.called .sl).startJob .sl (.audit .start)).setWork .sl (.audit .start)).passesOver e = s.passesOver e := by
  have locks : (((s.called .sl).startJob .sl (.audit .start)).setWork .sl (.audit .start)).isLocked e.tag =
      s.isLocked e.tag :=
    isLocked_setPort_of_unlocked (s := s) (l := .sl)
      (p := { (s.port .sl).heard.countTaken with job := some ⟨false, false, .audit .start⟩ })
      (fun j job => by rw [free] at job; cases job) (fun j job => by cases job; rfl) e.tag
  rw [State.passesOver, State.passesOver, locks]

theorem auditPool_reads (takes : s.takes .sl f 0x23 = true) (free : (s.port .sl).job = none) (operands : f.operands = [])
    (hpassed : passed = (s.pool.index.filter (fun e => decide (0 < e.tag))).takeWhile s.passesOver)
    {e : IndexEntry} {rest : List IndexEntry} (found : s.pool.index.filter (fun e => decide (0 < e.tag)) = passed ++ e :: rest) :
    exec (.auditPool .sl f) s = .next { s with
      sl := { (s.answered .sl .ok []).sl with job := some ⟨false, false, .audit { AuditWork.start with
        last := e.tag, skipped := 0 + (passed.filter (fun e => decide (e.status ≠ .damaged))).length
        reading := some ⟨e.tag, e.head, [], [], false⟩ }⟩ }
      nvPort := { s.nvPort with waiting := s.nvPort.waiting ++ [⟨.sl, .checkRead e.head⟩] } } := by
  have advance := auditAdvance_reads (s := (s.called .sl).startJob .sl (.audit .start)) (l := .sl)
    (j := ⟨false, false, .audit .start⟩) (a := .start) (skip := s.passesOver) rfl
    (fun e _ _ => passesOver_auditStart free e) rfl hpassed found
  rw [exec_auditPool]
  refine congrArg Host.Outcome.next (takeCall_changes (fun u => { u with
    sl := { u.sl with job := some ⟨false, false, .audit { AuditWork.start with
      last := e.tag, skipped := 0 + (passed.filter (fun e => decide (e.status ≠ .damaged))).length
      reading := some ⟨e.tag, e.head, [], [], false⟩ }⟩ }
    nvPort := { s.nvPort with waiting := s.nvPort.waiting ++ [⟨.sl, .checkRead e.head⟩] } }) (fun _ => rfl) takes
    (admits_job rfl rfl free) (hasLength_of operands) ?_)
  exact congrArg (Answer.accept .ok []) advance

theorem auditPool_ends (takes : s.takes .sl f 0x23 = true) (free : (s.port .sl).job = none) (operands : f.operands = [])
    (hpassed : passed = (s.pool.index.filter (fun e => decide (0 < e.tag))).takeWhile s.passesOver)
    (whole : s.pool.index.filter (fun e => decide (0 < e.tag)) = passed) :
    exec (.auditPool .sl f) s = .next { s with
      sl := { (s.answered .sl .ok []).sl with
        job := none
        record := ⟨.done, .none, false, .audit ((passed.getLast?.map IndexEntry.tag).getD 0) 0 0
          (0 + (passed.filter (fun e => decide (e.status ≠ .damaged))).length) (some s.pool.retired.length)⟩
        flags := s.sl.flags ||| Notice.jobDone.word } } := by
  have advance := auditAdvance_ends (s := (s.called .sl).startJob .sl (.audit .start)) (l := .sl)
    (j := ⟨false, false, .audit .start⟩) (a := .start) (skip := s.passesOver) rfl rfl
    (fun e _ _ => passesOver_auditStart free e) rfl hpassed whole
  rw [exec_auditPool]
  refine congrArg Host.Outcome.next (takeCall_changes (fun u => { u with
    sl := { u.sl with
      job := none
      record := ⟨.done, .none, false, .audit ((passed.getLast?.map IndexEntry.tag).getD 0) 0 0
        (0 + (passed.filter (fun e => decide (e.status ≠ .damaged))).length) (some s.pool.retired.length)⟩
      flags := s.sl.flags ||| Notice.jobDone.word } }) (fun _ => rfl) takes
    (admits_job rfl rfl free) (hasLength_of operands) ?_)
  exact congrArg (Answer.accept .ok []) advance

end

theorem hasFlag_jobDone {p : Port} {flags : BitVec 16} (h : p.flags = flags ||| Notice.jobDone.word) :
    p.hasFlag .jobDone = true := by
  rw [Port.hasFlag, h, BitVec.getLsbD_or, getLsbD_noticeWord]
  simp

theorem append_cons_ne_self {α : Type} (l rest : List α) (a : α) : l ++ a :: rest ≠ l := by simp

/-- A list is passed over whole, or up to the first entry it does not pass over. -/
theorem takeWhile_cases {α : Type} (p : α → Bool) (l : List α) :
    l = l.takeWhile p ∨ ∃ a rest, l = l.takeWhile p ++ a :: rest := by
  have split := List.takeWhile_append_dropWhile (p := p) (l := l)
  cases rest : l.dropWhile p with
  | nil =>
    rw [rest, List.append_nil] at split
    exact .inl split.symm
  | cons a rest' =>
    rw [rest] at split
    exact .inr ⟨a, rest', split.symm⟩

/-- Settles O28: the walk begins past the DAMAGED and locked records before the first one it reads, or ends. -/
theorem auditPoolStartsAtTheLowestTag : Obligations.AuditPoolStartsAtTheLowestTag := by
  intro f s takes free operands
  refine ⟨fun empty => ?_, fun e rest index positive sound unlocked => ?_, ?_⟩
  · have ends := auditPool_ends takes free operands rfl (by rw [empty]; rfl)
    simp only [empty, List.filter_nil, List.takeWhile_nil] at ends
    exact ⟨_, ends, rfl, rfl, hasFlag_jobDone rfl, rfl⟩
  · have notOver : s.passesOver e = false := by simp [State.passesOver, sound, unlocked]
    have passed : (s.pool.index.filter (fun e => decide (0 < e.tag))).takeWhile s.passesOver = [] := by
      simp [index, positive, notOver]
    have reads := auditPool_reads (rest := rest.filter (fun e => decide (0 < e.tag))) (e := e) takes free operands
      passed.symm (by simp [index, positive])
    exact ⟨_, reads, rfl, rfl, rfl⟩
  · rcases takeWhile_cases s.passesOver (s.pool.index.filter (fun e => decide (0 < e.tag))) with whole | ⟨e, rest, found⟩
    · refine ⟨_, auditPool_ends takes free operands rfl whole, ⟨fun e rest found => ?_, fun _ => ?_⟩, rfl⟩
      · exact absurd (found.symm.trans whole) (append_cons_ne_self _ rest e)
      · exact ⟨rfl, hasFlag_jobDone rfl, rfl, rfl⟩
    · refine ⟨_, auditPool_reads takes free operands rfl found, ⟨fun e' rest' found' => ?_, fun whole => ?_⟩, rfl⟩
      · have same := List.append_cancel_left (found.symm.trans found')
        cases same
        exact ⟨rfl, rfl, rfl⟩
      · exact absurd (found.symm.trans whole) (append_cons_ne_self _ rest e)

end Sys2Proof.Machine
end

section
/-! PROOFS. Power loss (O4), and what the link checks answer before a call's own checks (O7, O8). -/
namespace Sys2Proof.Machine

/-! ### POWER_LOSS -/

theorem exec_powerLoss {s : State} (powered : s.power ≠ .off) :
    exec .powerLoss s = .next { State.powerUp s.tornNv s.pending with power := .off } := by
  refine congrArg Host.Outcome.next ?_
  cases power : s.power with
  | off => exact absurd power powered
  | starting => rfl
  | on => rfl

/-- Of the stored tables a power loss touches the one cell that is being written (R10). -/
theorem tornNv_tables (s : State) :
    s.tornNv.chain = s.nv.chain ∧ s.tornNv.index = s.nv.index ∧ s.tornNv.counter = s.nv.counter := by
  unfold State.tornNv
  split
  · exact ⟨rfl, rfl, rfl⟩
  · split <;> exact ⟨rfl, rfl, rfl⟩

theorem tornNv_idle {s : State} (idle : s.nvPort.current = none) : s.tornNv = s.nv := by rw [State.tornNv, idle]

theorem tornNv_cellWrite {s : State} {r : NvCurrent} (current : s.nvPort.current = some r) {c : Nat} {g : Group}
    (op : r.req.op = .cellWrite c g) : s.tornNv = { s.nv with cells := mapErase c s.nv.cells } := by
  simp only [State.tornNv, current, op]

theorem tornNv_settings {s : State} {r : NvCurrent} (current : s.nvPort.current = some r) {c : Nat} {i : Settings}
    (op : r.req.op = .settings c i) :
    s.tornNv = { s.nv with settings := updateAt (fun _ => none) c s.nv.settings } := by
  simp only [State.tornNv, current, op]

theorem tornNv_other {s : State} {r : NvCurrent} (current : s.nvPort.current = some r)
    (notCell : ∀ c g, r.req.op ≠ .cellWrite c g) (notSettings : ∀ c i, r.req.op ≠ .settings c i) : s.tornNv = s.nv := by
  rw [State.tornNv, current]
  cases op : r.req.op with
  | cellWrite c g => exact absurd op (notCell c g)
  | settings c i => exact absurd op (notSettings c i)
  | retire c => simp only [op]
  | chainEntry c e => simp only [op]
  | swap => simp only [op]
  | remove tag => simp only [op]
  | damage tag => simp only [op]
  | checkRead c => simp only [op]

/-- Settles O4: what is left is the part at power-up, off, over the torn memory. -/
theorem powerLossTearsOnlyTheCellWritten : Obligations.PowerLossTearsOnlyTheCellWritten := by
  intro s powered
  obtain ⟨chain, index, counter⟩ := tornNv_tables s
  refine ⟨_, exec_powerLoss powered, rfl, chain, index, counter, fun r current =>
    ⟨fun c g op => ?_, fun c i op => ?_, tornNv_other current⟩, tornNv_idle, rfl, rfl, rfl, rfl,
    fun l => by cases l <;> rfl, rfl⟩
  · have torn := tornNv_cellWrite current op
    have kept : s.tornNv.settings = s.nv.settings := by rw [torn]
    refine ⟨?_, kept, fun d other => ?_⟩
    · exact (congrArg (mapGet c) (congrArg NvMemory.cells torn)).trans (mapGet_mapErase_same c _)
    · exact (congrArg (mapGet d) (congrArg NvMemory.cells torn)).trans (mapGet_mapErase_other c d _ other)
  · have torn := tornNv_settings current op
    have kept : s.tornNv.cells = s.nv.cells := by rw [torn]
    refine ⟨kept, fun d => ?_⟩
    refine (congrArg (fun m => m[d]?) (congrArg NvMemory.settings torn)).trans ?_
    dsimp only
    rw [getElem?_updateAt]
    by_cases at_d : d = c
    · subst at_d
      rcases Nat.lt_or_ge d s.nv.settings.length with inside | outside
      · simp [inside]
      · simp [Nat.not_lt.mpr outside]
    · simp [at_d, Ne.symm at_d]

/-! ### The catalogue and the meanings -/

/-- `row` is what the catalogue says of the call `c`. -/
structure CallRow.Describes (row : CallRow) (c : Call) : Prop where
  code : row.code = c.code
  permits : row.permits c.link = c.permitted
  job : row.job = c.job
  locked : row.locked = c.locked

theorem describes_listed (row : CallRow) (l : Link) (f : Frame) (length : Bool) :
    row.Describes (.listed l f row.code (row.pl, row.dl, row.sl) row.job row.locked length) :=
  ⟨rfl, by cases l <;> rfl, rfl, rfl⟩

/-- The meaning of a call takes its frame by the catalogue's row; TERMS alone is judged in DOWN. -/
theorem exec_call {i : Instr} {c : Call} (h : callOf i = some c) (s : State) :
    ∃ (row : CallRow) (opensDown : Bool) (len : List Word → Bool) (own : State → Answer),
      exec i s = .next (takeCall row opensDown len own c.link c.frame s) ∧ row.Describes c ∧
        len c.frame.operands = c.lengthOk ∧ opensDown = decide (c.code = 1) := by
  cases i <;> cases h <;> exact ⟨_, _, _, _, rfl, describes_listed _ _ _ _, rfl, rfl⟩

theorem not_listed {code : Word} (nonzero : code ≠ 0) (unlisted : knownCode code = false) :
    ¬(code = 0 ∨ knownCode code = true) := fun h =>
  h.elim nonzero (fun listed => by rw [unlisted] at listed; cases listed)

/-! ### Closed ports -/

theorem reply_closed {s : State} {l : Link} {st : Status} (closed : (s.port l).state.isOpen = false) :
    (s.setPort l (s.port l).heard).reply l st [] = s.turnedAway l st := by
  simp [State.reply, State.turnedAway, Port.stage, Port.replied, closed]

theorem takeFrame_starting {code : Word} {opensDown : Bool} {judged : State → State} {l : Link} {f : Frame} {s : State}
    (hears : s.hears l f = true) (starting : (s.port l).state = .starting) :
    takeFrame code opensDown judged l f s = s.turnedAway l .starting := by
  rw [takeFrame_hears code opensDown judged l f s hears, starting]
  exact reply_closed (by rw [starting]; rfl)

theorem takeFrame_down {code : Word} {judged : State → State} {l : Link} {f : Frame} {s : State}
    (hears : s.hears l f = true) (down : (s.port l).state = .down) :
    takeFrame code false judged l f s =
      if frameCheckOk f code then s.turnedAway l .notOpen
      else s.setPort l ((s.port l).heard.refuseLink .badCheck) := by
  rw [takeFrame_hears code false judged l f s hears, down]
  simp only [Bool.false_eq_true, if_false, State.setPort_setPort]
  rw [reply_closed (by rw [down]; rfl)]

/-- Settles O7: STARTING answers every frame alike; DOWN every frame but TERMS, by its check. -/
theorem closedPortsTurnFramesAway : Obligations.ClosedPortsTurnFramesAway := by
  have unknown {l : Link} {code : Word} {f : Frame} {s : State} (nonzero : code ≠ 0) (unlisted : knownCode code = false) :
      exec (.unknownCallFrame l code f) s = .next (takeFrame code false (judgeUnknown code l f) l f s) :=
    congrArg Host.Outcome.next (if_neg (not_listed nonzero unlisted))
  refine ⟨⟨fun i c s listed hears starting => ?_, fun l code f s nonzero unlisted hears starting => ?_⟩,
    ⟨fun i c s listed notTerms hears down => ?_, fun l code f s nonzero unlisted hears down check => ?_⟩⟩
  · obtain ⟨row, opensDown, len, own, done, _, _, _⟩ := exec_call listed s
    rw [done, takeCall, takeFrame_starting hears starting]
  · rw [unknown nonzero unlisted, takeFrame_starting hears starting]
  · obtain ⟨row, opensDown, len, own, done, describes, _, terms⟩ := exec_call listed s
    have closed : opensDown = false := terms.trans (decide_eq_false notTerms)
    subst closed
    rw [takeCall, takeFrame_down hears down, describes.code] at done
    refine ⟨fun check => ?_, fun check => ?_⟩
    · rw [done, if_pos check]
    · rw [check] at done
      refine ⟨_, done, ?_, ?_, fun m other => ?_⟩
      · rw [if_neg Bool.false_ne_true, State.port_setPort]
        simp [Port.refuseLink, Port.stage, Port.countRefused, Port.countBadCheck, down, PortState.isOpen]
      · rw [if_neg Bool.false_ne_true, State.port_setPort]
        rfl
      · rw [if_neg Bool.false_ne_true, State.port_setPort_of_ne _ _ _ _ other]
  · rw [unknown nonzero unlisted, takeFrame_down hears down, if_pos check]

/-! ### The link checks of an open port -/

theorem rejected_eq {s : State} {l : Link} (isOpen : (s.port l).state = .idle ∨ (s.port l).state = .replyPending)
    (st : Status) (count : Counters → Counters) (refused : ∀ k, (count k).refused = k.refused)
    (counts : (s.port l).heard.refuseLink st =
      ({ (s.port l).heard with counters := count (s.port l).heard.counters } : Port).countRefused.stage st []) :
    s.setPort l ((s.port l).heard.refuseLink st) = s.rejected l st count := by
  have opened : (s.port l).state.isOpen = true := by rcases isOpen with h | h <;> rw [h] <;> rfl
  rw [counts]
  simp only [State.rejected, Port.replied, Port.stage, Port.countRefused, heard_state, opened, if_true, refused]

/-- The first of the link checks that fails, in the order of R170, in the statement's terms. -/
theorem linkRefusal_eq (row : CallRow) (len : List Word → Bool) (l : Link) (f : Frame) (s : State) :
    linkRefusal row len l f (s.setPort l (s.port l).heard) =
      if (s.port l).terms.check = .on ∧ frameCheckOk f row.code = false then some .badCheck
      else if len f.operands = false then some .badLength
      else if row.permits l = false then some .notPermitted
      else if l = .sl ∧ s.showLock = true ∧ row.locked = true then some .locked
      else if row.job = true ∧ (s.port l).job.isSome = true then some .jobBusy
      else none := by
  simp only [linkRefusal, State.port_setPort, heard_terms, heard_job, State.setPort_showLock]

theorem takeCall_rejects {row : CallRow} {opensDown : Bool} {len : List Word → Bool} {own : State → Answer} {l : Link}
    {f : Frame} {s : State} (hears : s.hears l f = true)
    (isOpen : (s.port l).state = .idle ∨ (s.port l).state = .replyPending) {st : Status}
    (refused : linkRefusal row len l f (s.setPort l (s.port l).heard) = some st) :
    takeCall row opensDown len own l f s = s.setPort l ((s.port l).heard.refuseLink st) := by
  rw [takeCall, takeFrame_open _ _ _ _ _ _ hears isOpen, judge, refused]
  simp only [State.port_setPort, State.setPort_setPort]

/-- Settles O8: the checks of R170 in their order; each refusal counts what it is. -/
theorem linkChecksRefuseInOrder : Obligations.LinkChecksRefuseInOrder := by
  refine ⟨fun i c s listed hears isOpen => ?_, fun l code f s nonzero unlisted takes => ?_⟩
  · obtain ⟨row, opensDown, len, own, done, describes, length, _⟩ := exec_call listed s
    have refusal := linkRefusal_eq row len c.link c.frame s
    rw [describes.code, describes.permits, describes.job, describes.locked, length] at refusal
    intro badCheck locked busy some
    rw [done]
    refine congrArg Host.Outcome.next ?_
    have rejects (st : Status) (h : linkRefusal row len c.link c.frame (s.setPort c.link (s.port c.link).heard) = .some st) :=
      takeCall_rejects (opensDown := opensDown) (own := own) hears isOpen h
    split
    · next bad =>
      rw [rejects .badCheck (refusal.trans (if_pos bad))]
      exact rejected_eq isOpen _ _ (fun _ => rfl) rfl
    · next good =>
      rw [if_neg good] at refusal
      split
      · next bad =>
        rw [rejects .badLength (refusal.trans (if_pos bad))]
        exact rejected_eq isOpen _ _ (fun _ => rfl) rfl
      · next fits =>
        rw [if_neg fits] at refusal
        split
        · next bad =>
          rw [rejects .notPermitted (refusal.trans (if_pos bad))]
          exact rejected_eq isOpen _ _ (fun _ => rfl) rfl
        · next permitted =>
          rw [if_neg permitted] at refusal
          split
          · next bad =>
            rw [rejects .locked (refusal.trans (if_pos bad))]
            exact rejected_eq isOpen _ _ (fun _ => rfl) rfl
          · next unlocked =>
            rw [if_neg unlocked] at refusal
            have bad : busy := by
              rcases some with h | h | h | h | h
              · exact absurd h good
              · exact absurd h fits
              · exact absurd h permitted
              · exact absurd h unlocked
              · exact h
            rw [rejects .jobBusy (refusal.trans (if_pos bad))]
            exact rejected_eq isOpen _ _ (fun _ => rfl) rfl
  · have right : ¬((s.port l).terms.check = .on ∧ frameCheckOk f code = false) := fun ⟨on, wrong⟩ => by
      rw [check_of_takes takes on] at wrong
      cases wrong
    refine congrArg Host.Outcome.next ((if_neg (not_listed nonzero unlisted)).trans ?_)
    rw [takeFrame_open _ _ _ _ _ _ (hears_of_takes takes) (open_of_takes takes), judgeUnknown]
    simp only [State.port_setPort, State.setPort_setPort, heard_terms, if_neg right]
    exact rejected_eq (open_of_takes takes) _ _ (fun _ => rfl) rfl

end Sys2Proof.Machine
end

section
/-! PROOFS. The survey station's calls on tables, routes and geometry (O30 to O32), and the reads of the wall (O33). -/
namespace Sys2Proof.Machine

/-- A call that the show lock refuses on SL, when it is unlocked. -/
theorem admits_unlocked {s : State} {c : CallRow} {l : Link} (permits : c.permits l = true) (unlocked : s.showLock = false)
    (job : c.job = false := by rfl) : s.Admits c l :=
  ⟨permits, fun _ locked => by simp [unlocked] at locked, fun h => by simp [job] at h⟩

/-! ### SET BATCH DEFAULT and SET WHITE POINT -/

theorem exec_setBatchDefault (l : Link) (f : Frame) (s : State) : exec (.setBatchDefault l f) s =
    .next (takeCall (surveyRow 0x0024 false true) false (hasLength 11) (ownSetBatchDefault f.operands) l f s) := rfl

theorem exec_setWhitePoint (l : Link) (f : Frame) (s : State) : exec (.setWhitePoint l f) s =
    .next (takeCall (surveyRow 0x0025 false true) false (hasLength 4) (ownSetWhitePoint f.operands) l f s) := rfl

/-- What SET BATCH DEFAULT makes of a state: the entry replaced, PENDING re-evaluated where the code is held (R106, R114). -/
def State.batchReplaced (s : State) (code : Nat) (d : BatchDefault) (u : State) : State :=
  let refreshed := { s with settings := { s.settings with batch := s.settings.batch.set code d } }.refreshBatch code
  { u with settings := refreshed.settings, positions := refreshed.positions }

theorem gainsOf_ok (r g b : Word) :
    (gainsOf r g b).ok = true ↔ r.toNat ≤ 4095 ∧ g.toNat ≤ 4095 ∧ b.toNat ≤ 4095 := by
  have word (w : Word) : inRange 0 4095 (w.toNat : Int) = true ↔ w.toNat ≤ 4095 := by
    rw [inRange, decide_eq_true_eq]
    omega
  simp only [Gains.ok, gainsOf, Bool.and_eq_true, word, and_assoc]

/-- Settles O30: each call replaces one entry of its table; the batch default also re-evaluates PENDING where the code is
held, against the new entry. -/
theorem tableCallsReplaceTheirEntry : Obligations.TableCallsReplaceTheirEntry := by
  intro f s unlocked
  refine ⟨fun c gr gg gb kr kg kb tr ar ag ab takes operands => ?_, fun i r g b takes operands => ?_⟩
  · intro d
    have admits : s.Admits (surveyRow 0x0024 false true) .sl := admits_unlocked rfl unlocked
    rw [exec_setBatchDefault, operands]
    split
    · next bad =>
      refine congrArg Host.Outcome.next (takeCall_declines takes admits (hasLength_of operands) ?_)
      exact if_pos bad
    · next good =>
      have changes := takeCall_changes (c := surveyRow 0x0024 false true) (od := false) (len := hasLength 11)
        (own := ownSetBatchDefault [c, gr, gg, gb, kr, kg, kb, tr, ar, ag, ab]) (s.batchReplaced c.toNat d)
        (st := .ok) (ws := [wordOfNat (s.batchReplaced c.toNat d s).batchChangedCount]) (fun _ => rfl) takes admits
        (hasLength_of operands) (by
          refine (if_neg good).trans ?_
          rw [updateAt_const]
          rfl)
      refine ⟨_, congrArg Host.Outcome.next changes, rfl, map_ramp_refreshBatch _ _, ?_, fun i p at_i => ?_, rfl⟩
      · exact List.length_map _
      · refine (List.getElem?_map ..).trans ?_
        rw [at_i]
        rfl
  · have admits : s.Admits (surveyRow 0x0025 false true) .sl := admits_unlocked rfl unlocked
    rw [exec_setWhitePoint, operands]
    refine congrArg Host.Outcome.next ?_
    have range : 15 < i.toNat ∨ (gainsOf r g b).ok = false ↔
        15 < i.toNat ∨ 4095 < r.toNat ∨ 4095 < g.toNat ∨ 4095 < b.toNat := by
      rw [← Bool.not_eq_true, gainsOf_ok]
      omega
    split
    · next bad =>
      exact takeCall_declines takes admits (hasLength_of operands) (if_pos (range.mpr bad))
    · next good =>
      refine takeCall_changes (fun u => { u with settings := { s.settings with
        white := s.settings.white.set i.toNat ⟨r.toNat, g.toNat, b.toNat⟩ } }) (fun _ => rfl) takes admits
        (hasLength_of operands) ?_
      refine (if_neg (fun h => good (range.mp h))).trans ?_
      rw [updateAt_const, markWord_decide _ decide_eq_true_iff]
      rfl

/-! ### SET GEOMETRY -/

theorem exec_setGeometry (l : Link) (f : Frame) (s : State) : exec (.setGeometry l f) s =
    .next (takeCall (surveyRow 0x0027 false true) false (hasLength 2) (ownSetGeometry f.operands) l f s) := rfl

@[simp] theorem called_hangOf (s : State) (l m : Link) : (s.called l).hangOf m = s.hangOf m := by
  cases l <;> cases m <;> rfl

theorem any_isOverride (cs : List Change) : cs.any Change.isOverride = true ↔ ∃ i v n, Change.override i v n ∈ cs := by
  rw [List.any_eq_true]
  constructor
  · rintro ⟨c, hc, override⟩
    cases c with
    | override i v n => exact ⟨i, v, n, hc⟩
    | global ramp o => cases override
    | take ramp => cases override
    | revert ramp => cases override
    | place l ramp staged seen => cases override
  · rintro ⟨i, v, n, hc⟩
    exact ⟨_, hc, rfl⟩

/-- The wall is live (R29), in the statement's terms. -/
theorem wallLive_iff (s : State) : s.wallLive = true ↔
    (∃ p ∈ s.positions, p.hung ≠ .empty) ∨ s.hangOf .dl ≠ none ∨ s.hangOf .sl ≠ none ∨
      (∃ p ∈ s.positions, p.applied ≠ p.target) ∨ ∃ i v n, Change.override i v n ∈ s.changes := by
  simp only [State.wallLive, State.hanging, Bool.or_eq_true, any_isOverride]
  simp only [List.any_eq_true, decide_eq_true_eq, Option.isSome_iff_ne_none, or_assoc]

theorem keepRoute_eq (columns rows : Nat) (r : Option Route) : keepRoute columns rows r = r.filter (fun q => q.inside columns rows) := by
  cases r with
  | none => rfl
  | some r => simp [keepRoute, Option.filter]

theorem clearedRoutes_eq (s : State) (columns rows : Nat) : s.clearedRoutes columns rows =
    [0, 1, 2, 3].filter (fun b => ((s.settings.routes.getD b none).map (fun q => !q.inside columns rows)).getD false) := by
  refine congrArg (fun p => List.filter p [0, 1, 2, 3]) (funext fun b => ?_)
  rw [State.route]
  cases s.settings.routes.getD b none <;> rfl

theorem called_wallLive (s : State) (l : Link) : (s.called l).wallLive = s.wallLive := by
  cases l <;> rfl

/-- SET GEOMETRY's own checks in their order (R29). -/
theorem ownSetGeometry_called (c r : Word) (s : State) : ownSetGeometry [c, r] (s.called .sl) =
    if s.wallLive = true then .refuse .wallLive []
    else if c.toNat = 0 ∨ 32 < c.toNat ∨ r.toNat = 0 ∨ 16 < r.toNat then .refuse .badValue []
    else .accept .ok [wordOfNat (c.toNat * r.toNat), setWord (s.clearedRoutes c.toNat r.toNat)]
      ({ s.called .sl with settings := { s.settings with
        columns := c.toNat, rows := r.toNat
        routes := s.settings.routes.map (keepRoute c.toNat r.toNat) } }.planeAtRest (c.toNat * r.toNat)) := by
  rw [ownSetGeometry, called_wallLive]
  rfl

/-- Settles O32: two refusals in their order, else the grid, the routes that still fit it and a plane at rest. -/
theorem setGeometryRebuildsTheGrid : Obligations.SetGeometryRebuildsTheGrid := by
  intro f c r s takes unlocked operands
  have admits : s.Admits (surveyRow 0x0027 false true) .sl := admits_unlocked rfl unlocked
  have own := ownSetGeometry_called c r s
  intro live
  rw [exec_setGeometry, operands]
  refine ⟨fun isLive => ?_, fun notLive outside => ?_, fun notLive c1 c2 r1 r2 => ?_⟩
  · rw [if_pos ((wallLive_iff s).mpr isLive)] at own
    exact congrArg Host.Outcome.next (takeCall_declines takes admits (hasLength_of operands) own)
  · rw [if_neg (fun h => notLive ((wallLive_iff s).mp h)), if_pos outside] at own
    exact congrArg Host.Outcome.next (takeCall_declines takes admits (hasLength_of operands) own)
  · rw [if_neg (fun h => notLive ((wallLive_iff s).mp h)), if_neg (by omega)] at own
    refine congrArg Host.Outcome.next (Eq.trans (takeCall_changes (fun u => { u with
      settings := { s.settings with
        columns := c.toNat, rows := r.toNat, routes := s.settings.routes.map (keepRoute c.toNat r.toNat) }
      positions := List.replicate (c.toNat * r.toNat) .atRest, dirty := [], cursor := 0, history := [] })
      (fun _ => rfl) takes admits (hasLength_of operands) own) ?_)
    rw [clearedRoutes_eq, funext (keepRoute_eq c.toNat r.toNat)]

/-! ### READ TILE STATUS -/

theorem exec_readTileStatus (l : Link) (f : Frame) (s : State) : exec (.readTileStatus l f) s =
    .next (takeCall (surveyRow 0x0028 false false) false (hasLength 2) (ownReadTileStatus f.operands) l f s) := rfl

/-- The first entry that passes is found at its place. -/
theorem placeFrom_eq_some {α : Type} (p : α → Bool) (l : List α) (k i : Nat) (a : α) (at_i : l[i]? = some a) (pass : p a = true)
    (first : ∀ (j : Nat) (b : α), j < i → l[j]? = some b → p b = false) : placeFrom p k l = some (k + i) := by
  induction l generalizing k i with
  | nil => simp at at_i
  | cons x xs ih =>
    cases i with
    | zero =>
      obtain rfl : x = a := by simpa using at_i
      simp [placeFrom, pass]
    | succ i =>
      have fails : p x = false := first 0 x (by omega) rfl
      have rest := ih (k + 1) i (by simpa using at_i) (fun j b hj at_j => first (j + 1) b (by omega) (by simpa using at_j))
      simp only [placeFrom, fails, Bool.false_eq_true, if_false, rest]
      congr 1
      omega

theorem positionOf_eq_some {s : State} {tag i : Nat} {p : Position} (at_i : s.positions[i]? = some p)
    (placed : p.hung.tag = some tag)
    (first : ∀ (j : Nat) (q : Position), j < i → s.positions[j]? = some q → q.hung.tag ≠ some tag) :
    s.positionOf tag = some i := by
  have found := placeFrom_eq_some (fun q : Position => decide (q.hung.tag = some tag)) s.positions 0 i p at_i
    (decide_eq_true placed) (fun j q hj at_j => decide_eq_false (first j q hj at_j))
  rw [Nat.zero_add] at found
  exact found

theorem hung_tag_of_occupant {h : Hung} {t : TileAt} (occupied : h.occupant = some t) : h.tag = some t.tag := by
  rw [Hung.tag, occupied]
  rfl

theorem muteFlag_of_status {tiles : List TileStatus} {h : Hung} {t : TileAt} {st : TileStatus}
    (occupied : h.occupant = some t) (status : statusOf tiles t.tag = some st) :
    muteFlag tiles h = decide (st.miss = 3) := by
  rw [muteFlag, hung_tag_of_occupant occupied]
  simp only [status]

/-! ### LIST PENDING -/

theorem exec_listPending (l : Link) (f : Frame) (s : State) : exec (.listPending l f) s =
    .next (takeCall (bothRow 0x002E false false) false (hasLength 1) (ownListPending f.operands) l f s) := rfl

@[simp] theorem called_pendingEntry (s : State) (l : Link) : (s.called l).pendingEntry = s.pendingEntry := by
  cases l <;> rfl

theorem causeWords (c : Option Cause) : optWords (c.map Cause.place) = (match c with
    | none => [0, 0]
    | some .noRecord => [1, 0]
    | some .damaged => [1, 1]
    | some .noSpace => [1, 2]) := by
  cases c with
  | none => rfl
  | some c => cases c <;> rfl

theorem conditionWords (s : State) (tag : Nat) : (s.condition tag).words = (match s.findEntry tag with
    | none => [2, 0, 0, 0, 0]
    | some e => match e.status with
      | .ok => [0, 1] ++ words32 e.revision ++ [0]
      | .provisional => [0, 1] ++ words32 e.revision ++ [1]
      | .damaged => [1, 0, 0, 0, 0]) := by
  rw [State.condition]
  cases s.findEntry tag with
  | none => rfl
  | some e => cases status : e.status <;> simp only [status] <;> rfl

/-- Of an occupied position the state word is PLACED or UNRECORDED, and the latter has a cause (R32, R35). -/
theorem stateWord_of_occupant {h : Hung} {t : TileAt} (occupied : h.occupant = some t) :
    wordOfNat h.state.place = if h.cause = none then 1 else 2 := by
  cases h with
  | empty => cases occupied
  | placed t => rfl
  | unrecorded t c => rfl
  | duplicate t => cases occupied

theorem sourceWord (a : Source) : a.word = if a = .record then 0 else 1 := by cases a <;> rfl

theorem ownReadTileStatus_called {s : State} {hi lo : Word} {i : Nat} {p : Position} {t : TileAt} {st : TileStatus}
    (nonzero : nat32 hi lo ≠ 0) (found : (s.called .sl).positionOf (nat32 hi lo) = some i)
    (at_i : s.positions[i]? = some p) (occupied : p.hung.occupant = some t)
    (status : statusOf s.tiles (nat32 hi lo) = some st) :
    ownReadTileStatus [hi, lo] (s.called .sl) = .accept .ok (s.tileStatusWords i p t st) (s.called .sl) := by
  refine (if_neg nonzero).trans ?_
  rw [found]
  dsimp only
  rw [show (s.called .sl).positions[i]? = some p from at_i]
  dsimp only
  rw [occupied]
  dsimp only
  rw [show statusOf (s.called .sl).tiles (nat32 hi lo) = some st from status]
  rfl

theorem positionCount_called (s : State) (l : Link) : (s.called l).positionCount = s.settings.columns * s.settings.rows :=
  State.called_positionCount s l

/-- What LIST PENDING answers from a position on (R116). -/
def State.listPendingWords (s : State) (start : Nat) : List Word :=
  let found := (s.indexed.filter (fun e => decide (start ≤ e.1))).filterMap s.pendingEntry
  [wordOfNat s.pendingCount, wordOfNat (s.changes.filter Change.isTake).length, wordOfNat (min found.length 32)] ++
    (found.take 32).flatten ++ [if 32 < found.length then 1 else 0]

theorem ownListPending_called {s : State} {l : Link} {start : Word}
    (inside : start.toNat < s.settings.columns * s.settings.rows) :
    ownListPending [start] (s.called l) = .accept .ok (s.listPendingWords start.toNat) (s.called l) := by
  have more (k : Nat) : min 32 k < k ↔ 32 < k := by omega
  have pend : (s.called l).pendingEntry = s.pendingEntry := called_pendingEntry s l
  rw [ownListPending, positionCount_called, if_neg (by omega)]
  dsimp only
  rw [pend, State.called_pendingCount, State.listPendingWords]
  simp only [Config.listEntries, List.flatMap_id', List.length_take, markWord_decide _ decide_eq_true_iff, more,
    State.called_indexed, State.called_changes, Nat.min_comm]

theorem reasonWord (r : Reason) : wordOfNat r.place = (match r with
    | .newRevision => 0
    | .recordAvailable => 1
    | .recordAbsent => 2
    | .recordDamaged => 3
    | .batchChanged => 4) := by
  cases r <;> rfl

/-- A LIST PENDING entry written out (R116). -/
theorem pendingEntry_eq (s : State) (e : Nat × Position) : s.pendingEntry e =
    (match e.2.hung.occupant, e.2.adopted, s.pendingReason e.2 with
    | some u, some a, some r =>
      some ([wordOfNat e.1] ++ words32 u.tag ++ [if e.2.hung.cause = none then 1 else 2] ++
        (match e.2.hung.cause with
          | none => [0, 0]
          | some .noRecord => [1, 0]
          | some .damaged => [1, 1]
          | some .noSpace => [1, 2]) ++
        [if a.source = .record then 0 else 1] ++ words32 a.revision ++
        (match s.findEntry u.tag with
          | none => [2, 0, 0, 0, 0]
          | some e => match e.status with
            | .ok => [0, 1] ++ words32 e.revision ++ [0]
            | .provisional => [0, 1] ++ words32 e.revision ++ [1]
            | .damaged => [1, 0, 0, 0, 0]) ++
        [match r with
          | .newRevision => 0
          | .recordAvailable => 1
          | .recordAbsent => 2
          | .recordDamaged => 3
          | .batchChanged => 4])
    | _, _, _ => none) := by
  rw [State.pendingEntry]
  cases occupied : e.2.hung.occupant with
  | none => rfl
  | some u =>
    cases e.2.adopted with
    | none => rfl
    | some a =>
      cases s.pendingReason e.2 with
      | none => rfl
      | some r =>
        dsimp only
        rw [stateWord_of_occupant occupied, sourceWord, causeWords, conditionWords, reasonWord]

/-- Settles O33: READ TILE STATUS finds the first position its tag occupies; LIST PENDING lists the positions that have a
pending reason from the start on, at most 32. -/
theorem wallReadsAnswer : Obligations.WallReadsAnswer := by
  intro f s
  refine ⟨fun hi lo takes operands => ?_, fun l start notPl takes operands => ?_⟩
  · intro tag
    rw [exec_readTileStatus, operands]
    refine ⟨fun zero => ?_, fun nonzero absent => ?_, fun i p t st nonzero at_i occupied tagged first status => ?_⟩
    · refine congrArg Host.Outcome.next (takeCall_declines takes (admits_plain rfl) (hasLength_of operands) ?_)
      exact if_pos zero
    · refine congrArg Host.Outcome.next (takeCall_declines takes (admits_plain rfl) (hasLength_of operands) ?_)
      have nowhere : (s.called .sl).positionOf tag = none := by
        rw [← Option.not_isSome_iff_eq_none, isSome_positionOf]
        rintro ⟨p, hp, placed⟩
        exact absent p (by simpa using hp) placed
      refine (if_neg nonzero).trans ?_
      rw [show (s.called .sl).positionOf (nat32 hi lo) = none from nowhere]
    · have found : (s.called .sl).positionOf tag = some i :=
        positionOf_eq_some at_i ((hung_tag_of_occupant occupied).trans (congrArg some tagged)) first
      refine congrArg Host.Outcome.next (Eq.trans (takeCall_answers takes (admits_plain rfl) (hasLength_of operands)
        (st := .ok) (ws := s.tileStatusWords i p t st) ?_) ?_)
      · exact ownReadTileStatus_called nonzero found at_i occupied status
      · rw [State.tileStatusWords, muteFlag_of_status occupied (tagged.symm ▸ status), markWord_decide _ decide_eq_true_iff,
          tagged, TileStatus.words]
        simp only [List.append_assoc]
        rfl
  · have permits : (bothRow 0x002E false false).permits l = true := by
      cases l with
      | pl => exact absurd rfl notPl
      | dl => rfl
      | sl => rfl
    rw [exec_listPending, operands]
    refine ⟨fun outside => ?_, fun inside => ?_⟩
    · refine congrArg Host.Outcome.next (takeCall_declines takes (admits_plain permits) (hasLength_of operands) ?_)
      rw [ownListPending, positionCount_called, if_pos outside]
    · refine congrArg Host.Outcome.next (Eq.trans (takeCall_answers takes (admits_plain permits) (hasLength_of operands)
        (st := .ok) (ws := s.listPendingWords start.toNat) ?_) ?_)
      · exact ownListPending_called inside
      · have entry := funext (fun e => pendingEntry_eq s e)
        rw [State.listPendingWords, entry]
        rfl

end Sys2Proof.Machine
end

section
/-! PROOFS. Target computation (O46) and ramps. -/
namespace Sys2Proof.Machine

/-! ### Rounding and clamping -/

theorem roundDiv_of_nonneg {x : Int} (h : 0 ≤ x) : roundDiv x 1000000 = (2 * x + 1000000) / 2000000 := if_pos h

theorem roundDiv_of_neg {x : Int} (h : x < 0) : roundDiv x 1000000 = -((2 * (-x) + 1000000) / 2000000) :=
  if_neg (by omega)

theorem clampTo_gain (x : Int) : clampTo 0 4095 x = max 0 (min x 4095) := by
  unfold clampTo
  split
  · omega
  · split <;> omega

theorem clampTo_cross (x : Int) : clampTo (-1024) 1023 x = max (-1024) (min x 1023) := by
  unfold clampTo
  split
  · omega
  · split <;> omega

/-- A term is clamped when it lies outside its range. -/
theorem not_inRange_gain (x : Int) : (!inRange 0 4095 x) = decide (max 0 (min x 4095) ≠ x) := by
  rw [inRange, Bool.eq_iff_iff, Bool.not_eq_true', decide_eq_false_iff_not, decide_eq_true_eq]
  omega

theorem not_inRange_cross (x : Int) : (!inRange (-1024) 1023 x) = decide (max (-1024) (min x 1023) ≠ x) := by
  rw [inRange, Bool.eq_iff_iff, Bool.not_eq_true', decide_eq_false_iff_not, decide_eq_true_eq]
  omega

theorem matrixTerm_gain (x m : Int) : matrixTerm 0 4095 x m =
    (max 0 (min (roundDiv (x * m) 1000000) 4095),
      decide (max 0 (min (roundDiv (x * m) 1000000) 4095) ≠ roundDiv (x * m) 1000000)) := by
  rw [matrixTerm, clampTo_gain, not_inRange_gain]

theorem matrixTerm_cross (x m : Int) : matrixTerm (-1024) 1023 x m =
    (max (-1024) (min (roundDiv (x * m) 1000000) 1023),
      decide (max (-1024) (min (roundDiv (x * m) 1000000) 1023) ≠ roundDiv (x * m) 1000000)) := by
  rw [matrixTerm, clampTo_cross, not_inRange_cross]

/-! ### The target of a position -/

theorem targetOf_unoccupied {tiles : List TileStatus} {p : Position} (h : p.hung.occupant = none ∨ p.adopted = none) :
    targetOf tiles p = (.emptyTarget, false) := by
  unfold targetOf
  rcases h with empty | unadopted
  · rw [empty]
  · rw [unadopted]
    cases p.hung.occupant <;> rfl

theorem targetOf_occupied {tiles : List TileStatus} {p : Position} {t : TileAt} {a : Adopted}
    (occupied : p.hung.occupant = some t) (adopted : p.adopted = some a) :
    targetOf tiles p = occupiedTarget a t.orientation p.override ((statusOf tiles t.tag).bind TileStatus.e)
      ((statusOf tiles t.tag).bind TileStatus.h) := by
  unfold targetOf
  rw [occupied, adopted]

theorem adopted_matrix (a : Adopted) : a.matrix = a.survey.getD ⟨a.base.r, a.base.g, a.base.b, 0, 0, 0, 0, 0, 0⟩ := by
  unfold Adopted.matrix
  cases a.survey <;> rfl

theorem driftMillionths_eq (k a tref : Int) (e : Option Int) (h : Option Nat) : driftMillionths k a tref e h =
    1000000 + 10 * k * (e.map (fun v => v - tref)).getD 0 + a * ((h.getD 0 : Nat) : Int) := by
  cases e <;> cases h <;> rfl

theorem seamTrims_eq (a : Adopted) (o : Orientation) : seamTrims a o =
    (let s := a.trim.getD ⟨0, 0, 0, 0⟩
     { tL := if o = .turned then s.tR else s.tL, tR := if o = .turned then s.tL else s.tR
       tT := if o = .turned then s.tB else s.tT, tB := if o = .turned then s.tT else s.tB }) := by
  unfold seamTrims
  cases o <;> cases a.trim <;> rfl

/-! ### The computation -/

theorem postStatus_eq (tag : Option Nat) (tiles : List TileStatus) : postStatus tag tiles =
    tiles.map (fun x => if tag = some x.tag then { x with ePosted := x.e, hPosted := x.h } else x) := by
  cases tag with
  | none => exact (List.map_id' tiles).symm
  | some tag =>
    refine List.map_congr_left (fun x _ => ?_)
    by_cases same : x.tag = tag
    · rw [if_pos same, if_pos (congrArg some same.symm)]
    · rw [if_neg same, if_neg (fun h => same (Option.some.inj h).symm)]

/-- The flags of the nine matrix terms, row by row or the gains first. -/
theorem or_rows_eq_or_gains_or_crosses (gR xRG xRB gG xGR xGB gB xBR xBG : Bool) :
    (gR || xRG || xRB || gG || xGR || xGB || gB || xBR || xBG) =
      (gR || (gG || (gB || (xRG || (xRB || (xGR || (xGB || (xBR || xBG)))))))) := by
  ac_rfl

/-- Settles O46: rounding to nearest with halves away from zero, the multiplied, rounded and clamped terms, and what a
computation changes. -/
theorem targetsAreComputed : Obligations.TargetsAreComputed := by
  refine ⟨fun term m => ?_, fun tiles p => targetOf_unoccupied, fun tiles p t a occupied adopted => ?_,
    fun s ramp i p at_i => ?_⟩
  · refine ⟨fun up => ?_, fun down => ?_⟩
    · rw [roundDiv_of_nonneg up]
      omega
    · rw [roundDiv_of_neg down]
      omega
  · rw [targetOf_occupied occupied adopted]
    simp only [occupiedTarget, matrixTerm_gain, matrixTerm_cross, adopted_matrix, driftMillionths_eq, seamTrims_eq]
    refine Prod.ext ?_ ?_
    · cases p.override <;> rfl
    · simp only [Bool.decide_or]
      exact or_rows_eq_or_gains_or_crosses _ _ _ _ _ _ _ _ _
  · rw [compute_eq s ramp i p at_i, postStatus_eq]
    exact ⟨rfl, rfl, rfl⟩

/-! ### Ramps -/

/-- A step of a term stays between where it stands and its target (R130). -/
theorem stepTerm_between (a g : Int) (n : Nat) (running : 1 ≤ n) :
    min a g ≤ a + (g - a).tdiv n ∧ a + (g - a).tdiv n ≤ max a g := by
  rcases Int.le_total a g with up | down
  · have nonneg : 0 ≤ (g - a).tdiv n := Int.tdiv_nonneg (by omega) (by omega)
    have le : (g - a).tdiv n ≤ g - a := Int.tdiv_le_self _ (by omega)
    omega
  · have flip : (g - a).tdiv n = -((a - g).tdiv n) := by rw [← Int.neg_tdiv, Int.neg_sub]
    have nonneg : 0 ≤ (a - g).tdiv n := Int.tdiv_nonneg (by omega) (by omega)
    have le : (a - g).tdiv n ≤ a - g := Int.tdiv_le_self _ (by omega)
    omega

theorem position_step_atRest {p : Position} (rest : p.remaining = 0) : p.step = p := if_pos rest

theorem position_step_running {p : Position} (running : 1 ≤ p.remaining) : p.step =
    { p with applied := p.applied.step p.remaining p.target, remaining := p.remaining - 1 } := if_neg (by omega)

theorem global_step_atRest {g : Global} (rest : g.remaining = 0) : g.step = g := if_pos rest

theorem global_step_running {g : Global} (running : 1 ≤ g.remaining) : g.step =
    { g with applied := g.applied.step g.remaining g.target, remaining := g.remaining - 1 } := if_neg (by omega)

theorem globalVector_step_one (a g : GlobalVector) : a.step 1 g = g := by
  cases g
  simp [GlobalVector.step, stepTerm_one]

/-- After fewer steps than remain, only the applied value and the count have changed. -/
theorem repeat_position_step (p : Position) (k : Nat) (fewer : k < p.remaining) :
    ∃ a, Nat.repeat Position.step k p = { p with applied := a, remaining := p.remaining - k } := by
  induction k with
  | zero => exact ⟨p.applied, rfl⟩
  | succ k ih =>
    obtain ⟨a, stepped⟩ := ih (by omega)
    refine ⟨a.step (p.remaining - k) p.target, ?_⟩
    rw [Nat.repeat, stepped, position_step_running (by dsimp only; omega), Nat.sub_sub]

theorem repeat_position_step_remaining (p : Position) (running : 1 ≤ p.remaining) :
    Nat.repeat Position.step p.remaining p = { p with applied := p.target, remaining := 0 } := by
  obtain ⟨k, count⟩ : ∃ k, p.remaining = k + 1 := ⟨p.remaining - 1, by omega⟩
  obtain ⟨a, stepped⟩ := repeat_position_step p k (by omega)
  have last : p.remaining - k = 1 := by omega
  rw [count, Nat.repeat, stepped, last, position_step_running (Nat.le_refl 1)]
  exact congrArg (fun c : Correction => { p with applied := c, remaining := 0 }) (correction_step_one a p.target)

theorem repeat_global_step (g : Global) (k : Nat) (fewer : k < g.remaining) :
    ∃ a, Nat.repeat Global.step k g = { g with applied := a, remaining := g.remaining - k } := by
  induction k with
  | zero => exact ⟨g.applied, rfl⟩
  | succ k ih =>
    obtain ⟨a, stepped⟩ := ih (by omega)
    refine ⟨a.step (g.remaining - k) g.target, ?_⟩
    rw [Nat.repeat, stepped, global_step_running (by dsimp only; omega), Nat.sub_sub]

theorem repeat_global_step_remaining (g : Global) (running : 1 ≤ g.remaining) :
    Nat.repeat Global.step g.remaining g = { g with applied := g.target, remaining := 0 } := by
  obtain ⟨k, count⟩ : ∃ k, g.remaining = k + 1 := ⟨g.remaining - 1, by omega⟩
  obtain ⟨a, stepped⟩ := repeat_global_step g k (by omega)
  have last : g.remaining - k = 1 := by omega
  rw [count, Nat.repeat, stepped, last, global_step_running (Nat.le_refl 1)]
  exact congrArg (fun v : GlobalVector => { g with applied := v, remaining := 0 }) (globalVector_step_one a g.target)

end Sys2Proof.Machine
end

section
/-! PROOFS. The parts of a frame tick (R119, R124), each with what it touches. -/
namespace Sys2Proof.Machine

/-! ### The notices a move leaves alone -/

/-- No notice is raised on PL, and none on DL and SL but those of the Chain Engine and the hangs. -/
def State.Quiet (s t : State) : Prop :=
  ∀ (l : Link) (n : Notice), l = .pl ∨ n.ofEngine = false → (t.port l).hasFlag n = (s.port l).hasFlag n

theorem State.Quiet.trans {s t u : State} (h : s.Quiet t) (k : t.Quiet u) : s.Quiet u :=
  fun l n other => (k l n other).trans (h l n other)

theorem quiet_setJob (s : State) (l : Link) (j : Option Job) : s.Quiet (s.setJob l j) := by
  intro m n _
  cases l <;> cases m <;> rfl

theorem quiet_raise (s : State) (l : Link) (n : Notice) (desk : l ≠ .pl) (engine : n.ofEngine = true) :
    s.Quiet (s.raise l n) := by
  intro m k other
  by_cases same : m = l
  · subst same
    have differs : k ≠ n := by
      rintro rfl
      exact other.elim desk (fun quiet => by simp [engine] at quiet)
    rw [State.raise_port, hasFlag_raise, decide_eq_false differs, Bool.or_false]
  · rw [State.raise_port_of_ne _ _ _ _ same]

theorem State.HangMove.quiet {s t : State} (h : s.HangMove t) : s.Quiet t := by
  induction h with
  | trans _ _ ih1 ih2 => exact ih1.trans ih2
  | job s l j => exact quiet_setJob s l j
  | notice s l n desk engine => exact quiet_raise s l n desk engine
  | _ => exact fun l _ _ => by cases l <;> rfl

theorem State.ChainMove.quiet {s t : State} (h : s.ChainMove t) : s.Quiet t := by
  induction h with
  | hang h => exact h.quiet
  | trans _ _ ih1 ih2 => exact ih1.trans ih2
  | _ => exact fun l _ _ => by cases l <;> rfl

theorem State.PulseMove.quiet {s t : State} (h : s.PulseMove t) : s.Quiet t := by
  induction h with
  | chain h => exact h.move.quiet
  | trans _ _ ih1 ih2 => exact ih1.trans ih2
  | _ => exact fun l _ _ => by cases l <;> rfl

/-! ### A pulse of the timer -/

/-- `s` with what a pulse of the Cadence Timer may touch in `t`. -/
def State.pulsedFrom (s t : State) : State :=
  { s.chainFrom t with
    timer := t.timer, cyclesStarted := t.cyclesStarted, cyclesSkipped := t.cyclesSkipped, overruns := t.overruns }

theorem State.PulseMove.pulsedFrom {s t : State} (h : s.PulseMove t) : t = s.pulsedFrom t := by
  induction h with
  | @chain s t h =>
    have touched := h.move.chainFrom
    rw [touched]
    rfl
  | @trans s t u _ _ ih1 ih2 =>
    calc u = t.pulsedFrom u := ih2
      _ = (s.pulsedFrom t).pulsedFrom u := by rw [← ih1]
      _ = s.pulsedFrom u := rfl
  | _ => rfl

/-! ### The entries of the Change Queue -/

/-- `s` with the positions, the Tile Status table and the dirty set of `t`: what a target computation may touch. -/
def State.planeFrom (s t : State) : State := { s with positions := t.positions, tiles := t.tiles, dirty := t.dirty }

theorem planeFrom_trans {s t u : State} (h : t = s.planeFrom t) (k : u = t.planeFrom u) : u = s.planeFrom u :=
  calc u = t.planeFrom u := k
    _ = (s.planeFrom t).planeFrom u := by rw [← h]
    _ = s.planeFrom u := rfl

theorem foldl_planeFrom {α : Type} (f : State → α → State) (step : ∀ s a, f s a = s.planeFrom (f s a)) (as : List α)
    (s : State) : as.foldl f s = s.planeFrom (as.foldl f s) := by
  induction as generalizing s with
  | nil => rfl
  | cons a as ih => exact planeFrom_trans (step s a) (ih (f s a))

theorem compute_planeFrom (s : State) (ramp i : Nat) : s.compute ramp i = s.planeFrom (s.compute ramp i) := by
  cases at_i : s.positions[i]? with
  | none => rw [compute_outside s ramp i at_i]; rfl
  | some p => rw [compute_eq s ramp i p at_i]; rfl

theorem adoptAt_planeFrom (s : State) (ramp i : Nat) (t : TileAt) (a : Adopted) (cause : Cause) :
    s.adoptAt ramp i t a cause = s.planeFrom (s.adoptAt ramp i t a cause) := by
  unfold State.adoptAt
  dsimp only
  rw [State.refreshPending, compute_planeFrom]
  rfl

theorem applyOverride_planeFrom (s : State) (i : Nat) (level : Option Nat) (ramp : Nat) :
    s.applyOverride i level ramp = s.planeFrom (s.applyOverride i level ramp) := by
  unfold State.applyOverride
  rw [compute_planeFrom]
  rfl

/-- What a TAKE does at a position is an adoption, or nothing. -/
theorem takeAt_cases (s : State) (ramp i : Nat) (t : TileAt) (a : Adopted) (r : Reason) :
    s.takeAt ramp i t a r = s ∨ ∃ copy cause, s.takeAt ramp i t a r = s.adoptAt ramp i t copy cause := by
  unfold State.takeAt
  have fromRecord : ∀ u : State, (u = match s.findEntry a.tag with
      | none => s
      | some e => s.adoptAt ramp i t (s.adoptRecord e) .noRecord) →
      u = s ∨ ∃ copy cause, u = s.adoptAt ramp i t copy cause := by
    intro u taken
    split at taken
    · exact .inl taken
    · exact .inr ⟨_, _, taken⟩
  cases r with
  | newRevision => exact fromRecord _ rfl
  | recordAvailable => exact fromRecord _ rfl
  | recordAbsent => exact .inr ⟨_, _, rfl⟩
  | recordDamaged => exact .inr ⟨_, _, rfl⟩
  | batchChanged =>
    dsimp only
    split
    · exact fromRecord _ rfl
    · exact .inr ⟨_, _, rfl⟩

theorem takePosition_planeFrom (ramp : Nat) (s : State) (i : Nat) :
    takePosition ramp s i = s.planeFrom (takePosition ramp s i) := by
  unfold takePosition
  split
  · rfl
  · split
    · next t a r _ _ _ =>
      obtain same | ⟨copy, cause, adopts⟩ := takeAt_cases s ramp i t a r
      · rw [same]; rfl
      · rw [adopts]; exact adoptAt_planeFrom _ _ _ _ _ _
    · rfl

theorem pushPoint_history (s : State) : s.pushPoint.history =
    s.restorePoint :: (if s.history.length < 4 then s.history else s.history.tail) := by
  unfold State.pushPoint
  split
  · next room => rw [if_pos (show s.history.length < 4 from room)]
  · next full => rw [if_neg (show ¬s.history.length < 4 from full), State.raise_history]

theorem pushPoint_eq (s : State) : s.pushPoint = { s with
    history := s.restorePoint :: (if s.history.length < 4 then s.history else s.history.tail)
    dl := s.dl.raiseIf (decide (4 ≤ s.history.length)) .historyOverrun } := by
  unfold State.pushPoint
  split
  · next room =>
    have few : s.history.length < 4 := room
    rw [if_pos few, decide_eq_false (by omega : ¬4 ≤ s.history.length)]
    rfl
  · next full =>
    have many : ¬s.history.length < 4 := full
    rw [if_neg many, decide_eq_true (by omega : 4 ≤ s.history.length)]
    rfl

/-- What a TAKE entry touches. -/
def State.takenFrom (s t : State) : State :=
  { s.planeFrom t with history := t.history, dl := { s.dl with flags := t.dl.flags } }

theorem applyTake_takenFrom (s : State) (ramp : Nat) : s.applyTake ramp = s.takenFrom (s.applyTake ramp) := by
  unfold State.applyTake
  split
  · rfl
  · rw [foldl_planeFrom _ (takePosition_planeFrom ramp) _ s.pushPoint, pushPoint_eq]
    rfl

theorem restorePosition_planeFrom (ramp : Nat) (a : State × Nat) (r : PosRecord) :
    (restorePosition ramp a r).1 = a.1.planeFrom (restorePosition ramp a r).1 := by
  unfold restorePosition
  split
  · rfl
  · split
    · rfl
    · split
      · split
        · rfl
        · exact adoptAt_planeFrom _ _ _ _ _ _
      · rfl

theorem restorePositions_planeFrom (ramp : Nat) (rs : List PosRecord) (a : State × Nat) :
    (rs.foldl (restorePosition ramp) a).1 = a.1.planeFrom (rs.foldl (restorePosition ramp) a).1 := by
  induction rs generalizing a with
  | nil => rfl
  | cons r rs ih => exact planeFrom_trans (restorePosition_planeFrom ramp a r) (ih _)

/-- A REVERT with an empty History reports it; any other pops the newest point and restores it. -/
theorem applyRevert_of_empty {s : State} (ramp : Nat) (empty : s.history = []) :
    s.applyRevert ramp = s.raise .dl .historyEmpty := by
  unfold State.applyRevert
  rw [empty]

theorem applyRevert_of_cons {s : State} (ramp : Nat) {point : List PosRecord} {rest : List (List PosRecord)}
    (held : s.history = point :: rest) :
    s.applyRevert ramp =
      { (point.foldl (restorePosition ramp) ({ s with history := rest }, 0)).1 with
        lastSkipped := (point.foldl (restorePosition ramp) ({ s with history := rest }, 0)).2 } := by
  unfold State.applyRevert
  rw [held]

theorem applyRevert_from_of_cons {s : State} (ramp : Nat) {point : List PosRecord} {rest : List (List PosRecord)}
    (held : s.history = point :: rest) :
    s.applyRevert ramp = { s.planeFrom (s.applyRevert ramp) with
      history := rest, lastSkipped := (s.applyRevert ramp).lastSkipped } := by
  rw [applyRevert_of_cons ramp held, restorePositions_planeFrom]
  rfl

theorem finishJob_ended (s : State) (l : Link) (st : JobState) (res : ResultCode) (fields : JobFields) :
    s.finishJob l st res fields = { s with
      pl := s.pl.ended (s.finishJob l st res fields).pl, dl := s.dl.ended (s.finishJob l st res fields).dl
      sl := s.sl.ended (s.finishJob l st res fields).sl } := by
  unfold State.finishJob
  split
  · rfl
  · split <;> cases l <;> rfl

/-- What a PLACE entry touches. -/
def State.placedFrom (s t : State) : State :=
  { s.planeFrom t with pl := s.pl.ended t.pl, dl := s.dl.ended t.dl, sl := s.sl.ended t.sl }

theorem endHang_ended (s : State) (l : Link) (moved unrecorded : Nat) : s.endHang l moved unrecorded = { s with
      pl := s.pl.ended (s.endHang l moved unrecorded).pl, dl := s.dl.ended (s.endHang l moved unrecorded).dl
      sl := s.sl.ended (s.endHang l moved unrecorded).sl } := by
  unfold State.endHang
  split
  · rfl
  · exact finishJob_ended _ _ _ _ _

theorem applyPlace_placedFrom (s : State) (l : Link) (ramp : Nat) (staged : List (Nat × Hung)) (seen : List TileSeen) :
    s.applyPlace l ramp staged seen = s.placedFrom (s.applyPlace l ramp staged seen) := by
  have computed (is : List Nat) (u : State) :=
    foldl_planeFrom (fun acc i => State.compute acc ramp i) (fun u i => compute_planeFrom u ramp i) is u
  have refreshed (is : List Nat) (u : State) := foldl_planeFrom State.refreshPending (fun _ _ => rfl) is u
  unfold State.applyPlace
  dsimp only
  rw [endHang_ended, refreshed, computed]
  rfl

/-- What an entry of the Change Queue touches. -/
def State.appliedFrom (s t : State) : State :=
  { s.placedFrom t with global := t.global, history := t.history, lastSkipped := t.lastSkipped }

theorem applyChange_appliedFrom (s : State) (c : Change) : s.applyChange c = s.appliedFrom (s.applyChange c) := by
  cases c with
  | global ramp o => rfl
  | take ramp =>
    show s.applyTake ramp = s.appliedFrom (s.applyTake ramp)
    rw [applyTake_takenFrom]
    rfl
  | revert ramp =>
    show s.applyRevert ramp = s.appliedFrom (s.applyRevert ramp)
    cases held : s.history with
    | nil => rw [applyRevert_of_empty ramp held]; rfl
    | cons point rest => rw [applyRevert_from_of_cons ramp held]; rfl
  | override i level ramp =>
    show s.applyOverride i level ramp = s.appliedFrom (s.applyOverride i level ramp)
    rw [applyOverride_planeFrom]
    rfl
  | place l ramp staged seen =>
    show s.applyPlace l ramp staged seen = s.appliedFrom (s.applyPlace l ramp staged seen)
    rw [applyPlace_placedFrom]
    rfl

theorem applyChanges_appliedFrom (cs : List Change) (s : State) :
    cs.foldl State.applyChange s = s.appliedFrom (cs.foldl State.applyChange s) := by
  induction cs generalizing s with
  | nil => rfl
  | cons c cs ih =>
    calc (c :: cs).foldl State.applyChange s = cs.foldl State.applyChange (s.applyChange c) := rfl
      _ = (s.applyChange c).appliedFrom (cs.foldl State.applyChange (s.applyChange c)) := ih _
      _ = (s.appliedFrom (s.applyChange c)).appliedFrom (cs.foldl State.applyChange (s.applyChange c)) := by
        rw [← applyChange_appliedFrom]
      _ = s.appliedFrom ((c :: cs).foldl State.applyChange s) := rfl

/-! ### The posts of the waiting hangs -/

/-- `s` with what posts may touch in `t`. -/
def State.postedFrom (s t : State) : State :=
  { s with
    pl := { s.pl with job := t.pl.job }, dl := { s.dl with job := t.dl.job }, sl := { s.sl with job := t.sl.job }
    changes := t.changes }

theorem post_postedFrom (s : State) (l : Link) : s.post l = s.postedFrom (s.post l) := by
  unfold State.post
  split
  · cases l <;> rfl
  · rfl

theorem posts_postedFrom (ls : List Link) (s : State) : ls.foldl State.post s = s.postedFrom (ls.foldl State.post s) := by
  induction ls generalizing s with
  | nil => rfl
  | cons l ls ih =>
    calc (l :: ls).foldl State.post s = ls.foldl State.post (s.post l) := rfl
      _ = (s.post l).postedFrom (ls.foldl State.post (s.post l)) := ih _
      _ = (s.postedFrom (s.post l)).postedFrom (ls.foldl State.post (s.post l)) := by rw [← post_postedFrom]
      _ = s.postedFrom ((l :: ls).foldl State.post s) := rfl

theorem all_isPlace_posts (ls : List Link) (s : State) (places : s.changes.all Change.isPlace = true) :
    (ls.foldl State.post s).changes.all Change.isPlace = true := by
  induction ls generalizing s with
  | nil => exact places
  | cons l ls ih =>
    refine ih (s.post l) ?_
    unfold State.post
    split
    · simp [places, Change.isPlace]
    · exact places

theorem applyQueue_eq (s : State) : s.applyQueue = (s.changes.foldl State.applyChange s).postWaiters.foldl State.post
    { s.changes.foldl State.applyChange s with changes := [], postWaiters := [] } := rfl

/-- Phase 1 is the entries and the posts; the posts touch no more than jobs and the queue. -/
theorem applyQueue_postedFrom (s : State) : s.applyQueue =
    { (s.changes.foldl State.applyChange s).postedFrom s.applyQueue with postWaiters := [] } := by
  rw [applyQueue_eq, posts_postedFrom]
  rfl

theorem all_isPlace_applyQueue (s : State) : s.applyQueue.changes.all Change.isPlace = true :=
  all_isPlace_posts _ _ rfl

/-! ### Drift and the digest -/

theorem takeDirty_of_hold {s : State} (held : s.hold = true) : s.takeDirty = s := if_pos held

theorem takeDirty_of_release {s : State} (released : s.hold = false) : s.takeDirty =
    { s.driftTaken.foldl (fun acc i => State.compute acc acc.settings.driftRamp i) s with
      cursor := s.driftTaken.getLast?.getD
        (s.driftTaken.foldl (fun acc i => State.compute acc acc.settings.driftRamp i) s).cursor } :=
  if_neg (by simp [released])

theorem takeDirty_from (s : State) : s.takeDirty =
    { s.planeFrom s.takeDirty with cursor := s.takeDirty.cursor } := by
  cases held : s.hold with
  | true =>
    rw [takeDirty_of_hold held]
    rfl
  | false =>
    rw [takeDirty_of_release held, foldl_planeFrom (fun acc i => State.compute acc acc.settings.driftRamp i) (fun _ _ => compute_planeFrom _ _ _)]
    rfl

/-- Something applied changed: what makes a tick build a digest (R132). -/
def State.moved (s : State) (before : List Position) (globalBefore : GlobalVector) : Bool :=
  !(s.changedEntries before).isEmpty || decide (s.global.applied ≠ globalBefore)

theorem buildDigest_of_still {s : State} {before : List Position} {globalBefore : GlobalVector}
    (still : s.moved before globalBefore = false) : s.buildDigest before globalBefore = s := by
  refine if_pos ?_
  simpa [State.moved] using still

theorem buildDigest_of_moved {s : State} {before : List Position} {globalBefore : GlobalVector}
    (moved : s.moved before globalBefore = true) : s.buildDigest before globalBefore =
      { s with
        epoch := nextEpoch s.epoch
        digest := s.newDigest (s.changedEntries before) (decide (s.global.applied ≠ globalBefore)) (nextEpoch s.epoch)
        pl := (s.pl.raiseIf (!s.digest.fullyFetched) .digestMissed).raise .epochReady } := by
  refine (if_neg ?_).trans ?_
  · intro ⟨empty, same⟩
    simp [State.moved, empty, same] at moved
  · cases s.digest.fullyFetched <;> rfl

theorem buildDigest_from (s : State) (before : List Position) (globalBefore : GlobalVector) :
    s.buildDigest before globalBefore = { s with
      epoch := (s.buildDigest before globalBefore).epoch, digest := (s.buildDigest before globalBefore).digest
      pl := { s.pl with flags := (s.buildDigest before globalBefore).pl.flags } } := by
  cases h : s.moved before globalBefore with
  | false => rw [buildDigest_of_still h]
  | true => rw [buildDigest_of_moved h]; rfl

/-! ### The tick -/

/-- The commit before its digest: what the plane becomes (R124). -/
def State.stepped (s : State) : State := s.applyQueue.takeDirty.stepRamps

theorem commit_eq (s : State) : s.commit = s.stepped.buildDigest s.positions s.global.applied := rfl

theorem exec_frameTick_last {s : State} (on : s.power = .on) :
    exec (.frameTick false) s = .next s.ticking.commit.framePulse :=
  congrArg Host.Outcome.next (if_pos on)

theorem exec_frameTick_first {s : State} (on : s.power = .on) :
    exec (.frameTick true) s = .next s.ticking.framePulse.commit :=
  congrArg Host.Outcome.next (if_pos on)

theorem framePulse_pulsedFrom (s : State) : s.framePulse = s.pulsedFrom s.framePulse :=
  (pulseMove_framePulse s).pulsedFrom

end Sys2Proof.Machine
end

section
/-! PROOFS. The target computations of a phase taken together, and what a tick makes of the plane: O47, O50, O51. -/
namespace Sys2Proof.Machine

/-! ### Several target computations -/

/-- A Tile Status entry with its samples posted (R107). -/
def TileStatus.posted (x : TileStatus) : TileStatus := { x with ePosted := x.e, hPosted := x.h }

/-- The Tile Status table with the entries that meet a condition posted. -/
def postWhere (P : Nat → Bool) (tiles : List TileStatus) : List TileStatus :=
  tiles.map (fun x => if P x.tag then x.posted else x)

theorem postStatus_eq_postWhere (tag : Option Nat) (tiles : List TileStatus) :
    postStatus tag tiles = postWhere (fun t => decide (tag = some t)) tiles := by
  simp only [postStatus_eq, postWhere, decide_eq_true_eq, TileStatus.posted]

/-- Posting what has been posted changes nothing. -/
theorem postWhere_postWhere (P Q : Nat → Bool) (tiles : List TileStatus) :
    postWhere Q (postWhere P tiles) = postWhere (fun t => P t || Q t) tiles := by
  simp only [postWhere, List.map_map]
  refine List.map_congr_left (fun x _ => ?_)
  simp only [Function.comp_apply]
  by_cases hP : P x.tag = true <;> by_cases hQ : Q x.tag = true <;> simp [hP, hQ, TileStatus.posted]

theorem postWhere_false (tiles : List TileStatus) : postWhere (fun _ => false) tiles = tiles := by
  simp [postWhere]

theorem statusOf_map {f : TileStatus → TileStatus} (keep : ∀ x, (f x).tag = x.tag) (tiles : List TileStatus) (tag : Nat) :
    statusOf (tiles.map f) tag = (statusOf tiles tag).map f := by
  simp only [statusOf, List.find?_map, Function.comp_def, keep]

/-- The target depends on the samples E and H alone, not on what has been posted. -/
theorem targetOf_postWhere (P : Nat → Bool) (tiles : List TileStatus) (p : Position) :
    targetOf (postWhere P tiles) p = targetOf tiles p := by
  have keep (x : TileStatus) : (if P x.tag then x.posted else x).tag = x.tag := by split <;> rfl
  have e (tag : Nat) : (statusOf (postWhere P tiles) tag).bind TileStatus.e = (statusOf tiles tag).bind TileStatus.e := by
    rw [postWhere, statusOf_map keep]
    cases statusOf tiles tag with
    | none => rfl
    | some x => dsimp only [Option.map_some, Option.bind_some]; split <;> rfl
  have h (tag : Nat) : (statusOf (postWhere P tiles) tag).bind TileStatus.h = (statusOf tiles tag).bind TileStatus.h := by
    rw [postWhere, statusOf_map keep]
    cases statusOf tiles tag with
    | none => rfl
    | some x => dsimp only [Option.map_some, Option.bind_some]; split <;> rfl
  simp only [targetOf, e, h]

theorem retarget_postWhere (P : Nat → Bool) (tiles : List TileStatus) (ramp : Nat) (p : Position) :
    p.retarget (postWhere P tiles) ramp = p.retarget tiles ramp := by
  simp only [Position.retarget, targetOf_postWhere]

theorem targetOf_ramp (tiles : List TileStatus) (p q : Position) (hung : q.hung = p.hung) (adopted : q.adopted = p.adopted)
    (override : q.override = p.override) : targetOf tiles q = targetOf tiles p := by
  simp only [targetOf, hung, adopted, override]

theorem retarget_retarget (tiles : List TileStatus) (ramp : Nat) (p : Position) :
    (p.retarget tiles ramp).retarget tiles ramp = p.retarget tiles ramp := by
  rw [Position.retarget, targetOf_ramp tiles p (p.retarget tiles ramp) rfl rfl rfl]
  rfl

/-- A position as a set of computations with one ramp length leaves it. -/
def Position.retargetIn (is : List Nat) (tiles : List TileStatus) (ramp i : Nat) (p : Position) : Position :=
  if i ∈ is then p.retarget tiles ramp else p

/-- The tag at one of some positions. -/
def State.tagAmong (s : State) (is : List Nat) (tag : Nat) : Bool :=
  is.any (fun i => decide ((s.positions[i]?).bind (fun p => p.hung.tag) = some tag))

theorem tagAmong_iff (s : State) (is : List Nat) (tag : Nat) :
    s.tagAmong is tag = true ↔ ∃ i ∈ is, (s.positions[i]?).bind (fun p => p.hung.tag) = some tag := by
  simp only [State.tagAmong, List.any_eq_true, decide_eq_true_eq]

/-- The plane after some computations of one ramp length, in any order (R107). -/
structure State.Computed (s t : State) (ramp : Nat) (is : List Nat) : Prop where
  touched : t = s.planeFrom t
  length : t.positions.length = s.positions.length
  positions : ∀ i, t.positions[i]? = (s.positions[i]?).map (Position.retargetIn is s.tiles ramp i)
  tiles : t.tiles = postWhere (s.tagAmong is) s.tiles
  dirty : t.dirty = s.dirty.filter (fun j => !is.contains j)

theorem Position.retargetIn_nil (tiles : List TileStatus) (ramp i : Nat) (p : Position) :
    p.retargetIn [] tiles ramp i = p := if_neg List.not_mem_nil

theorem computed_nil (s : State) (ramp : Nat) : s.Computed s ramp [] where
  touched := rfl
  length := rfl
  positions i := by cases s.positions[i]? <;> simp [Position.retargetIn_nil]
  tiles := (postWhere_false s.tiles).symm
  dirty := (List.filter_eq_self.mpr fun _ _ => by simp).symm

theorem computed_cons {s t : State} {ramp i : Nat} {is : List Nat} (inside : i < s.positions.length)
    (rest : (s.compute ramp i).Computed t ramp is) : s.Computed t ramp (i :: is) := by
  obtain ⟨p, at_i⟩ : ∃ p, s.positions[i]? = some p := ⟨_, List.getElem?_eq_getElem inside⟩
  have first := compute_eq s ramp i p at_i
  have hung (j : Nat) : ((s.compute ramp i).positions[j]?).bind (fun p => p.hung.tag) =
      (s.positions[j]?).bind (fun p => p.hung.tag) := by
    rw [first, List.getElem?_set]
    split
    · next same =>
      subst same
      rw [at_i]
      rfl
    · rfl
  refine ⟨planeFrom_trans (compute_planeFrom s ramp i) rest.touched, ?_, fun j => ?_, ?_, ?_⟩
  · rw [rest.length, first, List.length_set]
  · rw [rest.positions j, first]
    dsimp only
    rw [List.getElem?_set, postStatus_eq_postWhere]
    by_cases same : i = j
    · subst same
      rw [if_pos rfl, if_pos inside, at_i]
      simp only [Option.map_some, Position.retargetIn, retarget_postWhere, retarget_retarget, List.mem_cons, true_or,
        if_true, ite_self]
    · rw [if_neg same]
      refine congrArg (fun g => Option.map g s.positions[j]?) (funext fun q => ?_)
      simp only [Position.retargetIn, retarget_postWhere, List.mem_cons, Ne.symm same, false_or]
  · have among (tag : Nat) : (s.compute ramp i).tagAmong is tag = s.tagAmong is tag := by
      simp only [State.tagAmong, hung]
    have posted : (s.compute ramp i).tiles = postStatus p.hung.tag s.tiles := by rw [first]
    rw [rest.tiles, posted, postStatus_eq_postWhere, postWhere_postWhere]
    refine congrArg (fun P => postWhere P s.tiles) (funext fun tag => ?_)
    rw [among]
    simp only [State.tagAmong, List.any_cons, at_i, Option.bind_some]
  · rw [rest.dirty, first]
    simp only [removeNat, List.filter_filter]
    refine List.filter_congr (fun j _ => ?_)
    by_cases same : j = i <;> simp [same, Bool.and_comm]

theorem computed_foldl (ramp : Nat) (is : List Nat) (s : State) (inside : ∀ i ∈ is, i < s.positions.length) :
    s.Computed (is.foldl (fun acc i => State.compute acc ramp i) s) ramp is := by
  induction is generalizing s with
  | nil => exact computed_nil s ramp
  | cons i is ih =>
    refine computed_cons (inside i List.mem_cons_self) (ih _ (fun j hj => ?_))
    have kept : (s.compute ramp i).positions.length = s.positions.length := by
      obtain ⟨p, at_i⟩ : ∃ p, s.positions[i]? = some p := ⟨_, List.getElem?_eq_getElem (inside i List.mem_cons_self)⟩
      rw [compute_eq s ramp i p at_i, List.length_set]
    rw [kept]
    exact inside j (List.mem_cons_of_mem i hj)

/-! ### Phase 2 -/

theorem foldl_compute_driftRamp (is : List Nat) (s : State) :
    is.foldl (fun acc i => State.compute acc acc.settings.driftRamp i) s =
      is.foldl (fun acc i => State.compute acc s.settings.driftRamp i) s := by
  induction is generalizing s with
  | nil => rfl
  | cons i is ih =>
    have kept : (s.compute s.settings.driftRamp i).settings = s.settings := by rw [compute_planeFrom]; rfl
    rw [List.foldl_cons, ih, kept]
    rfl

theorem mem_dirty_of_mem_driftTaken {s : State} {i : Nat} (taken : i ∈ s.driftTaken) : i ∈ s.dirty := by
  rcases List.mem_append.mp (List.mem_of_mem_take taken) with h | h <;> exact mem_of_mem_filter h

/-- Phase 2 with drift released: the positions taken are computed, and the last one is the new cursor (R127). -/
theorem computed_takeDirty {s : State} (released : s.hold = false) (inside : ∀ i ∈ s.dirty, i < s.positions.length) :
    ∃ t, s.Computed t s.settings.driftRamp s.driftTaken ∧
      s.takeDirty = { t with cursor := s.driftTaken.getLast?.getD s.cursor } := by
  have computed := computed_foldl s.settings.driftRamp s.driftTaken s
    (fun i taken => inside i (mem_dirty_of_mem_driftTaken taken))
  refine ⟨_, computed, ?_⟩
  rw [takeDirty_of_release released, foldl_compute_driftRamp]
  have cursor := congrArg State.cursor computed.touched
  rw [cursor]
  rfl

/-- The drift-dirty positions are taken alike where the posts have left a job or an entry. -/
theorem compute_postedFrom (s t : State) (ws : List Link) (ramp i : Nat) :
    State.compute { s.postedFrom t with postWaiters := ws } ramp i =
      { (s.compute ramp i).postedFrom t with postWaiters := ws } := by
  cases at_i : s.positions[i]? with
  | none => rw [compute_outside s ramp i at_i, compute_outside { s.postedFrom t with postWaiters := ws } ramp i at_i]
  | some p => rw [compute_eq s ramp i p at_i, compute_eq { s.postedFrom t with postWaiters := ws } ramp i p at_i]; rfl

theorem computes_postedFrom (ramp : Nat) (is : List Nat) (s t : State) (ws : List Link) :
    is.foldl (fun acc i => State.compute acc ramp i) { s.postedFrom t with postWaiters := ws } =
      { (is.foldl (fun acc i => State.compute acc ramp i) s).postedFrom t with postWaiters := ws } := by
  induction is generalizing s with
  | nil => rfl
  | cons i is ih => rw [List.foldl_cons, compute_postedFrom, ih]; rfl

theorem takeDirty_postedFrom (s t : State) (ws : List Link) : State.takeDirty { s.postedFrom t with postWaiters := ws } =
    { s.takeDirty.postedFrom t with postWaiters := ws } := by
  cases held : s.hold with
  | true => rw [takeDirty_of_hold held, takeDirty_of_hold (s := { s.postedFrom t with postWaiters := ws }) held]
  | false =>
    rw [takeDirty_of_release held, takeDirty_of_release (s := { s.postedFrom t with postWaiters := ws }) held,
      foldl_compute_driftRamp, foldl_compute_driftRamp s.driftTaken s, computes_postedFrom]
    rfl

/-! ### The plane of a tick -/

theorem afterEntries_all (s : State) :
    s.afterEntries s.changes.length = s.ticking.changes.foldl State.applyChange s.ticking := by
  rw [State.afterEntries, List.take_length]
  rfl

theorem afterEntries_succ {s : State} {k : Nat} {c : Change} (entry : s.changes[k]? = some c) :
    s.afterEntries (k + 1) = (s.afterEntries k).applyChange c := by
  rw [State.afterEntries, List.take_add_one, entry, List.foldl_append]
  rfl

theorem afterEntries_of_le {s : State} {k : Nat} (past : s.changes.length ≤ k) : s.afterEntries (k + 1) = s.afterEntries k := by
  rw [State.afterEntries, State.afterEntries, List.take_of_length_le past, List.take_of_length_le (by omega)]

/-- The state after some entries is the state at the tick, but for what entries touch. -/
theorem afterEntries_appliedFrom (s : State) (k : Nat) : s.afterEntries k = s.ticking.appliedFrom (s.afterEntries k) :=
  applyChanges_appliedFrom _ _

/-- A commit up to its digest: the plane after the entries and the drift taken, stepped; with the posts over it. -/
theorem stepped_ticking (s : State) : s.ticking.stepped =
    { (s.afterEntries s.changes.length).takeDirty.stepRamps.postedFrom s.ticking.applyQueue with postWaiters := [] } := by
  rw [State.stepped, applyQueue_postedFrom, takeDirty_postedFrom, afterEntries_all]
  rfl

theorem takeDirty_frame (s : State) : s.takeDirty.global = s.global ∧ s.takeDirty.history = s.history ∧
    s.takeDirty.lastSkipped = s.lastSkipped ∧ s.takeDirty.settings = s.settings := by
  rw [takeDirty_from]
  exact ⟨rfl, rfl, rfl, rfl⟩

theorem tickPlane_commit (s : State) : s.TickPlane s.ticking.commit := by
  have places := all_isPlace_applyQueue s.ticking
  obtain ⟨global, history, skipped, settings⟩ := takeDirty_frame (s.afterEntries s.changes.length)
  have kept : (s.afterEntries s.changes.length).settings = s.settings := by rw [afterEntries_appliedFrom]; rfl
  rw [commit_eq, buildDigest_from, stepped_ticking]
  exact ⟨rfl, rfl, rfl, rfl, congrArg Global.step global, history, skipped, settings.trans kept, places⟩

/-! ### A pulse leaves the plane -/

theorem State.HangMove.places {s t : State} (h : s.HangMove t) :
    ∃ more, t.changes = s.changes ++ more ∧ more.all Change.isPlace = true := by
  induction h with
  | refl s => exact ⟨[], (List.append_nil _).symm, rfl⟩
  | trans _ _ ih1 ih2 =>
    obtain ⟨a, ha, pa⟩ := ih1
    obtain ⟨b, hb, pb⟩ := ih2
    exact ⟨a ++ b, by rw [hb, ha, List.append_assoc], by simp [pa, pb]⟩
  | job s l j => exact ⟨[], by rw [List.append_nil]; exact State.setPort_changes s l _, rfl⟩
  | notice s l n _ _ => exact ⟨[], by rw [List.append_nil]; exact State.raise_changes s l n, rfl⟩
  | claim s n low => exact ⟨[], (List.append_nil _).symm, rfl⟩
  | request s l op => exact ⟨[], (List.append_nil _).symm, rfl⟩
  | post s l ramp staged seen room => exact ⟨[.place l ramp staged seen], rfl, rfl⟩
  | waitToPost s l new => exact ⟨[], (List.append_nil _).symm, rfl⟩

theorem State.ChainMove.places {s t : State} (h : s.ChainMove t) :
    ∃ more, t.changes = s.changes ++ more ∧ more.all Change.isPlace = true := by
  induction h with
  | hang h => exact h.places
  | trans _ _ ih1 ih2 =>
    obtain ⟨a, ha, pa⟩ := ih1
    obtain ⟨b, hb, pb⟩ := ih2
    exact ⟨a ++ b, by rw [hb, ha, List.append_assoc], by simp [pa, pb]⟩
  | _ => exact ⟨[], (List.append_nil _).symm, rfl⟩

theorem State.PulseMove.places {s t : State} (h : s.PulseMove t) :
    ∃ more, t.changes = s.changes ++ more ∧ more.all Change.isPlace = true := by
  induction h with
  | chain h => exact h.move.places
  | trans _ _ ih1 ih2 =>
    obtain ⟨a, ha, pa⟩ := ih1
    obtain ⟨b, hb, pb⟩ := ih2
    exact ⟨a ++ b, by rw [hb, ha, List.append_assoc], by simp [pa, pb]⟩
  | _ => exact ⟨[], (List.append_nil _).symm, rfl⟩

theorem State.TickPlane.pulsed {s t : State} (plane : s.TickPlane t) : s.TickPlane t.framePulse := by
  obtain ⟨more, queue, places⟩ := (pulseMove_framePulse t).places
  have all : (t.changes ++ more).all Change.isPlace = true := by simp [plane.queue, places]
  rw [← queue] at all
  obtain ⟨positions, tiles, dirty, cursor, global, history, skipped, settings, -⟩ := plane
  have touched := framePulse_pulsedFrom t
  refine ⟨?_, ?_, ?_, ?_, ?_, ?_, ?_, ?_, all⟩ <;> rw [touched]
  · exact positions
  · exact tiles
  · exact dirty
  · exact cursor
  · exact global
  · exact history
  · exact skipped
  · exact settings

theorem exec_frameTick_tickPlane {s : State} (on : s.power = .on) :
    ∃ t, exec (.frameTick false) s = .next t ∧ s.TickPlane t :=
  ⟨_, exec_frameTick_last on, (tickPlane_commit s).pulsed⟩

end Sys2Proof.Machine
end

section
/-! PROOFS. The tick's obligations on ramps, frame events, drift and the intent entries: O47, O48, O50, O51. -/
namespace Sys2Proof.Machine

/-! ### Ramps -/

theorem afterEntries_of_empty {s : State} (empty : s.changes = []) : s.afterEntries s.changes.length = s.ticking := by
  rw [State.afterEntries, empty]
  rfl

/-- Settles O47: a step of a term stays between its ends, a run of steps ends at the target, and a tick with nothing
queued and drift held steps every ramp. -/
theorem rampsStepTowardTheirTargets : Obligations.RampsStepTowardTheirTargets := by
  refine ⟨stepTerm_between, fun p => ⟨position_step_atRest, fun running => ?_, repeat_position_step_remaining p⟩,
    fun g => ⟨global_step_atRest, fun running => ?_, repeat_global_step_remaining g⟩, fun s on empty held => ?_⟩
  · exact position_step_running running
  · exact global_step_running running
  · obtain ⟨t, done, plane⟩ := exec_frameTick_tickPlane on
    obtain ⟨positions, -, dirty, cursor, global, history, -, -, -⟩ := plane
    rw [afterEntries_of_empty empty] at positions dirty cursor global history
    rw [takeDirty_of_hold (s := s.ticking) held] at positions dirty cursor
    exact ⟨t, done, positions, global, history, dirty, cursor⟩

/-! ### Frame events -/

theorem exec_filterClockSample {s : State} (on : s.power = .on) (level : Level) (first : Bool) :
    exec (.filterClockSample level first) s = .next (s.sample level first) := congrArg Host.Outcome.next (if_pos on)

theorem sample_same {s : State} {level : Level} (same : level = s.frame.settled) (first : Bool) :
    s.sample level first = { s with frame := { s.frame with candidate := 0 } } := if_pos same

theorem sample_first {s : State} {level : Level} (other : level ≠ s.frame.settled) (fresh : s.frame.candidate = 0)
    (first : Bool) : s.sample level first = { s with frame := { s.frame with candidate := 1 } } :=
  (if_neg other).trans (if_pos fresh)

theorem sample_second {s : State} {level : Level} (other : level ≠ s.frame.settled) (seen : s.frame.candidate = 1)
    (first : Bool) : s.sample level first = if level = s.settings.polarity.activeLevel then
      State.tick { s with frame := { s.frame with settled := level, candidate := 0 } } first
      else { s with frame := { s.frame with settled := level, candidate := 0 } } :=
  (if_neg other).trans (if_neg (by omega))

theorem activeLevel_eq (p : Polarity) : p.activeLevel = if p = .rising then .high else .low := by cases p <;> rfl

/-- `s` with what a tick may touch in `t`. -/
def State.tickedFrom (s t : State) : State :=
  { s.pulsedFrom t with
    pl := s.pl.ended t.pl, dl := s.dl.ended t.dl, sl := s.sl.ended t.sl, frame := t.frame
    positions := t.positions, tiles := t.tiles, dirty := t.dirty, cursor := t.cursor, global := t.global
    epoch := t.epoch, digest := t.digest, history := t.history, lastSkipped := t.lastSkipped }

theorem State.TickMove.tickedFrom {s t : State} (h : s.TickMove t) : t = s.tickedFrom t := by
  induction h with
  | @pulse s t h =>
    have touched := h.pulsedFrom
    rw [touched]
    rfl
  | @trans s t u _ _ ih1 ih2 =>
    calc u = t.tickedFrom u := ih2
      _ = (s.tickedFrom t).tickedFrom u := by rw [← ih1]
      _ = s.tickedFrom u := rfl
  | ended s l q => cases l <;> rfl
  | _ => rfl

/-- A commit leaves the frame part alone. -/
theorem commit_frame (s : State) : s.ticking.commit.frame = s.ticking.frame := by
  rw [commit_eq, buildDigest_from, stepped_ticking]
  have kept : (s.afterEntries s.changes.length).frame = s.ticking.frame := by rw [afterEntries_appliedFrom]; rfl
  show (s.afterEntries s.changes.length).takeDirty.frame = _
  rw [takeDirty_from]
  exact kept

/-- The state whose tick is a tick with its FRAME pulse first: the pulse has passed, the frame part is as before. -/
def State.pulsedFirst (s : State) : State := s.pulsedFrom s.ticking.framePulse

theorem pulsedFirst_ticking (s : State) : s.pulsedFirst.ticking = s.ticking.framePulse :=
  (framePulse_pulsedFrom s.ticking).symm

theorem pulsedFrom_frame (s t : State) : (s.pulsedFrom t).frame = s.frame := rfl

theorem pulsedFirst_ticking_frame (s : State) : s.pulsedFirst.ticking.frame = s.ticking.frame := rfl

theorem frame_ticked {s : State} (on : s.power = .on) (first : Bool) :
    ∃ t, exec (.frameTick first) s = .next t ∧ s.TickMove t ∧ t.frame = s.ticking.frame := by
  cases first with
  | false =>
    have done := exec_frameTick_last on
    refine ⟨_, done, tickMove_frameTick done, ?_⟩
    rw [framePulse_pulsedFrom, pulsedFrom_frame, commit_frame]
  | true =>
    have done := exec_frameTick_first on
    refine ⟨_, done, tickMove_frameTick done, ?_⟩
    rw [← pulsedFirst_ticking, commit_frame, pulsedFirst_ticking_frame]

theorem exec_frameLost_of_running {s : State} (on : s.power = .on) (running : s.frame.state = .running) :
    exec .frameLost s =
      .next (State.raiseAll { s with frame := { s.frame with state := .lost, timerRunning := false } } .frameLost) :=
  congrArg Host.Outcome.next (if_pos ⟨on, running⟩)

/-- A notice raised on every link. -/
theorem hasFlag_raiseAll (s : State) (n : Notice) (l : Link) (m : Notice) :
    ((s.raiseAll n).port l).hasFlag m = ((s.port l).hasFlag m || decide (m = n)) := by
  cases l <;> exact hasFlag_raise _ _ _

/-- Settles O48: the filter's cases, what a tick touches and what it makes of the frame state, and FRAME_LOST. -/
theorem frameEventsFollowTheFilter : Obligations.FrameEventsFollowTheFilter := by
  intro s first on
  refine ⟨fun level same => ?_, fun level other fresh => ?_, fun level other seen inactive => ?_,
    fun level other seen active => ?_, ?_, fun lost => ?_, fun running => ?_⟩
  · rw [exec_filterClockSample on, sample_same same]
  · rw [exec_filterClockSample on, sample_first other fresh]
  · rw [← activeLevel_eq] at inactive
    rw [exec_filterClockSample on, sample_second other seen, if_neg inactive]
  · rw [← activeLevel_eq] at active
    rw [exec_filterClockSample on, sample_second other seen, if_pos active, active]
    exact (congrArg Host.Outcome.next (if_pos on)).symm
  · obtain ⟨t, done, move, frame⟩ := frame_ticked on first
    refine ⟨t, done, ?_, move.tickedFrom⟩
    rw [frame, ← activeLevel_eq]
    rfl
  · exact congrArg Host.Outcome.next (if_neg (fun both => by simp [lost] at both))
  · exact ⟨_, exec_frameLost_of_running on running, fun l n => by rw [hasFlag_raiseAll]; cases l <;> rfl, rfl⟩

/-! ### Drift -/

/-- The positions and the table after phase 2 with drift released (R127), in the terms of the state before it. -/
theorem takeDirty_plane {s : State} (released : s.hold = false) (inside : ∀ i ∈ s.dirty, i < s.positions.length) :
    s.takeDirty.dirty = s.dirty.filter (fun i => !s.driftTaken.contains i) ∧
    s.takeDirty.cursor = s.driftTaken.getLast?.getD s.cursor ∧ s.takeDirty.positions.length = s.positions.length ∧
    (∀ (i : Nat) (p : Position), s.positions[i]? = some p →
      s.takeDirty.positions[i]? = some (p.retargetIn s.driftTaken s.tiles s.settings.driftRamp i)) ∧
    s.takeDirty.tiles = postWhere (s.tagAmong s.driftTaken) s.tiles := by
  obtain ⟨t, computed, taken⟩ := computed_takeDirty released inside
  rw [taken]
  refine ⟨computed.dirty, rfl, computed.length, fun i p at_i => ?_, computed.tiles⟩
  exact (computed.positions i).trans (by rw [at_i, Option.map_some])

theorem step_retargetIn (is : List Nat) (tiles : List TileStatus) (ramp i : Nat) (p : Position) :
    (p.retargetIn is tiles ramp i).step = if i ∈ is then
      { p with target := (targetOf tiles p).1, clamped := (targetOf tiles p).2, remaining := max ramp 1 }.step
      else p.step := by
  unfold Position.retargetIn
  split <;> rfl

/-- Settles O50: the drift-dirty positions are taken in cursor order up to the budget, each computed against the table
before the phase. -/
theorem driftDirtyPositionsAreTaken : Obligations.DriftDirtyPositionsAreTaken := by
  refine ⟨fun s on empty released _ inside => ?_, fun s => ⟨takeDirty_of_hold, fun released _ inside => ?_⟩⟩
  · obtain ⟨t, done, plane⟩ := exec_frameTick_tickPlane on
    obtain ⟨positions, tiles, dirty, cursor, global, history, -, settings, -⟩ := plane
    rw [afterEntries_of_empty empty] at positions tiles dirty cursor global history
    obtain ⟨dirty', cursor', length', positions', tiles'⟩ := takeDirty_plane (s := s.ticking) released inside
    refine ⟨t, done, dirty.trans dirty', cursor.trans cursor', ?_, fun i p at_i => ?_, ?_, global, history, settings⟩
    · rw [positions, List.length_map, length']
      rfl
    · rw [positions, List.getElem?_map, positions' i p at_i, Option.map_some, step_retargetIn]
      rfl
    · rw [tiles, tiles']
      refine List.map_congr_left (fun x _ => ite_congr_iff (tagAmong_iff _ _ _) rfl rfl)
  · obtain ⟨dirty, cursor, -, positions, -⟩ := takeDirty_plane released inside
    exact ⟨dirty, cursor, positions⟩

/-! ### Intent entries -/

/-- An OVERRIDE entry at a position of the plane (R115). -/
theorem applyOverride_eq {s : State} {i : Nat} {p : Position} (at_i : s.positions[i]? = some p) (level : Option Nat)
    (ramp : Nat) : s.applyOverride i level ramp = { s with
      positions := s.positions.set i { p with
        override := level, target := (targetOf s.tiles { p with override := level }).1
        clamped := (targetOf s.tiles { p with override := level }).2, remaining := max ramp 1 }
      tiles := s.tiles.map (fun x => if p.hung.tag = some x.tag then { x with ePosted := x.e, hPosted := x.h } else x)
      dirty := s.dirty.filter (fun j => decide (j ≠ i)) } := by
  have overridden : (s.modPosition i (fun p => { p with override := level })).positions[i]? =
      some { p with override := level } := by
    rw [State.modPosition, getElem?_updateAt, if_pos rfl, at_i]
    rfl
  rw [State.applyOverride, compute_eq _ ramp i _ overridden, postStatus_eq]
  simp only [State.modPosition, updateAt_eq_set _ _ _ _ at_i, List.set_set]
  rfl

theorem globalTargetOf_eq (white : List Gains) (i : Intent) : globalTargetOf white i =
    (let w := white.getD i.white .unity
     let gain (x : Int) : Int := max 0 (min x 4095)
     ⟨i.master, gain (w.r + i.trimR), gain (w.g + i.trimG), gain (w.b + i.trimB)⟩) := by
  simp only [globalTargetOf, clampTo_gain]

/-- A GLOBAL entry (R112). -/
theorem applyGlobal_eq (s : State) (ramp : Nat) (o : IntentOps) : s.applyGlobal ramp o =
    (let i : Intent := ⟨o.master.getD s.global.intent.master, o.white.getD s.global.intent.white,
        o.trimR.getD s.global.intent.trimR, o.trimG.getD s.global.intent.trimG, o.trimB.getD s.global.intent.trimB⟩
     let w := s.settings.white.getD i.white .unity
     let gain (x : Int) : Int := max 0 (min x 4095)
     { s with global := { s.global with
        intent := i, target := ⟨i.master, gain (w.r + i.trimR), gain (w.g + i.trimG), gain (w.b + i.trimB)⟩
        remaining := max ramp 1 } }) := by
  simp only [State.applyGlobal, globalTargetOf_eq]
  rfl

theorem afterEntries_of_single {s : State} {c : Change} (single : s.changes = [c]) :
    s.afterEntries s.changes.length = s.ticking.applyChange c := by
  rw [State.afterEntries, single]
  rfl

theorem framePulse_of_base {s : State} (base : s.settings.source = .base) : s.framePulse = s := by
  rw [State.framePulse, base]

theorem framePulse_of_stopped {s : State} (stopped : s.timer.state = .stopped) : s.framePulse = s := by
  rw [State.framePulse, State.sourcePulse, stopped]
  cases s.settings.source <;> rfl

/-- Settles O51: a tick applies its queue and the rest of the plane's phases, its FRAME pulse before or after; and what a
GLOBAL and an OVERRIDE entry each make. -/
theorem intentEntriesApplyAtTheTick : Obligations.IntentEntriesApplyAtTheTick := by
  refine ⟨fun s on => exec_frameTick_tickPlane on, fun s on => ?_, fun s k => ⟨afterEntries_of_le, ?_, ?_⟩,
    fun s on held => ⟨?_, ?_⟩⟩
  · obtain ⟨more, queue, places⟩ := (pulseMove_framePulse s.ticking).places
    refine ⟨_, s.pulsedFirst, more, exec_frameTick_first on, ?_, fun still => ?_, rfl, queue, places⟩
    · rw [← pulsedFirst_ticking]
      exact tickPlane_commit _
    · have same : s.ticking.framePulse = s.ticking := still.elim (fun base => framePulse_of_base (s := s.ticking) base)
        (fun stopped => framePulse_of_stopped (s := s.ticking) stopped)
      rw [State.pulsedFirst, same]
      rfl
  · intro ramp o entry
    exact (afterEntries_succ entry).trans (applyGlobal_eq _ _ _)
  · intro i level ramp p entry at_i
    exact (afterEntries_succ entry).trans (applyOverride_eq at_i level ramp)
  · intro ramp o single
    obtain ⟨t, done, plane⟩ := exec_frameTick_tickPlane on
    obtain ⟨positions, -, -, -, global, history, -, settings, queue⟩ := plane
    have applied := (afterEntries_of_single single).trans (applyGlobal_eq s.ticking ramp o)
    rw [applied, takeDirty_of_hold (by exact held)] at positions
    rw [applied, global_step_running (Nat.le_max_right ramp 1)] at global
    rw [applied] at history
    refine ⟨t, done, queue, ?_⟩
    rw [global]
    exact ⟨rfl, rfl, rfl, positions, settings, history⟩
  · intro i level ramp p single at_i
    obtain ⟨t, done, plane⟩ := exec_frameTick_tickPlane on
    obtain ⟨positions, -, -, -, global, history, -, settings, queue⟩ := plane
    have applied := (afterEntries_of_single single).trans (applyOverride_eq (s := s.ticking) at_i level ramp)
    rw [applied, takeDirty_of_hold (by exact held)] at positions
    rw [applied] at global history
    exact ⟨t, done, queue, positions, global, settings, history⟩

end Sys2Proof.Machine
end

section
/-! PROOFS. The digest of a tick (R132 to R135): O49. -/
namespace Sys2Proof.Machine

/-! ### The positions by index -/

theorem getElem?_of_mem_indexed {s : State} {e : Nat × Position} (member : e ∈ s.indexed) : s.positions[e.1]? = some e.2 := by
  obtain ⟨k, at_k⟩ := List.mem_iff_getElem?.mp member
  rw [State.indexed_getElem?, Option.map_eq_some_iff] at at_k
  obtain ⟨p, at_p, rfl⟩ := at_k
  exact at_p

/-- The indices of the positions that meet a condition, ascending. -/
theorem map_fst_filter_indexed (s : State) (P : Nat × Position → Bool) (Q : Nat → Bool)
    (same : ∀ i p, s.positions[i]? = some p → P (i, p) = Q i) :
    (s.indexed.filter P).map Prod.fst = (List.range s.positions.length).filter Q := by
  rw [← indexed_map_fst, List.filter_map]
  refine congrArg (List.map Prod.fst) (List.filter_congr (fun e he => ?_))
  exact same e.1 e.2 (getElem?_of_mem_indexed he)

/-- The positions whose applied value has changed (R132). -/
def movedBetween (before after : List Position) : List Nat :=
  (List.range before.length).filter (fun i =>
    decide ((after[i]?).map Position.applied ≠ (before[i]?).map Position.applied))

theorem changedEntries_positions {s : State} {before : List Position} (count : s.positions.length = before.length) :
    (s.changedEntries before).map DigestEntry.position = movedBetween before s.positions := by
  rw [State.changedEntries, List.map_map, movedBetween, ← count]
  refine map_fst_filter_indexed s _ _ (fun i p at_i => ?_)
  rw [at_i]
  exact decide_eq_decide.mpr (not_congr eq_comm)

theorem length_changedEntries {s : State} {before : List Position} (count : s.positions.length = before.length) :
    (s.changedEntries before).length = (movedBetween before s.positions).length := by
  rw [← changedEntries_positions count, List.length_map]

theorem moved_iff {s : State} {before : List Position} {globalBefore : GlobalVector}
    (count : s.positions.length = before.length) :
    s.moved before globalBefore = true ↔ movedBetween before s.positions ≠ [] ∨ s.global.applied ≠ globalBefore := by
  rw [State.moved, Bool.or_eq_true, Bool.not_eq_true', List.isEmpty_eq_false_iff, decide_eq_true_eq,
    ← changedEntries_positions count]
  exact or_congr_left (not_congr List.map_eq_nil_iff.symm)

theorem mem_changedEntries {s : State} {before : List Position} {e : DigestEntry} (member : e ∈ s.changedEntries before)
    {p : Position} (at_e : s.positions[e.position]? = some p) : e = p.entry s.tiles e.position := by
  obtain ⟨⟨i, q⟩, found, rfl⟩ := List.mem_map.mp member
  have at_i := getElem?_of_mem_indexed (mem_of_mem_filter found)
  obtain rfl : q = p := Option.some.inj (at_i.symm.trans at_e)
  rfl

/-! ### The flags of PL -/

theorem endHang_hasFlag (s : State) (l : Link) (moved unrecorded : Nat) (m : Link) (n : Notice) (other : n ≠ .jobDone) :
    ((s.endHang l moved unrecorded).port m).hasFlag n = (s.port m).hasFlag n := by
  unfold State.endHang
  split
  · rfl
  · unfold State.finishJob
    split
    · rfl
    · split
      · cases l <;> cases m <;> rfl
      · by_cases same : m = l
        · subst same
          rw [State.raise_port, hasFlag_raise, decide_eq_false other, Bool.or_false, State.port_setPort]
          rfl
        · rw [State.raise_port_of_ne _ _ _ _ same, State.port_setPort_of_ne _ _ _ _ same]

theorem applyPlace_hasFlag (s : State) (l : Link) (ramp : Nat) (staged : List (Nat × Hung)) (seen : List TileSeen)
    (m : Link) (n : Notice) (other : n ≠ .jobDone) :
    ((s.applyPlace l ramp staged seen).port m).hasFlag n = (s.port m).hasFlag n := by
  have computed (is : List Nat) (u : State) :=
    foldl_planeFrom (fun acc i => State.compute acc ramp i) (fun u i => compute_planeFrom u ramp i) is u
  have refreshed (is : List Nat) (u : State) := foldl_planeFrom State.refreshPending (fun _ _ => rfl) is u
  unfold State.applyPlace
  dsimp only
  rw [endHang_hasFlag _ _ _ _ _ _ other, refreshed, computed]
  cases m <;> rfl

/-- An entry raises on PL no notice but JOB_DONE. -/
theorem applyChange_pl_hasFlag (s : State) (c : Change) (n : Notice) (other : n ≠ .jobDone) :
    (s.applyChange c).pl.hasFlag n = s.pl.hasFlag n := by
  cases c with
  | global ramp o => rfl
  | take ramp =>
    show (s.applyTake ramp).pl.hasFlag n = _
    rw [applyTake_takenFrom]
    rfl
  | revert ramp =>
    show (s.applyRevert ramp).pl.hasFlag n = _
    cases held : s.history with
    | nil => rw [applyRevert_of_empty ramp held]; rfl
    | cons point rest => rw [applyRevert_from_of_cons ramp held]; rfl
  | override i level ramp =>
    show (s.applyOverride i level ramp).pl.hasFlag n = _
    rw [applyOverride_planeFrom]
    rfl
  | place l ramp staged seen => exact applyPlace_hasFlag s l ramp staged seen .pl n other

theorem applyChanges_pl_hasFlag (cs : List Change) (s : State) (n : Notice) (other : n ≠ .jobDone) :
    (cs.foldl State.applyChange s).pl.hasFlag n = s.pl.hasFlag n := by
  induction cs generalizing s with
  | nil => rfl
  | cons c cs ih => exact (ih _).trans (applyChange_pl_hasFlag s c n other)

/-! ### What the phases before the digest keep -/

theorem State.TickMove.length {s t : State} (h : s.TickMove t) : t.positions.length = s.positions.length := by
  induction h with
  | pulse h => rw [h.pulsedFrom]; rfl
  | trans _ _ ih1 ih2 => exact ih2.trans ih1
  | positions s x count _ => exact count
  | ended s l q => cases l <;> rfl
  | _ => rfl

theorem tickMove_stepped (s : State) : s.TickMove s.stepped :=
  ((tickMove_applyQueue s).trans (tickMove_takeDirty _)).trans (tickMove_stepRamps _)

theorem stepped_eq (s : State) : s.stepped =
    { (s.changes.foldl State.applyChange s).takeDirty.stepRamps.postedFrom s.applyQueue with postWaiters := [] } := by
  rw [State.stepped, applyQueue_postedFrom, takeDirty_postedFrom]
  rfl

theorem stepped_keeps (s : State) : s.stepped.epoch = s.epoch ∧ s.stepped.digest = s.digest ∧
    ∀ n, n ≠ .jobDone → s.stepped.pl.hasFlag n = s.pl.hasFlag n := by
  rw [stepped_eq, takeDirty_from]
  refine ⟨?_, ?_, fun n other => ?_⟩
  · exact (congrArg State.epoch (applyChanges_appliedFrom s.changes s)).trans rfl
  · exact (congrArg State.digest (applyChanges_appliedFrom s.changes s)).trans rfl
  · exact applyChanges_pl_hasFlag s.changes s n other

/-- With nothing queued and drift held no notice is raised on PL before the digest. -/
theorem stepped_pl_hasFlag_of_idle {s : State} (empty : s.changes = []) (held : s.hold = true) (n : Notice) :
    s.stepped.pl.hasFlag n = s.pl.hasFlag n := by
  rw [stepped_eq, empty, List.foldl_nil, takeDirty_of_hold held]
  rfl

/-! ### The digest of a commit -/

theorem nextEpoch_of_ne {e : BitVec 48} (inside : e ≠ BitVec.allOnes 48) : nextEpoch e = e + 1 := if_neg inside

theorem partCount_eq {n : Nat} (few : n ≤ 128) : partCount n = max ((n + 15) / 16) 1 := if_pos few

theorem partCount_of_many {n : Nat} (many : 128 < n) : partCount n = 1 := if_neg (Nat.not_le.mpr many)

/-- The parts that a digest is made from and compared with agree, and PL shows the same notices. -/
structure State.SameShown (s t : State) : Prop where
  positions : t.positions = s.positions
  tiles : t.tiles = s.tiles
  global : t.global = s.global
  epoch : t.epoch = s.epoch
  digest : t.digest = s.digest
  flags : ∀ n, t.pl.hasFlag n = s.pl.hasFlag n

theorem sameShown_framePulse (s : State) : s.SameShown s.framePulse := by
  have quiet (n : Notice) : s.framePulse.pl.hasFlag n = s.pl.hasFlag n :=
    (pulseMove_framePulse s).quiet .pl n (.inl rfl)
  have touched := framePulse_pulsedFrom s
  exact ⟨(congrArg State.positions touched).trans rfl, (congrArg State.tiles touched).trans rfl, (congrArg State.global touched).trans rfl,
    (congrArg State.epoch touched).trans rfl, (congrArg State.digest touched).trans rfl, quiet⟩

/-- A tick is a commit of a state that shows what `s` does, up to what a pulse after it leaves alone. -/
theorem exec_frameTick_sameShown {s : State} (on : s.power = .on) (first : Bool) :
    ∃ x t, exec (.frameTick first) s = .next t ∧ s.SameShown x ∧ x.commit.SameShown t ∧ (first = false → x = s.ticking) := by
  have ticking : s.SameShown s.ticking := ⟨rfl, rfl, rfl, rfl, rfl, fun _ => rfl⟩
  cases first with
  | false => exact ⟨s.ticking, _, exec_frameTick_last on, ticking, sameShown_framePulse _, fun _ => rfl⟩
  | true =>
    obtain ⟨positions, tiles, global, epoch, digest, flags⟩ := sameShown_framePulse s.ticking
    exact ⟨s.ticking.framePulse, _, exec_frameTick_first on, ⟨positions, tiles, global, epoch, digest, flags⟩,
      ⟨rfl, rfl, rfl, rfl, rfl, fun _ => rfl⟩, nofun⟩

theorem commit_of_still {s : State} (still : s.stepped.moved s.positions s.global.applied = false) :
    s.commit = s.stepped := buildDigest_of_still still

theorem commit_of_moved {s : State} (moved : s.stepped.moved s.positions s.global.applied = true) : s.commit =
    { s.stepped with
      epoch := nextEpoch s.stepped.epoch
      digest := s.stepped.newDigest (s.stepped.changedEntries s.positions)
        (decide (s.stepped.global.applied ≠ s.global.applied)) (nextEpoch s.stepped.epoch)
      pl := (s.stepped.pl.raiseIf (!s.stepped.digest.fullyFetched) .digestMissed).raise .epochReady } :=
  buildDigest_of_moved moved

theorem commit_plane (s : State) : s.commit.positions = s.stepped.positions ∧ s.commit.tiles = s.stepped.tiles ∧
    s.commit.global = s.stepped.global := by
  rw [commit_eq, buildDigest_from]
  exact ⟨rfl, rfl, rfl⟩

theorem newDigest_few {s : State} {entries : List DigestEntry} (few : entries.length ≤ 128) (g : Bool) (e : BitVec 48) :
    (s.newDigest entries g e).entries = entries ∧
      (s.newDigest entries g e).fetched = List.replicate (max ((entries.length + 15) / 16) 1) false := by
  refine ⟨if_neg ?_, congrArg (List.replicate · false) (partCount_eq few)⟩
  rw [decide_eq_true_eq]
  exact Nat.not_lt.mpr few

theorem newDigest_many {s : State} {entries : List DigestEntry} (many : 128 < entries.length) (g : Bool) (e : BitVec 48) :
    (s.newDigest entries g e).entries = [] ∧ (s.newDigest entries g e).fetched = [false] :=
  ⟨if_pos (decide_eq_true many), congrArg (List.replicate · false) (partCount_of_many many)⟩

/-- Settles O49: a tick that moves nothing leaves the digest; one that moves something builds a new one of the changed
positions, and reports a digest missed. -/
theorem changingTicksBuildADigest : Obligations.ChangingTicksBuildADigest := by
  intro s first on
  obtain ⟨x, t, done, ⟨positions, -, global, epoch, digest, flags⟩, shown, last⟩ := exec_frameTick_sameShown on first
  obtain ⟨positions', tiles', global', epoch', digest', flags'⟩ := shown
  obtain ⟨committed, listed, globalled⟩ := commit_plane x
  obtain ⟨epochKept, digestKept, flagsKept⟩ := stepped_keeps x
  have count : x.stepped.positions.length = s.positions.length := by rw [(tickMove_stepped x).length, positions]
  have plane : t.positions = x.stepped.positions := positions'.trans committed
  have vector : t.global = x.stepped.global := global'.trans globalled
  have table : t.tiles = x.stepped.tiles := tiles'.trans listed
  have movedIff : x.stepped.moved x.positions x.global.applied = true ↔
      movedBetween s.positions t.positions ≠ [] ∨ t.global.applied ≠ s.global.applied := by
    rw [positions, global, plane, vector]
    exact moved_iff count
  refine ⟨t, done, by rw [plane, count], fun ⟨still, same⟩ => ?_, fun moves => ?_⟩
  · have nothing : x.stepped.moved x.positions x.global.applied = false := by
      rw [← Bool.not_eq_true, movedIff]
      exact fun h => h.elim (fun ne => ne still) same
    rw [commit_of_still nothing] at epoch' digest' flags'
    refine ⟨by rw [digest', digestKept, digest], by rw [epoch', epochKept, epoch], ?_, ?_, fun isLast empty held n => ?_⟩
    · rw [flags', flagsKept .epochReady nofun, flags]
    · rw [flags', flagsKept .digestMissed nofun, flags]
    · obtain rfl := last isLast
      rw [flags', stepped_pl_hasFlag_of_idle (s := s.ticking) empty held, flags]
  · have length : (x.stepped.changedEntries x.positions).length = (movedBetween s.positions t.positions).length := by
      rw [positions, plane]
      exact length_changedEntries count
    have places : (x.stepped.changedEntries x.positions).map DigestEntry.position =
        movedBetween s.positions t.positions := by
      rw [positions, plane]
      exact changedEntries_positions count
    rw [commit_of_moved (movedIff.mpr moves)] at epoch' digest' flags'
    dsimp only at epoch' digest'
    rw [epochKept, epoch] at epoch' digest'
    refine ⟨fun inside => epoch'.trans (nextEpoch_of_ne inside), ?_, ?_, ?_, ?_, ?_, ?_, ?_, fun many => ?_,
      fun few => ⟨?_, fun e member p at_e => ?_, ?_⟩⟩
    · rw [flags', hasFlag_raise]
      simp
    · rw [flags', hasFlag_raise, hasFlag_raiseIf, flagsKept .digestMissed nofun, flags, digestKept, digest, Digest.fullyFetched]
      simp
    · rw [digest', epoch']
      rfl
    · rw [digest', State.newDigest, digestKept, digest]
    · rw [digest', State.newDigest, length]
      rfl
    · rw [digest', State.newDigest, vector, global]
    · rw [digest', State.newDigest, length]
      rfl
    · rw [digest']
      exact newDigest_many (by rw [length]; exact many) _ _
    · rw [digest', (newDigest_few (by rw [length]; exact few) _ _).1]
      exact places
    · rw [digest', (newDigest_few (by rw [length]; exact few) _ _).1] at member
      rw [table]
      exact mem_changedEntries member (plane ▸ at_e)
    · rw [digest', (newDigest_few (by rw [length]; exact few) _ _).2, length]
      rfl

end Sys2Proof.Machine
end

section
/-! PROOFS. Adoption (R102 to R105): the copies a record and a batch default give, the pending reasons, and the adoptions
of a TAKE or a REVERT taken together. -/
namespace Sys2Proof.Machine

/-! ### Copies -/

theorem filterMap_of_map_eq {α β : Type} {f : α → Option β} {l : List α} {m : List β} (h : l.map f = m.map some) :
    l.filterMap f = m := by
  have all := congrArg (List.filterMap id) h
  simpa [List.filterMap_map, Function.comp_def] using all

/-- The content of a record whose cells hold its groups in chain order (R4). -/
theorem content_of_groups {s : State} {e : IndexEntry} {batch : Nat} {base : Gains} {survey : Option Matrix}
    {drift : Option DriftCoef} {trim : Option Trims} {p : Presence}
    (held : e.cells.map (fun c => mapGet c s.pool.image) =
      (Group.head e.tag batch base p :: ((survey.map Group.survey).toList ++ (drift.map Group.drift).toList ++
        (trim.map Group.trim).toList)).map some) :
    s.content e = { batch := batch, base := base, survey := survey, drift := drift, trim := trim } := by
  rw [State.content, filterMap_of_map_eq held]
  cases survey <;> cases drift <;> cases trim <;> rfl

theorem batchDefault_of_getElem? {s : State} {batch : Nat} {d : BatchDefault} (at_batch : s.settings.batch[batch]? = some d) :
    s.batchDefault batch = d := by
  rw [State.batchDefault, List.getD_eq_getElem?_getD, at_batch, Option.getD_some]

theorem adoptDefault_of_getElem? {s : State} {tag batch : Nat} {d : BatchDefault}
    (at_batch : s.settings.batch[batch]? = some d) : s.adoptDefault tag batch =
      { tag := tag, source := .default, revision := 0, batch := batch, base := d.base, survey := none, coef := d.coef
        driftSource := .batch, trim := none } := by
  rw [State.adoptDefault, batchDefault_of_getElem? at_batch]

/-! ### The record condition and the pending reasons -/

theorem condition_of_none {s : State} {tag : Nat} (absent : s.findEntry tag = none) : s.condition tag = .absent := by
  rw [State.condition, absent]

theorem condition_of_some {s : State} {tag : Nat} {e : IndexEntry} (found : s.findEntry tag = some e) :
    s.condition tag = if e.status = .damaged then .damaged else .usable e.revision e.status := by
  rw [State.condition, found]
  cases status : e.status <;> simp [status]

theorem condition_of_damaged {s : State} {tag : Nat} {e : IndexEntry} (found : s.findEntry tag = some e)
    (damaged : e.status = .damaged) : s.condition tag = .damaged := by
  rw [condition_of_some found, if_pos damaged]

theorem condition_of_usable {s : State} {tag : Nat} {e : IndexEntry} (found : s.findEntry tag = some e)
    (usable : e.status ≠ .damaged) : s.condition tag = .usable e.revision e.status := by
  rw [condition_of_some found, if_neg usable]

theorem reasonOf_record_usable {s : State} {a : Adopted} {v : Nat} {st : RecStatus} (source : a.source = .record)
    (usable : s.condition a.tag = .usable v st) :
    s.reasonOf a = if v ≠ a.revision then some .newRevision else s.batchReason a := by
  simp only [State.reasonOf, source, usable]

theorem reasonOf_default_usable {s : State} {a : Adopted} {v : Nat} {st : RecStatus} (source : a.source = .default)
    (usable : s.condition a.tag = .usable v st) : s.reasonOf a = some .recordAvailable := by
  simp only [State.reasonOf, source, usable]

theorem reasonOf_record_absent {s : State} {a : Adopted} (source : a.source = .record)
    (absent : s.condition a.tag = .absent) : s.reasonOf a = some .recordAbsent := by
  simp only [State.reasonOf, source, absent]

theorem reasonOf_record_damaged {s : State} {a : Adopted} (source : a.source = .record)
    (damaged : s.condition a.tag = .damaged) : s.reasonOf a = some .recordDamaged := by
  simp only [State.reasonOf, source, damaged]

theorem reasonOf_default_unusable {s : State} {a : Adopted} (source : a.source = .default)
    (unusable : s.condition a.tag = .absent ∨ s.condition a.tag = .damaged) : s.reasonOf a = s.batchReason a := by
  rcases unusable with h | h <;> simp only [State.reasonOf, source, h]

/-- A copy just taken from a usable record has no pending reason (R105). -/
theorem reasonOf_adoptRecord {s : State} {tag : Nat} {e : IndexEntry} (found : s.findEntry tag = some e)
    (usable : e.status ≠ .damaged) : s.reasonOf (s.adoptRecord e) = none := by
  have same : (s.adoptRecord e).tag = tag := findEntry_tag found
  rw [reasonOf_record_usable rfl (by rw [same]; exact condition_of_usable found usable), if_neg (fun differs => differs rfl)]
  refine if_neg ?_
  cases drift : (s.content e).drift <;> simp [State.batchDiffers, State.adoptRecord, drift]

/-- A copy just taken from the batch default of a tag with no usable record has none either. -/
theorem reasonOf_adoptDefault {s : State} {tag batch : Nat}
    (unusable : s.condition tag = .absent ∨ s.condition tag = .damaged) : s.reasonOf (s.adoptDefault tag batch) = none := by
  rw [reasonOf_default_unusable rfl unusable]
  refine if_neg ?_
  simp [State.batchDiffers, State.adoptDefault]

theorem pendingReason_of_occupant {s : State} {p : Position} {u : TileAt} {a : Adopted}
    (occupied : p.hung.occupant = some u) (adopted : p.adopted = some a) : s.pendingReason p = s.reasonOf a := by
  rw [State.pendingReason, occupied, adopted]

theorem pendingReason_of_unoccupied {s : State} {p : Position} (empty : p.hung.occupant = none) :
    s.pendingReason p = none := by
  rw [State.pendingReason, empty]

/-! ### An adoption -/

/-- A copy a position takes, with the tile it stands for and the cause used if the copy is a default one. -/
structure Adoption where
  tile : TileAt
  copy : Adopted
  cause : Cause

/-- The state of a position that has taken a copy (R104). -/
def Adoption.hung (a : Adoption) : Hung :=
  match a.copy.source with
  | .record => .placed a.tile
  | .default => .unrecorded a.tile a.cause

theorem Adoption.hung_occupant (a : Adoption) : a.hung.occupant = some a.tile := by
  unfold Adoption.hung
  split <;> rfl

theorem Adoption.hung_eq (a : Adoption) :
    a.hung = if a.copy.source = .record then .placed a.tile else .unrecorded a.tile a.cause := by
  unfold Adoption.hung
  cases a.copy.source <;> rfl

/-- A position that takes a copy (R104, R107, R37). -/
def Position.adopts (p : Position) (s : State) (ramp : Nat) (a : Adoption) : Position :=
  { p with
    hung := a.hung, adopted := some a.copy, pending := (s.reasonOf a.copy).isSome, remaining := max ramp 1
    target := (targetOf s.tiles { p with hung := .placed a.tile, adopted := some a.copy }).1
    clamped := (targetOf s.tiles { p with hung := .placed a.tile, adopted := some a.copy }).2 }

/-- The target sees of a position its occupant, its copy and its override. -/
theorem targetOf_of_occupant {tiles : List TileStatus} {p q : Position} (occupant : q.hung.occupant = p.hung.occupant)
    (adopted : q.adopted = p.adopted) (override : q.override = p.override) : targetOf tiles q = targetOf tiles p := by
  simp only [targetOf, occupant, adopted, override]

theorem refreshPending_eq {s : State} {i : Nat} {p : Position} (at_i : s.positions[i]? = some p) : s.refreshPending i =
    { s with positions := s.positions.set i { p with pending := (s.pendingReason p).isSome } } := by
  rw [State.refreshPending, State.modPosition, updateAt_eq_set _ _ _ _ at_i]

/-- A target computation at a position that has just been set. -/
theorem compute_set {s : State} {i : Nat} {p : Position} (inside : i < s.positions.length) (ramp : Nat) :
    State.compute { s with positions := s.positions.set i p } ramp i = { s with
      positions := s.positions.set i (p.retarget s.tiles ramp), tiles := postStatus p.hung.tag s.tiles
      dirty := removeNat i s.dirty } := by
  rw [compute_eq _ ramp i p (List.getElem?_set_self inside)]
  simp only [List.set_set]

theorem adoptAt_eq {s : State} {i : Nat} {p : Position} (at_i : s.positions[i]? = some p) (ramp : Nat) (a : Adoption) :
    s.adoptAt ramp i a.tile a.copy a.cause = { s with
      positions := s.positions.set i (p.adopts s ramp a), tiles := postStatus (some a.tile.tag) s.tiles
      dirty := removeNat i s.dirty } := by
  have inside : i < s.positions.length := (List.getElem?_eq_some_iff.mp at_i).1
  have tag : a.hung.tag = some a.tile.tag := hung_tag_of_occupant a.hung_occupant
  have target : targetOf s.tiles { p with hung := a.hung, adopted := some a.copy } =
      targetOf s.tiles { p with hung := .placed a.tile, adopted := some a.copy } :=
    targetOf_of_occupant a.hung_occupant rfl rfl
  have adopts : s.adoptAt ramp i a.tile a.copy a.cause = (State.compute { s with
      positions := s.positions.set i { p with hung := a.hung, adopted := some a.copy } } ramp i).refreshPending i := by
    rw [← updateAt_eq_set (fun p : Position => { p with hung := a.hung, adopted := some a.copy }) i s.positions p at_i]
    rfl
  rw [adopts, compute_set inside, tag, refreshPending_eq (List.getElem?_set_self inside),
    pendingReason_of_occupant (u := a.tile) (a := a.copy) a.hung_occupant rfl, Position.retarget, target]
  simp only [List.set_set]
  rfl

/-! ### Adoptions taken together -/

/-- A position adopts what a plan has for it, if it has anything. -/
def adoptIf (ramp : Nat) (s : State) (e : Nat × (Position → Option Adoption)) : State :=
  match (s.positions[e.1]?).bind e.2 with
  | none => s
  | some a => s.adoptAt ramp e.1 a.tile a.copy a.cause

/-- The plane after the adoptions of a plan at distinct positions. -/
structure State.AdoptsAll (s t : State) (ramp : Nat) (plan : List (Nat × (Position → Option Adoption))) : Prop where
  touched : t = s.planeFrom t
  length : t.positions.length = s.positions.length
  tiles : ∃ P : Nat → Bool, t.tiles = postWhere P s.tiles
  others : ∀ j, (∀ e ∈ plan, e.1 = j → (s.positions[j]?).bind e.2 = none) →
    t.positions[j]? = s.positions[j]? ∧ (j ∈ t.dirty ↔ j ∈ s.dirty)
  taken : ∀ e ∈ plan, ∀ p a, s.positions[e.1]? = some p → e.2 p = some a →
    t.positions[e.1]? = some (p.adopts s ramp a) ∧ e.1 ∉ t.dirty

theorem adoptIf_planeFrom (ramp : Nat) (s : State) (e : Nat × (Position → Option Adoption)) :
    adoptIf ramp s e = s.planeFrom (adoptIf ramp s e) := by
  unfold adoptIf
  split
  · rfl
  · exact adoptAt_planeFrom _ _ _ _ _ _

theorem adopts_postWhere (P : Nat → Bool) (s t : State) (touched : t = s.planeFrom t) (tiles : t.tiles = postWhere P s.tiles)
    (ramp : Nat) (a : Adoption) (p : Position) : p.adopts t ramp a = p.adopts s ramp a := by
  have reason : t.reasonOf a.copy = s.reasonOf a.copy := by rw [touched]; rfl
  rw [Position.adopts, reason, tiles, targetOf_postWhere]
  rfl

theorem adoptIf_skips {s : State} {e : Nat × (Position → Option Adoption)} (ramp : Nat)
    (skips : (s.positions[e.1]?).bind e.2 = none) : adoptIf ramp s e = s := by
  rw [adoptIf, skips]

theorem adoptIf_takes {s : State} {e : Nat × (Position → Option Adoption)} {p : Position} {a : Adoption} (ramp : Nat)
    (at_e : s.positions[e.1]? = some p) (takes : e.2 p = some a) : adoptIf ramp s e = { s with
      positions := s.positions.set e.1 (p.adopts s ramp a), tiles := postStatus (some a.tile.tag) s.tiles
      dirty := removeNat e.1 s.dirty } := by
  rw [adoptIf, at_e, Option.bind_some, takes]
  exact adoptAt_eq at_e ramp a

/-- What one adoption leaves: the other positions, and the posted table. -/
theorem adoptIf_others (ramp : Nat) (s : State) (e : Nat × (Position → Option Adoption)) :
    (adoptIf ramp s e).positions.length = s.positions.length ∧
    (∃ P : Nat → Bool, (adoptIf ramp s e).tiles = postWhere P s.tiles) ∧
    ∀ j, j ≠ e.1 → (adoptIf ramp s e).positions[j]? = s.positions[j]? ∧ (j ∈ (adoptIf ramp s e).dirty ↔ j ∈ s.dirty) := by
  cases h : (s.positions[e.1]?).bind e.2 with
  | none =>
    rw [adoptIf_skips ramp h]
    exact ⟨rfl, ⟨_, (postWhere_false s.tiles).symm⟩, fun j _ => ⟨rfl, Iff.rfl⟩⟩
  | some a =>
    obtain ⟨p, at_e, takes⟩ := Option.bind_eq_some_iff.mp h
    rw [adoptIf_takes ramp at_e takes]
    refine ⟨List.length_set, ⟨_, postStatus_eq_postWhere (some a.tile.tag) s.tiles⟩, fun j other => ⟨?_, ?_⟩⟩
    · exact List.getElem?_set_ne (Ne.symm other)
    · simp [removeNat, other]

theorem adoptsAll_foldl (ramp : Nat) (plan : List (Nat × (Position → Option Adoption))) (s : State)
    (distinct : (plan.map Prod.fst).Nodup) : s.AdoptsAll (plan.foldl (adoptIf ramp) s) ramp plan := by
  induction plan generalizing s with
  | nil =>
    exact ⟨rfl, rfl, ⟨_, (postWhere_false s.tiles).symm⟩, fun j _ => ⟨rfl, Iff.rfl⟩, fun e he => absurd he List.not_mem_nil⟩
  | cons e plan ih =>
    obtain ⟨fresh, distinct⟩ := List.nodup_cons.mp distinct
    have apart (f : Nat × (Position → Option Adoption)) (hf : f ∈ plan) : f.1 ≠ e.1 :=
      fun same => fresh (same ▸ List.mem_map_of_mem hf)
    have touched := adoptIf_planeFrom ramp s e
    obtain ⟨length, ⟨P, posted⟩, others⟩ := adoptIf_others ramp s e
    obtain ⟨touched', length', ⟨Q, posted'⟩, others', taken'⟩ := ih (adoptIf ramp s e) distinct
    refine ⟨planeFrom_trans touched touched', length'.trans length, ⟨fun tag => P tag || Q tag, ?_⟩, fun j idle => ?_, fun f hf p a at_f takes => ?_⟩
    · rw [List.foldl_cons, posted', posted, postWhere_postWhere]
    · have first : (adoptIf ramp s e).positions[j]? = s.positions[j]? ∧ (j ∈ (adoptIf ramp s e).dirty ↔ j ∈ s.dirty) := by
        by_cases same : j = e.1
        · rw [adoptIf_skips ramp (same ▸ idle e List.mem_cons_self same.symm)]
          exact ⟨rfl, Iff.rfl⟩
        · exact others j same
      have rest := others' j (fun f hf at_f => by
        rw [first.1]
        exact idle f (List.mem_cons_of_mem e hf) at_f)
      exact ⟨rest.1.trans first.1, rest.2.trans first.2⟩
    · rcases List.mem_cons.mp hf with rfl | later
      · have first := adoptIf_takes ramp at_f takes
        have inside : f.1 < s.positions.length := (List.getElem?_eq_some_iff.mp at_f).1
        have rest := others' f.1 (fun g hg at_g => absurd at_g (apart g hg))
        refine ⟨rest.1.trans ?_, fun member => ?_⟩
        · rw [first]
          exact List.getElem?_set_self inside
        · rw [List.foldl_cons] at member
          rw [rest.2, first] at member
          simp [removeNat] at member
      · have same := others f.1 (apart f later)
        obtain ⟨placed, clean⟩ := taken' f later p a (same.1.trans at_f) takes
        exact ⟨by rw [List.foldl_cons, placed, adopts_postWhere P s _ touched posted], clean⟩

end Sys2Proof.Machine
end

section
/-! PROOFS. The TAKE (R126) and the restore points (R140 to R142): O52. -/
namespace Sys2Proof.Machine

/-! ### What a TAKE adopts -/

/-- The copy a TAKE adopts for a reason, and the cause of a default one (R126). -/
def State.takenCopy (s : State) (a : Adopted) (r : Reason) : Option (Adopted × Cause) :=
  match r, a.source with
  | .recordAbsent, _ => some (s.adoptDefault a.tag a.batch, .noRecord)
  | .recordDamaged, _ => some (s.adoptDefault a.tag a.batch, .damaged)
  | .batchChanged, .default => some (s.adoptDefault a.tag a.batch, s.takenCause a.tag)
  | _, _ => (s.findEntry a.tag).map (fun e => (s.adoptRecord e, .noRecord))

/-- What a TAKE has for a position (R126). -/
def State.takePlan (s : State) (p : Position) : Option Adoption :=
  match p.hung.occupant, p.adopted, s.pendingReason p with
  | some t, some a, some r => (s.takenCopy a r).map (fun c => ⟨t, c.1, c.2⟩)
  | _, _, _ => none

theorem takeAt_eq (s : State) (ramp i : Nat) (t : TileAt) (a : Adopted) (r : Reason) : s.takeAt ramp i t a r =
    match s.takenCopy a r with
    | none => s
    | some c => s.adoptAt ramp i t c.1 c.2 := by
  unfold State.takeAt State.takenCopy
  cases r with
  | newRevision => cases s.findEntry a.tag <;> rfl
  | recordAvailable => cases s.findEntry a.tag <;> rfl
  | recordAbsent => rfl
  | recordDamaged => rfl
  | batchChanged => cases a.source <;> cases s.findEntry a.tag <;> rfl

theorem takePosition_eq_adoptIf (ramp : Nat) (s : State) (i : Nat) :
    takePosition ramp s i = adoptIf ramp s (i, s.takePlan) := by
  unfold takePosition adoptIf State.takePlan
  cases s.positions[i]? with
  | none => rfl
  | some p =>
    dsimp only [Option.bind_some]
    cases p.hung.occupant with
    | none => rfl
    | some t =>
      cases p.adopted with
      | none => rfl
      | some a =>
        cases s.pendingReason p with
        | none => rfl
        | some r =>
          dsimp only
          rw [takeAt_eq]
          cases s.takenCopy a r <;> rfl

/-- The plan of a TAKE does not see the plane. -/
theorem takePlan_planeFrom {s t : State} (touched : t = s.planeFrom t) : t.takePlan = s.takePlan := by
  rw [touched]
  rfl

theorem foldl_takePosition (ramp : Nat) (is : List Nat) (s : State) :
    is.foldl (takePosition ramp) s = (is.map (fun i => (i, s.takePlan))).foldl (adoptIf ramp) s := by
  induction is generalizing s with
  | nil => rfl
  | cons i is ih =>
    have kept := takePlan_planeFrom (takePosition_planeFrom ramp s i)
    rw [List.foldl_cons, ih, kept, List.map_cons, List.foldl_cons, takePosition_eq_adoptIf]

/-- The copy and the cause that a TAKE has for a reason, described (R126, R35). -/
def State.TakesCopy (s : State) (a : Adopted) (r : Reason) (copy : Adopted) (cause : Cause) : Prop :=
  match r, a.source with
  | .recordAbsent, _ => cause = .noRecord ∧ copy = s.adoptDefault a.tag a.batch
  | .recordDamaged, _ => cause = .damaged ∧ copy = s.adoptDefault a.tag a.batch
  | .batchChanged, .default =>
    cause = (if s.condition a.tag = .damaged then .damaged else .noRecord) ∧ copy = s.adoptDefault a.tag a.batch
  | _, _ => ∃ e, s.findEntry a.tag = some e ∧ copy = s.adoptRecord e

theorem takenCause_eq (s : State) (tag : Nat) :
    s.takenCause tag = if s.condition tag = .damaged then .damaged else .noRecord := by
  unfold State.takenCause
  cases s.condition tag <;> rfl

theorem batchReason_eq_some {s : State} {a : Adopted} {r : Reason} (reason : s.batchReason a = some r) :
    r = .batchChanged := by
  rw [State.batchReason] at reason
  split at reason
  · exact (Option.some.inj reason).symm
  · cases reason

/-- A default copy taken again for BATCH_CHANGED. -/
theorem takenCopy_of_batchChanged {s : State} {a : Adopted} (source : a.source = .default) :
    s.takenCopy a .batchChanged = some (s.adoptDefault a.tag a.batch, s.takenCause a.tag) ∧
      s.TakesCopy a .batchChanged (s.adoptDefault a.tag a.batch) (s.takenCause a.tag) := by
  simp only [State.takenCopy, State.TakesCopy, source, takenCause_eq, and_self]

/-- A copy taken from the record, for the reasons that come from a usable one. -/
theorem takenCopy_of_usable {s : State} {a : Adopted} {e : IndexEntry} (found : s.findEntry a.tag = some e) {r : Reason}
    (fromRecord : r = .newRevision ∨ r = .recordAvailable ∨ (r = .batchChanged ∧ a.source = .record)) :
    s.takenCopy a r = some (s.adoptRecord e, .noRecord) ∧ s.TakesCopy a r (s.adoptRecord e) .noRecord := by
  rcases fromRecord with rfl | rfl | ⟨rfl, source⟩
  · cases a.source <;> simp [State.takenCopy, State.TakesCopy, found]
  · cases a.source <;> simp [State.takenCopy, State.TakesCopy, found]
  · simp [State.takenCopy, State.TakesCopy, source, found]

/-- Every pending reason has its copy, which then has no reason itself (R105, R126). -/
theorem takenCopy_of_reason {s : State} {a : Adopted} {r : Reason} (reason : s.reasonOf a = some r) :
    ∃ copy cause, s.takenCopy a r = some (copy, cause) ∧ s.reasonOf copy = none ∧ s.TakesCopy a r copy cause := by
  by_cases usable : ∃ e, s.findEntry a.tag = some e ∧ e.status ≠ .damaged
  · obtain ⟨e, found, good⟩ := usable
    have condition := condition_of_usable found good
    have fromRecord : r = .newRevision ∨ r = .recordAvailable ∨ (r = .batchChanged ∧ a.source = .record) := by
      cases source : a.source with
      | record =>
        rw [reasonOf_record_usable source condition] at reason
        split at reason
        · exact .inl (Option.some.inj reason).symm
        · exact .inr (.inr ⟨batchReason_eq_some reason, rfl⟩)
      | default =>
        rw [reasonOf_default_usable source condition] at reason
        exact .inr (.inl (Option.some.inj reason).symm)
    obtain ⟨takes, described⟩ := takenCopy_of_usable found fromRecord
    exact ⟨_, _, takes, reasonOf_adoptRecord found good, described⟩
  · have condition : s.condition a.tag = .absent ∨ s.condition a.tag = .damaged := by
      cases found : s.findEntry a.tag with
      | none => exact .inl (condition_of_none found)
      | some e => exact .inr (condition_of_damaged found (Classical.not_not.mp (fun good => usable ⟨e, found, good⟩)))
    have none_left := reasonOf_adoptDefault (batch := a.batch) condition
    cases source : a.source with
    | record =>
      rcases condition with absent | damaged
      · rw [reasonOf_record_absent source absent] at reason
        obtain rfl := Option.some.inj reason
        exact ⟨_, _, rfl, none_left, rfl, rfl⟩
      · rw [reasonOf_record_damaged source damaged] at reason
        obtain rfl := Option.some.inj reason
        exact ⟨_, _, rfl, none_left, rfl, rfl⟩
    | default =>
      rw [reasonOf_default_unusable source condition] at reason
      obtain rfl := batchReason_eq_some reason
      obtain ⟨takes, described⟩ := takenCopy_of_batchChanged (s := s) source
      exact ⟨_, _, takes, none_left, described⟩

/-! ### Restore points -/

theorem map_filterMap_eq {α β γ : Type} (f : α → Option β) (g : β → γ) (h : α → γ)
    (same : ∀ a b, f a = some b → g b = h a) (l : List α) :
    (l.filterMap f).map g = (l.filter (fun a => (f a).isSome)).map h := by
  induction l with
  | nil => rfl
  | cons a l ih =>
    cases at_a : f a with
    | none => simp [at_a, ih]
    | some b => simp [at_a, ih, same a b at_a]

theorem posRecord_eq_some {e : Nat × Position} {r : PosRecord} : posRecord e = some r ↔
    ∃ u, e.2.hung.occupant = some u ∧ e.2.adopted = some r.copy ∧ r.position = e.1 ∧ r.tag = u.tag ∧
      r.cause = e.2.hung.cause := by
  unfold posRecord
  cases e.2.hung.occupant with
  | none => simp
  | some u =>
    cases e.2.adopted with
    | none => simp
    | some a =>
      cases r
      simp only [Option.some.injEq, PosRecord.mk.injEq]
      constructor
      · rintro ⟨rfl, rfl, rfl, rfl⟩
        exact ⟨u, rfl, rfl, rfl, rfl, rfl⟩
      · rintro ⟨v, rfl, rfl, rfl, rfl, rfl⟩
        exact ⟨rfl, rfl, rfl, rfl⟩

theorem isSome_posRecord (e : Nat × Position) :
    (posRecord e).isSome = (e.2.hung.occupant.isSome && e.2.adopted.isSome) := by
  unfold posRecord
  cases e.2.hung.occupant with
  | none => rfl
  | some u => cases e.2.adopted <;> rfl

theorem restorePoint_positions (s : State) : s.restorePoint.map PosRecord.position =
    (List.range s.positions.length).filter (fun i =>
      ((s.positions[i]?).bind (fun p => p.hung.occupant)).isSome && ((s.positions[i]?).bind Position.adopted).isSome) := by
  rw [State.restorePoint, map_filterMap_eq posRecord PosRecord.position Prod.fst (fun e r recorded => by
    obtain ⟨-, -, -, position, -, -⟩ := posRecord_eq_some.mp recorded
    exact position)]
  refine map_fst_filter_indexed s _ _ (fun i p at_i => ?_)
  rw [isSome_posRecord, at_i]
  rfl

theorem mem_restorePoint {s : State} {r : PosRecord} (member : r ∈ s.restorePoint) :
    ∃ p u, s.positions[r.position]? = some p ∧ p.hung.occupant = some u ∧ r.tag = u.tag ∧ p.adopted = some r.copy ∧
      r.cause = p.hung.cause := by
  obtain ⟨e, found, recorded⟩ := List.mem_filterMap.mp member
  obtain ⟨u, occupied, adopted, position, tag, cause⟩ := posRecord_eq_some.mp recorded
  exact ⟨e.2, u, by rw [position]; exact getElem?_of_mem_indexed found, occupied, tag, adopted, cause⟩

/-! ### The entry -/

theorem mem_passing {s : State} {i : Nat} : i ∈ s.passing ↔
    ∃ p, s.positions[i]? = some p ∧ (s.pendingReason p).isSome = true := by
  rw [State.passing, map_fst_filter_indexed s _ (fun i => ((s.positions[i]?).bind s.pendingReason).isSome)
    (fun i p at_i => by rw [at_i]; rfl), List.mem_filter, List.mem_range]
  constructor
  · rintro ⟨inside, passes⟩
    refine ⟨_, List.getElem?_eq_getElem inside, ?_⟩
    rwa [List.getElem?_eq_getElem inside] at passes
  · rintro ⟨p, at_i, passes⟩
    refine ⟨(List.getElem?_eq_some_iff.mp at_i).1, ?_⟩
    rw [at_i]
    exact passes

theorem passing_nodup (s : State) : s.passing.Nodup :=
  (rising_indexed_filter s _).imp (fun h => Nat.ne_of_lt h)

theorem passing_eq_nil_iff {s : State} : s.passing = [] ↔ ∀ p ∈ s.positions, s.pendingReason p = none := by
  rw [List.eq_nil_iff_forall_not_mem]
  constructor
  · intro nowhere p hp
    obtain ⟨i, at_i⟩ := List.mem_iff_getElem?.mp hp
    rw [← Option.not_isSome_iff_eq_none]
    exact fun passes => nowhere i (mem_passing.mpr ⟨p, at_i, passes⟩)
  · intro nowhere i passes
    obtain ⟨p, at_i, some_reason⟩ := mem_passing.mp passes
    rw [nowhere p (List.mem_of_getElem? at_i)] at some_reason
    cases some_reason

theorem applyTake_of_idle {s : State} (idle : ∀ p ∈ s.positions, s.pendingReason p = none) (ramp : Nat) :
    s.applyTake ramp = s := by
  rw [State.applyTake, passing_eq_nil_iff.mpr idle]

theorem takePlan_of_idle {s : State} {p : Position} (idle : s.pendingReason p = none) : s.takePlan p = none := by
  rw [State.takePlan, idle]
  cases p.hung.occupant <;> cases p.adopted <;> rfl

/-- The adoptions of a TAKE (R126), over the state with its restore point pushed. -/
theorem adoptsAll_applyTake {s : State} (busy : ∃ p ∈ s.positions, s.pendingReason p ≠ none) (ramp : Nat) :
    s.pushPoint.AdoptsAll (s.applyTake ramp) ramp (s.passing.map (fun i => (i, s.takePlan))) := by
  obtain ⟨p, hp, reason⟩ := busy
  have some_pass : s.passing ≠ [] := fun none_pass => reason (passing_eq_nil_iff.mp none_pass p hp)
  have applied : s.applyTake ramp = s.passing.foldl (takePosition ramp) s.pushPoint := by
    rw [State.applyTake]
    split
    · next none_pass => exact absurd none_pass some_pass
    · next passes => rw [passes]
  have plan : s.pushPoint.takePlan = s.takePlan := by rw [pushPoint_eq]; rfl
  rw [applied, foldl_takePosition, plan]
  refine adoptsAll_foldl ramp _ _ ?_
  rw [List.map_map]
  exact (List.map_id' s.passing).symm ▸ passing_nodup s

/-- The positions and the dirty set after a TAKE, whether or not it passes anything. -/
theorem applyTake_unpending {s : State} (ramp : Nat) {i : Nat} {p : Position} (at_i : s.positions[i]? = some p)
    (idle : s.pendingReason p = none) : (s.applyTake ramp).positions[i]? = some p ∧
      (i ∈ (s.applyTake ramp).dirty ↔ i ∈ s.dirty) := by
  by_cases busy : ∃ p ∈ s.positions, s.pendingReason p ≠ none
  · have pushed : s.pushPoint.positions = s.positions ∧ s.pushPoint.dirty = s.dirty := by
      rw [pushPoint_eq]; exact ⟨rfl, rfl⟩
    obtain ⟨placed, dirty⟩ := (adoptsAll_applyTake busy ramp).others i (fun e he same => by
      obtain ⟨j, -, rfl⟩ := List.mem_map.mp he
      rw [pushed.1, at_i]
      exact takePlan_of_idle idle)
    rw [pushed.1, at_i] at placed
    rw [pushed.2] at dirty
    exact ⟨placed, dirty⟩
  · rw [applyTake_of_idle (fun p hp => Classical.not_not.mp (fun reason => busy ⟨p, hp, reason⟩))]
    exact ⟨at_i, Iff.rfl⟩

theorem applyTake_outside {s : State} (ramp : Nat) {i : Nat} (outside : s.positions[i]? = none) :
    i ∈ (s.applyTake ramp).dirty ↔ i ∈ s.dirty := by
  by_cases busy : ∃ p ∈ s.positions, s.pendingReason p ≠ none
  · have pushed : s.pushPoint.positions = s.positions ∧ s.pushPoint.dirty = s.dirty := by
      rw [pushPoint_eq]; exact ⟨rfl, rfl⟩
    have kept := ((adoptsAll_applyTake busy ramp).others i (fun e he same => by rw [pushed.1, outside]; rfl)).2
    rwa [pushed.2] at kept
  · rw [applyTake_of_idle (fun p hp => Classical.not_not.mp (fun reason => busy ⟨p, hp, reason⟩))]

theorem applyTake_length (s : State) (ramp : Nat) : (s.applyTake ramp).positions.length = s.positions.length :=
  (tickMove_applyTake s ramp).length

theorem applyTake_tiles (s : State) (ramp : Nat) : (s.applyTake ramp).tiles.length = s.tiles.length := by
  by_cases busy : ∃ p ∈ s.positions, s.pendingReason p ≠ none
  · obtain ⟨P, posted⟩ := (adoptsAll_applyTake busy ramp).tiles
    rw [posted, postWhere, List.length_map, pushPoint_eq]
  · rw [applyTake_of_idle (fun p hp => Classical.not_not.mp (fun reason => busy ⟨p, hp, reason⟩))]

/-- A pending position after a TAKE. -/
theorem applyTake_pending {s : State} (ramp : Nat) {i : Nat} {p : Position} {u : TileAt} {a : Adopted} {r : Reason}
    (at_i : s.positions[i]? = some p) (occupied : p.hung.occupant = some u) (adopted : p.adopted = some a)
    (reason : s.pendingReason p = some r) : ∃ copy cause, s.takenCopy a r = some (copy, cause) ∧
      (s.applyTake ramp).positions[i]? = some (p.adopts s ramp ⟨u, copy, cause⟩) ∧ s.reasonOf copy = none ∧
      i ∉ (s.applyTake ramp).dirty ∧
      s.TakesCopy a r copy cause := by
  have own := reason
  rw [pendingReason_of_occupant occupied adopted] at own
  obtain ⟨copy, cause, takes, none_left, described⟩ := takenCopy_of_reason own
  have member : i ∈ s.passing := mem_passing.mpr ⟨p, at_i, by rw [reason]; rfl⟩
  have plan : s.takePlan p = some ⟨u, copy, cause⟩ := by
    simp only [State.takePlan, occupied, adopted, reason, takes, Option.map_some]
  obtain ⟨placed, clean⟩ := (adoptsAll_applyTake ⟨p, List.mem_of_getElem? at_i, by simp [reason]⟩ ramp).taken
    (i, s.takePlan) (List.mem_map_of_mem member) p ⟨u, copy, cause⟩ (by rw [pushPoint_eq]; exact at_i) plan
  refine ⟨copy, cause, takes, ?_, none_left, clean, described⟩
  rw [placed, pushPoint_eq]
  rfl

end Sys2Proof.Machine
end

section
/-! PROOFS. The TAKE of a tick: O52. -/
namespace Sys2Proof.Machine

/-! ### A tick and the notices of DL -/

theorem stepped_dl_hasFlag (s : State) (held : (s.changes.foldl State.applyChange s).hold = true) (n : Notice) :
    s.stepped.dl.hasFlag n = (s.changes.foldl State.applyChange s).dl.hasFlag n := by
  rw [stepped_eq, takeDirty_of_hold held]
  rfl

/-- A tick with drift held: its plane, and the notices that no engine raises as its entries leave them on DL. -/
theorem exec_frameTick_dl {s : State} (on : s.power = .on) (held : s.hold = true) :
    ∃ t, exec (.frameTick false) s = .next t ∧ s.TickPlane t ∧ ∀ n : Notice, n.ofEngine = false →
      t.dl.hasFlag n = (s.afterEntries s.changes.length).dl.hasFlag n := by
  refine ⟨_, exec_frameTick_last on, (tickPlane_commit s).pulsed, fun n other => ?_⟩
  have quiet := (pulseMove_framePulse s.ticking.commit).quiet .dl n (.inr other)
  have applied := applyChanges_appliedFrom s.ticking.changes s.ticking
  have still : (s.ticking.changes.foldl State.applyChange s.ticking).hold = true := by rw [applied]; exact held
  have committed : s.ticking.commit.dl.hasFlag n = s.ticking.stepped.dl.hasFlag n := by
    rw [commit_eq, buildDigest_from]
  rw [afterEntries_all, ← stepped_dl_hasFlag _ still, ← committed]
  exact quiet

theorem afterEntries_hold (s : State) (k : Nat) : (s.afterEntries k).hold = s.hold := by
  rw [afterEntries_appliedFrom]
  rfl

/-! ### What a step keeps of a position -/

theorem position_step_keeps (p : Position) : p.step.hung = p.hung ∧ p.step.adopted = p.adopted ∧
    p.step.override = p.override ∧ p.step.pending = p.pending ∧ p.step.remaining = p.remaining - 1 := by
  by_cases rest : p.remaining = 0
  · rw [position_step_atRest rest, rest]
    exact ⟨rfl, rfl, rfl, rfl, rfl⟩
  · rw [position_step_running (by omega)]
    exact ⟨rfl, rfl, rfl, rfl, rfl⟩

theorem hasFlag_pushPoint (s : State) : s.pushPoint.dl.hasFlag .historyOverrun =
    (s.dl.hasFlag .historyOverrun || decide (4 ≤ s.history.length)) := by
  rw [pushPoint_eq]
  exact (hasFlag_raiseIf _ _ _ _).trans (by simp)

/-- The position with its copy taken, in O52's terms: nothing is left pending. -/
theorem adopts_taken {s : State} {p : Position} {ramp : Nat} {u : TileAt} {copy : Adopted} {cause : Cause}
    (none_left : s.reasonOf copy = none) : p.adopts s ramp ⟨u, copy, cause⟩ = { p with
      hung := if copy.source = .record then .placed u else .unrecorded u cause
      adopted := some copy, pending := false, remaining := max ramp 1
      target := (targetOf s.tiles { p with hung := .placed u, adopted := some copy }).1
      clamped := (targetOf s.tiles { p with hung := .placed u, adopted := some copy }).2 } := by
  rw [Position.adopts, none_left, Adoption.hung_eq]
  rfl

theorem occupant_adopted_of_pending {s : State} {p : Position} {r : Reason} (reason : s.pendingReason p = some r) :
    ∃ u a, p.hung.occupant = some u ∧ p.adopted = some a := by
  unfold State.pendingReason at reason
  cases occupied : p.hung.occupant with
  | none => simp [occupied] at reason
  | some u =>
    cases adopted : p.adopted with
    | none => simp [occupied, adopted] at reason
    | some a => exact ⟨u, a, rfl, rfl⟩

/-- The dirty set after a TAKE: what passed is dropped. -/
theorem mem_dirty_applyTake (s : State) (ramp i : Nat) : i ∈ (s.applyTake ramp).dirty ↔
    i ∈ s.dirty ∧ ∀ p, s.positions[i]? = some p → s.pendingReason p = none := by
  cases at_i : s.positions[i]? with
  | none => simp [applyTake_outside ramp at_i]
  | some p =>
    cases reason : s.pendingReason p with
    | none => simp [(applyTake_unpending ramp at_i reason).2, reason]
    | some r =>
      obtain ⟨u, a, occupied, adopted⟩ := occupant_adopted_of_pending reason
      obtain ⟨-, -, -, -, -, clean, -⟩ := applyTake_pending ramp at_i occupied adopted reason
      simp [clean, reason]

theorem applyTake_history {s : State} (busy : ∃ p ∈ s.positions, s.pendingReason p ≠ none) (ramp : Nat) :
    (s.applyTake ramp).history = s.restorePoint :: (if s.history.length < 4 then s.history else s.history.tail) ∧
    (s.applyTake ramp).dl.hasFlag .historyOverrun =
      (s.dl.hasFlag .historyOverrun || decide (4 ≤ s.history.length)) := by
  rw [(adoptsAll_applyTake busy ramp).touched]
  exact ⟨pushPoint_history s, hasFlag_pushPoint s⟩

/-- The position of a described copy (R104). -/
theorem State.TakesCopy.position {s : State} {a : Adopted} {r : Reason} {copy : Adopted} {cause : Cause}
    (described : s.TakesCopy a r copy cause) (u : TileAt) {h : Hung} (hung : h = (Adoption.mk u copy cause).hung) :
    match (generalizing := false) r, a.source with
    | .recordAbsent, _ => h = .unrecorded u .noRecord ∧ copy = s.adoptDefault a.tag a.batch
    | .recordDamaged, _ => h = .unrecorded u .damaged ∧ copy = s.adoptDefault a.tag a.batch
    | .batchChanged, .default =>
      h = .unrecorded u (if s.condition a.tag = .damaged then .damaged else .noRecord) ∧
      copy = s.adoptDefault a.tag a.batch
    | _, _ => h = .placed u ∧ ∃ e, s.findEntry a.tag = some e ∧ copy = s.adoptRecord e := by
  subst hung
  have fromRecord (taken : ∃ e, s.findEntry a.tag = some e ∧ copy = s.adoptRecord e) :
      (Adoption.mk u copy cause).hung = .placed u ∧ ∃ e, s.findEntry a.tag = some e ∧ copy = s.adoptRecord e := by
    obtain ⟨e, found, rfl⟩ := taken
    exact ⟨rfl, e, found, rfl⟩
  cases r with
  | newRevision => exact fromRecord described
  | recordAvailable => exact fromRecord described
  | recordAbsent =>
    obtain ⟨rfl, rfl⟩ := described
    exact ⟨rfl, rfl⟩
  | recordDamaged =>
    obtain ⟨rfl, rfl⟩ := described
    exact ⟨rfl, rfl⟩
  | batchChanged =>
    cases source : a.source with
    | record =>
      simp only [State.TakesCopy, source] at described ⊢
      exact fromRecord described
    | default =>
      simp only [State.TakesCopy, source] at described ⊢
      obtain ⟨rfl, rfl⟩ := described
      exact ⟨rfl, rfl⟩

theorem batchReason_eq {s : State} {a : Adopted} {d : BatchDefault} (batch : s.batchDefault a.batch = d) :
    (a.source = .default ∧ a.base ≠ d.base ∨ a.driftSource = .batch ∧ a.coef ≠ d.coef →
      s.batchReason a = some .batchChanged) ∧
    (¬(a.source = .default ∧ a.base ≠ d.base ∨ a.driftSource = .batch ∧ a.coef ≠ d.coef) → s.batchReason a = none) := by
  have differs : s.batchDiffers a = true ↔
      a.source = .default ∧ a.base ≠ d.base ∨ a.driftSource = .batch ∧ a.coef ≠ d.coef := by
    simp only [State.batchDiffers, batch, Bool.or_eq_true, Bool.and_eq_true, decide_eq_true_eq]
  rw [State.batchReason]
  exact ⟨fun h => if_pos (differs.mpr h), fun h => if_neg (fun b => h (differs.mp b))⟩

/-- The pending reasons in the order they are tested (R105). -/
theorem reasonOf_described {s : State} {a : Adopted} {d : BatchDefault} (batch : s.batchDefault a.batch = d) :
    let usable (test : Nat → Bool) : Prop :=
      (s.findEntry a.tag).any (fun e => decide (e.status ≠ .damaged) && test e.revision) = true
    let newRevision := a.source = .record ∧ usable (fun v => decide (v ≠ a.revision))
    let available := a.source = .default ∧ usable (fun _ => true)
    let absent := a.source = .record ∧ s.findEntry a.tag = none
    let damaged := a.source = .record ∧ (s.findEntry a.tag).map IndexEntry.status = some .damaged
    let changed := a.source = .default ∧ a.base ≠ d.base ∨ a.driftSource = .batch ∧ a.coef ≠ d.coef
    (newRevision → s.reasonOf a = some .newRevision) ∧
    (¬newRevision → available → s.reasonOf a = some .recordAvailable) ∧
    (¬newRevision → ¬available → absent → s.reasonOf a = some .recordAbsent) ∧
    (¬newRevision → ¬available → ¬absent → damaged → s.reasonOf a = some .recordDamaged) ∧
    (¬newRevision → ¬available → ¬absent → ¬damaged → changed → s.reasonOf a = some .batchChanged) ∧
    (¬newRevision → ¬available → ¬absent → ¬damaged → ¬changed → s.reasonOf a = none) := by
  intro usable newRevision available absent damaged changed
  obtain ⟨differs, same⟩ := batchReason_eq batch
  have usable_iff (test : Nat → Bool) :
      usable test ↔ ∃ e, s.findEntry a.tag = some e ∧ e.status ≠ .damaged ∧ test e.revision = true := by
    cases found : s.findEntry a.tag <;> simp [usable, found]
  have untouched (new : ¬newRevision) (avail : ¬available) (abs : ¬absent) (dam : ¬damaged) :
      s.reasonOf a = s.batchReason a := by
    cases source : a.source with
    | record =>
      cases found : s.findEntry a.tag with
      | none => exact absurd ⟨source, found⟩ abs
      | some e =>
        by_cases bad : e.status = .damaged
        · exact absurd ⟨source, by rw [found, Option.map_some, bad]⟩ dam
        · rw [reasonOf_record_usable source (condition_of_usable found bad)]
          refine if_neg (fun differs => new ⟨source, (usable_iff (fun v => decide (v ≠ a.revision))).mpr ?_⟩)
          exact ⟨e, found, bad, decide_eq_true differs⟩
    | default =>
      cases found : s.findEntry a.tag with
      | none => exact reasonOf_default_unusable source (.inl (condition_of_none found))
      | some e =>
        by_cases bad : e.status = .damaged
        · exact reasonOf_default_unusable source (.inr (condition_of_damaged found bad))
        · exact absurd ⟨source, (usable_iff (fun _ => true)).mpr ⟨e, found, bad, rfl⟩⟩ avail
  refine ⟨fun ⟨source, use⟩ => ?_, fun _ ⟨source, use⟩ => ?_, fun _ _ ⟨source, missing⟩ => ?_,
    fun _ _ _ ⟨source, bad⟩ => ?_, fun new avail abs dam chg => ?_, fun new avail abs dam chg => ?_⟩
  · obtain ⟨e, found, good, differs⟩ := (usable_iff (fun v => decide (v ≠ a.revision))).mp use
    rw [reasonOf_record_usable source (condition_of_usable found good), if_pos (of_decide_eq_true differs)]
  · obtain ⟨e, found, good, -⟩ := (usable_iff (fun _ => true)).mp use
    exact reasonOf_default_usable source (condition_of_usable found good)
  · exact reasonOf_record_absent source (condition_of_none missing)
  · obtain ⟨e, found, status⟩ := Option.map_eq_some_iff.mp bad
    exact reasonOf_record_damaged source (condition_of_damaged found status)
  · rw [untouched new avail abs dam]
    exact differs chg
  · rw [untouched new avail abs dam]
    exact same chg

/-- Settles O52: the copies, the reasons in their order, the restore points, and what a TAKE entry makes of the plane, the
History and each position; then the same of a tick. -/
theorem takeAdoptsPendingPositions : Obligations.TakeAdoptsPendingPositions := by
  refine ⟨fun s e batch base survey drift trim d held at_batch => ?_,
    fun s tag batch d at_batch => adoptDefault_of_getElem? at_batch,
    fun s tag => ⟨rfl, condition_of_none, fun e => condition_of_some⟩, fun s a d at_batch => ?_,
    fun s p => ⟨fun empty => pendingReason_of_unoccupied (by rw [empty]; rfl),
      fun u duplicate => pendingReason_of_unoccupied (by rw [duplicate]; rfl), fun u a adopted occupied => ?_⟩,
    fun s => ⟨restorePoint_positions s, fun r member => mem_restorePoint member⟩, fun s k ramp entry => ?_,
    fun s ramp on held single => ?_⟩
  · rw [State.adoptRecord, content_of_groups held]
    cases drift <;> simp [batchDefault_of_getElem? at_batch]
  · exact reasonOf_described (batchDefault_of_getElem? at_batch)
  · refine pendingReason_of_occupant (u := u) ?_ adopted
    rcases occupied with h | ⟨c, h⟩ <;> rw [h] <;> rfl
  · intro m n
    have applied : n = m.applyTake ramp := afterEntries_succ entry
    rw [applied]
    refine ⟨fun idle => applyTake_of_idle idle ramp, fun busy => ?_, mem_dirty_applyTake m ramp, applyTake_length m ramp,
      fun i p at_i idle => (applyTake_unpending ramp at_i idle).1,
      fun i p u a r at_i occupied adopted reason => ?_⟩
    · obtain ⟨history, overrun⟩ := applyTake_history busy ramp
      exact ⟨history, overrun, applyTake_takenFrom m ramp⟩
    · obtain ⟨copy, cause, -, placed, none_left, -, described⟩ := applyTake_pending ramp at_i occupied adopted reason
      rw [adopts_taken none_left] at placed
      exact ⟨copy, cause, placed, described⟩
  · obtain ⟨t, done, plane, flags⟩ := exec_frameTick_dl on held
    have overrun := flags .historyOverrun rfl
    obtain ⟨positions, tiles, -, -, -, history, -, -, queue⟩ := plane
    have applied : s.afterEntries s.changes.length = s.ticking.applyTake ramp := afterEntries_of_single single
    rw [takeDirty_of_hold (by rw [afterEntries_hold]; exact held), applied] at positions tiles
    rw [applied] at history overrun
    refine ⟨t, done, queue, ?_, fun idle => ?_, fun busy => ?_, fun i p at_i idle => ?_,
      fun i p u a r at_i occupied adopted reason => ?_⟩
    · rw [tiles]
      exact applyTake_tiles s.ticking ramp
    · rw [applyTake_of_idle (s := s.ticking) idle ramp] at positions history
      exact ⟨history, positions⟩
    · obtain ⟨pushed, raised⟩ := applyTake_history (s := s.ticking) busy ramp
      refine ⟨history.trans pushed, fun full => ?_, fun room => ?_⟩
      · rw [overrun, raised, decide_eq_true (show 4 ≤ s.ticking.history.length from full), Bool.or_true]
      · rw [overrun, raised, decide_eq_false (show ¬4 ≤ s.ticking.history.length from Nat.not_le.mpr room), Bool.or_false]
        rfl
    · rw [positions, List.getElem?_map, (applyTake_unpending (s := s.ticking) ramp at_i idle).1]
      rfl
    · obtain ⟨copy, cause, -, placed, none_left, -, described⟩ :=
        applyTake_pending (s := s.ticking) ramp at_i occupied adopted reason
      obtain ⟨hung, adopted', override, pending, remaining⟩ := position_step_keeps (p.adopts s.ticking ramp ⟨u, copy, cause⟩)
      refine ⟨_, copy, ?_, adopted', override, pending.trans (by rw [adopts_taken none_left]), remaining, ?_⟩
      · rw [positions, List.getElem?_map, placed, Option.map_some]
      · exact described.position u hung

end Sys2Proof.Machine
end

section
/-! PROOFS. The REVERT (R144 to R147): O53. -/
namespace Sys2Proof.Machine

/-! ### What a REVERT has for a position -/

/-- What a position record has for its position: nothing where the tag is another's or the copy is there already (R144). -/
def State.revertPlan (s : State) (r : PosRecord) (p : Position) : Option Adoption :=
  match p.hung.occupant with
  | none => none
  | some u => if u.tag = r.tag ∧ p.adopted ≠ some r.copy then some ⟨u, r.copy, s.restoredCause r⟩ else none

theorem revertPlan_eq_some {s : State} {r : PosRecord} {p : Position} {u : TileAt} (occupied : p.hung.occupant = some u)
    (tagged : u.tag = r.tag) (other : p.adopted ≠ some r.copy) :
    s.revertPlan r p = some ⟨u, r.copy, s.restoredCause r⟩ := by
  rw [State.revertPlan, occupied]
  exact if_pos ⟨tagged, other⟩

theorem revertPlan_eq_none {s : State} {r : PosRecord} {p : Position}
    (leaves : p.hung.tag ≠ some r.tag ∨ p.adopted = some r.copy) : s.revertPlan r p = none := by
  unfold State.revertPlan
  cases occupied : p.hung.occupant with
  | none => rfl
  | some u =>
    refine if_neg (fun ⟨tagged, other⟩ => leaves.elim (fun h => h ?_) other)
    rw [hung_tag_of_occupant occupied, tagged]

/-- A record is counted as skipped when its tag does not occupy its position (R145). -/
def State.skips (s : State) (r : PosRecord) : Bool :=
  decide (((s.positions[r.position]?).bind (fun p => p.hung.tag)) ≠ some r.tag)

theorem restorePosition_eq (ramp : Nat) (a : State × Nat) (r : PosRecord) : restorePosition ramp a r =
    (adoptIf ramp a.1 (r.position, a.1.revertPlan r), a.2 + if a.1.skips r = true then 1 else 0) := by
  unfold restorePosition adoptIf State.skips State.revertPlan
  cases a.1.positions[r.position]? with
  | none => rfl
  | some p =>
    dsimp only [Option.bind_some]
    cases occupied : p.hung.occupant with
    | none => simp [Hung.tag, occupied]
    | some u =>
      by_cases tagged : u.tag = r.tag
      · by_cases same : p.adopted = some r.copy <;> simp [Hung.tag, occupied, tagged, same]
      · simp [Hung.tag, occupied, tagged]

theorem revertPlan_planeFrom {s t : State} (touched : t = s.planeFrom t) : t.revertPlan = s.revertPlan := by
  rw [touched]
  rfl

/-- The records of a point restored one after another: their adoptions, and the count of those skipped. -/
theorem foldl_restorePosition (ramp : Nat) (rs : List PosRecord) (a : State × Nat)
    (distinct : (rs.map PosRecord.position).Nodup) : rs.foldl (restorePosition ramp) a =
      ((rs.map (fun r => (r.position, a.1.revertPlan r))).foldl (adoptIf ramp) a.1,
        a.2 + (rs.filter a.1.skips).length) := by
  induction rs generalizing a with
  | nil => rfl
  | cons r rs ih =>
    obtain ⟨fresh, distinct⟩ := List.nodup_cons.mp distinct
    have first := restorePosition_eq ramp a r
    have kept := revertPlan_planeFrom (adoptIf_planeFrom ramp a.1 (r.position, a.1.revertPlan r))
    obtain ⟨-, -, others⟩ := adoptIf_others ramp a.1 (r.position, a.1.revertPlan r)
    have skips : rs.filter (adoptIf ramp a.1 (r.position, a.1.revertPlan r)).skips = rs.filter a.1.skips := by
      refine List.filter_congr (fun q hq => ?_)
      have apart : q.position ≠ r.position := fun same => fresh (same ▸ List.mem_map_of_mem hq)
      rw [State.skips, State.skips, (others q.position apart).1]
    rw [List.foldl_cons, first, ih _ distinct]
    dsimp only
    rw [kept, skips, List.map_cons, List.foldl_cons, List.filter_cons]
    refine congrArg (Prod.mk _) ?_
    cases a.1.skips r with
    | false => exact Nat.add_zero _ ▸ rfl
    | true => exact (Nat.add_assoc _ 1 _).trans (congrArg (a.2 + ·) (Nat.add_comm 1 _))

/-! ### The entry -/

/-- The adoptions of a REVERT of a point, and what it skips (R144). -/
theorem applyRevert_point {s : State} {point : List PosRecord} {rest : List (List PosRecord)}
    (held : s.history = point :: rest) (rises : (point.map PosRecord.position).Pairwise (· < ·)) (ramp : Nat) :
    (s.applyRevert ramp).lastSkipped = (point.filter s.skips).length ∧
    ∃ t, ({ s with history := rest } : State).AdoptsAll t ramp
        (point.map (fun r => (r.position, s.revertPlan r))) ∧
      (s.applyRevert ramp).positions = t.positions ∧ (s.applyRevert ramp).dirty = t.dirty := by
  have distinct : (point.map PosRecord.position).Nodup := rises.imp (fun h => Nat.ne_of_lt h)
  have restored := foldl_restorePosition ramp point ({ s with history := rest }, 0) distinct
  have plan : State.revertPlan { s with history := rest } = s.revertPlan := rfl
  have skips : State.skips { s with history := rest } = s.skips := rfl
  rw [plan, skips] at restored
  rw [applyRevert_of_cons ramp held, restored]
  refine ⟨Nat.zero_add _, _, adoptsAll_foldl ramp _ _ ?_, rfl, rfl⟩
  rw [List.map_map]
  exact distinct

theorem applyRevert_left {s : State} {point : List PosRecord} {rest : List (List PosRecord)}
    (held : s.history = point :: rest) (rises : (point.map PosRecord.position).Pairwise (· < ·)) (ramp : Nat) {i : Nat}
    {p : Position} (at_i : s.positions[i]? = some p)
    (left : ∀ r ∈ point, r.position = i → p.hung.tag ≠ some r.tag ∨ p.adopted = some r.copy) :
    (s.applyRevert ramp).positions[i]? = some p ∧ (i ∈ (s.applyRevert ramp).dirty ↔ i ∈ s.dirty) := by
  obtain ⟨-, t, adopts, positions, dirty⟩ := applyRevert_point held rises ramp
  rw [positions, dirty]
  obtain ⟨placed, kept⟩ := adopts.others i (fun e he at_e => by
    obtain ⟨r, hr, rfl⟩ := List.mem_map.mp he
    exact (congrArg (fun o => Option.bind o (s.revertPlan r)) at_i).trans (revertPlan_eq_none (left r hr at_e)))
  exact ⟨placed.trans at_i, kept⟩

/-- The position a restored copy leaves (R104, R145), in the terms of R144. -/
theorem adopts_restored {s : State} {p : Position} {u : TileAt} {r : PosRecord} (ramp : Nat)
    (occupied : p.hung.occupant = some u) : p.adopts s ramp ⟨u, r.copy, s.restoredCause r⟩ = { p with
      adopted := some r.copy, remaining := max ramp 1, pending := (s.reasonOf r.copy).isSome
      target := (targetOf s.tiles { p with adopted := some r.copy }).1
      clamped := (targetOf s.tiles { p with adopted := some r.copy }).2
      hung := match r.copy.source with
        | .record => .placed u
        | .default => .unrecorded u (match s.condition r.tag with
          | .damaged => .damaged
          | .absent => .noRecord
          | .usable _ _ => r.cause.getD .noRecord) } := by
  have target : targetOf s.tiles { p with hung := .placed u, adopted := some r.copy } =
      targetOf s.tiles { p with adopted := some r.copy } := targetOf_of_occupant occupied.symm rfl rfl
  rw [Position.adopts, target]
  rfl

theorem applyRevert_restored {s : State} {point : List PosRecord} {rest : List (List PosRecord)}
    (held : s.history = point :: rest) (rises : (point.map PosRecord.position).Pairwise (· < ·)) (ramp : Nat) {i : Nat}
    {p : Position} (at_i : s.positions[i]? = some p) {r : PosRecord} {u : TileAt} (member : r ∈ point)
    (position : r.position = i) (occupied : p.hung.occupant = some u) (tagged : u.tag = r.tag)
    (other : p.adopted ≠ some r.copy) :
    i ∉ (s.applyRevert ramp).dirty ∧
      (s.applyRevert ramp).positions[i]? = some (p.adopts s ramp ⟨u, r.copy, s.restoredCause r⟩) := by
  subst position
  obtain ⟨-, t, adopts, positions, dirty⟩ := applyRevert_point held rises ramp
  rw [positions, dirty]
  obtain ⟨placed, clean⟩ := adopts.taken (r.position, s.revertPlan r) (List.mem_map_of_mem member) p _ at_i
    (revertPlan_eq_some occupied tagged other)
  exact ⟨clean, placed⟩

/-- Settles O53: a REVERT with an empty History is reported; otherwise the popped point is restored where its tags still
stand, and the records skipped are counted; then the same of a tick. -/
theorem revertRestoresThePoppedPoint : Obligations.RevertRestoresThePoppedPoint := by
  refine ⟨fun s k ramp entry => ?_, fun s ramp on held single => ?_⟩
  · intro m n
    have applied : n = m.applyRevert ramp := afterEntries_succ entry
    rw [applied]
    refine ⟨fun empty => ?_, fun point rest pops rises => ?_⟩
    · rw [applyRevert_of_empty ramp empty]
      exact ⟨rfl, fun x => hasFlag_raise _ _ _⟩
    · refine ⟨(applyRevert_point pops rises ramp).1, applyRevert_from_of_cons ramp pops,
        (tickMove_applyRevert m ramp).length, fun i p at_i => ⟨applyRevert_left pops rises ramp at_i,
        fun r u member position occupied tagged other => ?_⟩⟩
      obtain ⟨clean, placed⟩ := applyRevert_restored pops rises ramp at_i member position occupied tagged other
      exact ⟨clean, _, placed, adopts_restored ramp occupied⟩
  · obtain ⟨t, done, plane, flags⟩ := exec_frameTick_dl on held
    have reported := flags .historyEmpty rfl
    obtain ⟨positions, -, -, -, -, history, skipped, -, queue⟩ := plane
    have applied : s.afterEntries s.changes.length = s.ticking.applyRevert ramp := afterEntries_of_single single
    rw [takeDirty_of_hold (by rw [afterEntries_hold]; exact held), applied] at positions
    rw [applied] at history skipped reported
    refine ⟨t, done, queue, fun empty => ?_, fun point rest pops rises => ?_⟩
    · rw [applyRevert_of_empty (s := s.ticking) ramp empty] at positions history skipped reported
      refine ⟨history.trans empty, skipped, ?_, positions⟩
      rw [reported]
      exact (hasFlag_raise _ _ _).trans (by simp)
    · have kept := applyRevert_from_of_cons (s := s.ticking) ramp pops
      refine ⟨history.trans (congrArg State.history kept), skipped.trans (applyRevert_point (s := s.ticking) pops rises ramp).1,
        fun i p at_i => ⟨fun left => ?_, fun r u member position occupied tagged other => ?_⟩⟩
      · rw [positions, List.getElem?_map, (applyRevert_left (s := s.ticking) pops rises ramp at_i left).1]
        rfl
      · obtain ⟨-, placed⟩ := applyRevert_restored (s := s.ticking) pops rises ramp at_i member position occupied tagged other
        obtain ⟨hung, adopted, override, -, remaining⟩ :=
          position_step_keeps (p.adopts s.ticking ramp ⟨u, r.copy, s.ticking.restoredCause r⟩)
        refine ⟨_, ?_, adopted, override, remaining, ?_⟩
        · rw [positions, List.getElem?_map, placed, Option.map_some]
        · rw [hung, adopts_restored ramp occupied]
          rfl

end Sys2Proof.Machine
end

section
/-! PROOFS. The PLACE (R76 to R78): what a staged map makes of the live map and of the Tile Status table. -/
namespace Sys2Proof.Machine

/-! ### Tables by key -/

theorem mem_of_mapGet {α : Type} {k : Nat} {v : α} {m : List (Nat × α)} (listed : mapGet k m = some v) : (k, v) ∈ m := by
  induction m with
  | nil => cases listed
  | cons e m ih =>
    obtain ⟨j, w⟩ := e
    simp only [mapGet] at listed
    split at listed
    · next same => rw [← same, ← Option.some.inj listed]; exact List.mem_cons_self
    · exact List.mem_cons_of_mem _ (ih listed)

theorem mapGet_eq_none {α : Type} {k : Nat} {m : List (Nat × α)} (unlisted : ∀ e ∈ m, e.1 ≠ k) : mapGet k m = none := by
  cases listed : mapGet k m with
  | none => rfl
  | some v => exact absurd rfl (unlisted (k, v) (mem_of_mapGet listed))

theorem mapGet_of_mem {α : Type} {k : Nat} {v : α} {m : List (Nat × α)} (distinct : (m.map Prod.fst).Nodup)
    (listed : (k, v) ∈ m) : mapGet k m = some v := by
  induction m with
  | nil => cases listed
  | cons e m ih =>
    obtain ⟨fresh, distinct⟩ := List.nodup_cons.mp distinct
    rcases List.mem_cons.mp listed with rfl | later
    · simp [mapGet]
    · have apart : e.1 ≠ k := fun same => fresh (same ▸ List.mem_map_of_mem later)
      exact (if_neg apart).trans (ih distinct later)

/-! ### The positions a PLACE touches -/

/-- The entry and the copy that a PLACE has for a position, if it touches it (R76, R68). -/
def State.placeAt (s : State) (staged : List (Nat × Hung)) (seen : List TileSeen) (i : Nat) (p : Position) :
    Option (Hung × Option Adopted) :=
  match mapGet i staged with
  | some h => some (s.placeEntry seen h)
  | none => match p.hung.shown with
    | none => none
    | some tag => if (staged.filterMap placedTag).contains tag then some (.empty, none) else none

theorem placeAt_of_staged {s : State} {staged : List (Nat × Hung)} {seen : List TileSeen} {i : Nat} {h : Hung}
    (decided : mapGet i staged = some h) (p : Position) : s.placeAt staged seen i p = some (s.placeEntry seen h) := by
  rw [State.placeAt, decided]

theorem placeAt_of_elsewhere {s : State} {staged : List (Nat × Hung)} {seen : List TileSeen} {i : Nat} {p : Position}
    {u : TileAt} (undecided : mapGet i staged = none) (shown : p.hung.tile = some u)
    (elsewhere : ∃ e ∈ staged, e.2.tag = some u.tag) : s.placeAt staged seen i p = some (.empty, none) := by
  obtain ⟨e, he, tag⟩ := elsewhere
  have listed : (staged.filterMap placedTag).contains u.tag = true := by
    rw [List.contains_iff_mem]
    exact List.mem_filterMap.mpr ⟨e, he, tag⟩
  rw [State.placeAt, undecided, Hung.shown, shown]
  exact if_pos listed

theorem placeAt_of_untouched {s : State} {staged : List (Nat × Hung)} {seen : List TileSeen} {i : Nat} {p : Position}
    (undecided : mapGet i staged = none) (kept : ∀ u, p.hung.tile = some u → ∀ e ∈ staged, e.2.tag ≠ some u.tag) :
    s.placeAt staged seen i p = none := by
  rw [State.placeAt, undecided, Hung.shown]
  cases shown : p.hung.tile with
  | none => rfl
  | some u =>
    refine if_neg (fun listed => ?_)
    obtain ⟨e, he, tag⟩ := List.mem_filterMap.mp (List.contains_iff_mem.mp listed)
    exact kept u shown e he tag

theorem placeChanges_eq (s : State) (staged : List (Nat × Hung)) (seen : List TileSeen) : s.placeChanges staged seen =
    s.indexed.filterMap (fun e => (s.placeAt staged seen e.1 e.2).map (fun c => (e.1, c))) := by
  refine congrArg (fun f => s.indexed.filterMap f) (funext fun e => ?_)
  unfold State.placeAt
  cases mapGet e.1 staged with
  | some h => rfl
  | none =>
    cases e.2.hung.shown with
    | none => rfl
    | some tag => dsimp only; split <;> rfl

theorem placeChanges_nodup (s : State) (staged : List (Nat × Hung)) (seen : List TileSeen) :
    ((s.placeChanges staged seen).map Prod.fst).Nodup := by
  rw [placeChanges_eq, map_filterMap_eq _ Prod.fst Prod.fst (fun e c made => by
    obtain ⟨v, -, rfl⟩ := Option.map_eq_some_iff.mp made
    rfl)]
  exact (rising_indexed_filter s _).imp (fun h => Nat.ne_of_lt h)

theorem mem_placeChanges {s : State} {staged : List (Nat × Hung)} {seen : List TileSeen} {i : Nat}
    {c : Hung × Option Adopted} : (i, c) ∈ s.placeChanges staged seen ↔
      ∃ p, s.positions[i]? = some p ∧ s.placeAt staged seen i p = some c := by
  rw [placeChanges_eq, List.mem_filterMap]
  constructor
  · rintro ⟨e, he, made⟩
    obtain ⟨v, placed, same⟩ := Option.map_eq_some_iff.mp made
    obtain ⟨rfl, rfl⟩ := Prod.mk.inj same
    exact ⟨e.2, getElem?_of_mem_indexed he, placed⟩
  · rintro ⟨p, at_i, placed⟩
    refine ⟨(i, p), List.mem_of_getElem? (i := i) ?_, by rw [placed]; rfl⟩
    rw [State.indexed_getElem?, at_i]
    rfl

theorem mapGet_placeChanges (s : State) (staged : List (Nat × Hung)) (seen : List TileSeen) {i : Nat} {p : Position}
    (at_i : s.positions[i]? = some p) : mapGet i (s.placeChanges staged seen) = s.placeAt staged seen i p := by
  cases placed : s.placeAt staged seen i p with
  | some c => exact mapGet_of_mem (placeChanges_nodup s staged seen) (mem_placeChanges.mpr ⟨p, at_i, placed⟩)
  | none =>
    refine mapGet_eq_none (fun e he same => ?_)
    obtain ⟨q, at_e, touched⟩ := mem_placeChanges.mp (show (e.1, e.2) ∈ _ from he)
    rw [same, at_i] at at_e
    rw [← Option.some.inj at_e, same, placed] at touched
    cases touched

/-! ### The map laid -/

/-- A position with the entry and the copy of a PLACE. -/
def Position.laid (p : Position) : Option (Hung × Option Adopted) → Position
  | none => p
  | some c => { p with hung := c.1, adopted := c.2 }

theorem getElem?_layChanges (changes : List (Nat × (Hung × Option Adopted))) (live : List Position) (i : Nat) :
    (layChanges changes live)[i]? = (live[i]?).map (fun p => p.laid (mapGet i changes)) := by
  rw [layChanges, List.getElem?_map]
  by_cases inside : i < live.length
  · have paired : ((List.range live.length).zip live)[i]? = some (i, live[i]) := by
      rw [List.getElem?_eq_some_iff]
      exact ⟨by simpa using inside, by simp⟩
    rw [paired, List.getElem?_eq_getElem inside, Option.map_some, Option.map_some]
    cases mapGet i changes <;> rfl
  · have past : ((List.range live.length).zip live)[i]? = none := by
      rw [List.getElem?_eq_none_iff]
      simpa using inside
    rw [past, List.getElem?_eq_none_iff.mpr (Nat.not_lt.mp inside)]
    rfl

/-! ### The Tile Status table -/

theorem mem_insertStatus {e x : TileStatus} {l : List TileStatus} (member : x ∈ insertStatus e l) :
    x ∈ l ∨ (x = e ∧ (rising (l.map TileStatus.tag) → e.tag ∉ l.map TileStatus.tag)) := by
  induction l with
  | nil => exact .inr ⟨List.mem_singleton.mp member, fun _ => List.not_mem_nil⟩
  | cons y l ih =>
    unfold insertStatus at member
    split at member
    · next before =>
      rcases List.mem_cons.mp member with rfl | old
      · refine .inr ⟨rfl, fun rises listed => ?_⟩
        rcases List.mem_cons.mp listed with same | later
        · omega
        · have := (List.pairwise_cons.mp rises).1 _ later
          omega
      · exact .inl old
    · split at member
      · exact .inl member
      · next other =>
        rcases List.mem_cons.mp member with rfl | rest
        · exact .inl List.mem_cons_self
        · rcases ih rest with old | ⟨rfl, fresh⟩
          · exact .inl (List.mem_cons_of_mem y old)
          · refine .inr ⟨rfl, fun rises listed => ?_⟩
            rcases List.mem_cons.mp listed with same | later
            · exact other same
            · exact fresh (List.pairwise_cons.mp rises).2 later

/-- The entries after those of some tags have been put in: old ones, and new ones of tags that had none. -/
theorem mem_insertAllStatus (tags : List Nat) (l : List TileStatus) (rises : rising (l.map TileStatus.tag)) (x : TileStatus)
    (member : x ∈ tags.foldl (fun acc tag => insertStatus (TileStatus.new tag) acc) l) :
    x ∈ l ∨ (x = TileStatus.new x.tag ∧ x.tag ∈ tags ∧ x.tag ∉ l.map TileStatus.tag) := by
  induction tags generalizing l with
  | nil => exact .inl member
  | cons tag tags ih =>
    rcases ih (insertStatus (TileStatus.new tag) l) (rising_insertStatus _ l rises) member with old | ⟨fresh, later, absent⟩
    · rcases mem_insertStatus old with older | ⟨rfl, absent⟩
      · exact .inl older
      · exact .inr ⟨rfl, List.mem_cons_self, absent rises⟩
    · refine .inr ⟨fresh, List.mem_cons_of_mem tag later, fun listed => absent ?_⟩
      exact (mem_tags_insertStatus _ _ _).mpr (.inr listed)

theorem mem_tags_insertAllStatus (tags : List Nat) (l : List TileStatus) (t : Nat) :
    t ∈ (tags.foldl (fun acc tag => insertStatus (TileStatus.new tag) acc) l).map TileStatus.tag ↔
      t ∈ tags ∨ t ∈ l.map TileStatus.tag := by
  induction tags generalizing l with
  | nil => simp
  | cons tag tags ih =>
    rw [List.foldl_cons, ih, mem_tags_insertStatus, List.mem_cons]
    show t ∈ tags ∨ t = tag ∨ _ ↔ _
    rw [or_left_comm, or_assoc]

/-- After a PLACE the table lists the tags that occupy a position (R40). -/
theorem mem_tags_statusAfterPlace (live : List Position) (tiles : List TileStatus) (t : Nat) :
    t ∈ (statusAfterPlace live tiles).map TileStatus.tag ↔ ∃ p ∈ live, p.hung.tag = some t := by
  rw [statusAfterPlace, mem_tags_insertAllStatus, List.mem_filterMap]
  constructor
  · rintro (h | h)
    · exact h
    · obtain ⟨x, hx, rfl⟩ := List.mem_map.mp h
      exact List.mem_filterMap.mp (List.contains_iff_mem.mp (List.mem_filter.mp hx).2)
  · exact .inl

theorem statusOf_of_mem {tiles : List TileStatus} (rises : rising (tiles.map TileStatus.tag)) {x : TileStatus}
    (member : x ∈ tiles) : statusOf tiles x.tag = some x := by
  induction tiles with
  | nil => cases member
  | cons y l ih =>
    obtain ⟨first, rises⟩ := List.pairwise_cons.mp rises
    rcases List.mem_cons.mp member with rfl | later
    · simp [statusOf]
    · have := first x.tag (List.mem_map_of_mem later)
      rw [statusOf, List.find?_cons_of_neg (by simp; omega)]
      exact ih rises later

theorem statusOf_eq_none {tiles : List TileStatus} {t : Nat} (absent : t ∉ tiles.map TileStatus.tag) :
    statusOf tiles t = none := by
  rw [statusOf, List.find?_eq_none]
  intro x hx same
  exact absent (List.mem_map.mpr ⟨x, hx, by simpa using same⟩)

/-- An entry of the table after a PLACE is the tag's old one, or a new one (R40). -/
theorem mem_statusAfterPlace {live : List Position} {tiles : List TileStatus} (rises : rising (tiles.map TileStatus.tag))
    {x : TileStatus} (member : x ∈ statusAfterPlace live tiles) :
    statusOf tiles x.tag = some x ∨ (statusOf tiles x.tag = none ∧ x = TileStatus.new x.tag) := by
  rcases mem_insertAllStatus _ _ (rises.sublist (List.filter_sublist.map _)) x member with old | ⟨fresh, placed, absent⟩
  · exact .inl (statusOf_of_mem rises (mem_of_mem_filter old))
  · refine .inr ⟨statusOf_eq_none (fun listed => absent ?_), fresh⟩
    obtain ⟨y, hy, same⟩ := List.mem_map.mp listed
    exact List.mem_map.mpr ⟨y, List.mem_filter.mpr ⟨hy, by rw [same]; exact List.contains_iff_mem.mpr placed⟩, same⟩

/-! ### PENDING re-evaluated at some positions -/

/-- A position with its PENDING flag re-evaluated if it is among some. -/
def Position.refreshedIn (is : List Nat) (s : State) (i : Nat) (p : Position) : Position :=
  if i ∈ is then { p with pending := (s.pendingReason p).isSome } else p

theorem Position.refreshedIn_nil (s : State) (i : Nat) (p : Position) : p.refreshedIn [] s i = p :=
  if_neg List.not_mem_nil

theorem foldl_refreshPending (is : List Nat) (s : State) :
    (is.foldl State.refreshPending s).positions.length = s.positions.length ∧
    (is.foldl State.refreshPending s).tiles = s.tiles ∧ (is.foldl State.refreshPending s).dirty = s.dirty ∧
    ∀ i, (is.foldl State.refreshPending s).positions[i]? = (s.positions[i]?).map (Position.refreshedIn is s i) := by
  induction is generalizing s with
  | nil => exact ⟨rfl, rfl, rfl, fun i => by simp [funext (Position.refreshedIn_nil s i)]⟩
  | cons j is ih =>
    obtain ⟨length, tiles, dirty, positions⟩ := ih (s.refreshPending j)
    have at_j (i : Nat) : (s.refreshPending j).positions[i]? =
        if j = i then (s.positions[i]?).map (fun p => { p with pending := (s.pendingReason p).isSome })
        else s.positions[i]? := getElem?_updateAt _ _ _ _
    refine ⟨length.trans (length_updateAt _ _ _), tiles, dirty, fun i => ?_⟩
    rw [List.foldl_cons, positions i, at_j i]
    cases s.positions[i]? with
    | none => split <;> rfl
    | some p =>
      by_cases same : j = i
      · subst same
        simp only [if_true, Option.map_some, Position.refreshedIn, List.mem_cons, true_or]
        split <;> rfl
      · simp only [if_neg same, Option.map_some, Position.refreshedIn, List.mem_cons, Ne.symm same, false_or]
        rfl

end Sys2Proof.Machine
end

section
/-! PROOFS. The PLACE entry (R76 to R78): O54. -/
namespace Sys2Proof.Machine

/-! ### The phases of a PLACE -/

/-- The state of a PLACE with its map laid and the Tile Status table rebuilt. -/
def State.laidMap (s : State) (staged : List (Nat × Hung)) (seen : List TileSeen) : State :=
  let live := layChanges (s.placeChanges staged seen) s.positions
  { s with positions := live, tiles := statusAfterPlace live s.tiles }

/-- The positions whose target a PLACE computes (R77). -/
def State.placeComputes (s : State) (staged : List (Nat × Hung)) (seen : List TileSeen) : List Nat :=
  ((s.placeChanges staged seen).filter (fun c => match s.positions[c.1]? with
    | none => false
    | some p => hungChanged p.hung c.2.1)).map Prod.fst

/-- The state of a PLACE before the end of its hang. -/
def State.placedMap (s : State) (ramp : Nat) (staged : List (Nat × Hung)) (seen : List TileSeen) : State :=
  ((s.placeChanges staged seen).map Prod.fst).foldl State.refreshPending
    ((s.placeComputes staged seen).foldl (fun acc i => State.compute acc ramp i) (s.laidMap staged seen))

theorem applyPlace_eq (s : State) (l : Link) (ramp : Nat) (staged : List (Nat × Hung)) (seen : List TileSeen) :
    s.applyPlace l ramp staged seen = (s.placedMap ramp staged seen).endHang l (staged.filter s.movedByPlace).length
      ((s.placedMap ramp staged seen).unrecordedCount staged) := rfl

section
variable (s : State) (ramp : Nat) (staged : List (Nat × Hung)) (seen : List TileSeen)

theorem mem_placeChanges_fst {i : Nat} {p : Position} (at_i : s.positions[i]? = some p) :
    i ∈ (s.placeChanges staged seen).map Prod.fst ↔ (s.placeAt staged seen i p).isSome = true := by
  rw [List.mem_map, Option.isSome_iff_exists]
  constructor
  · rintro ⟨⟨j, c⟩, listed, rfl⟩
    obtain ⟨q, at_j, placed⟩ := mem_placeChanges.mp listed
    obtain rfl := Option.some.inj (at_i.symm.trans at_j)
    exact ⟨c, placed⟩
  · rintro ⟨c, placed⟩
    exact ⟨(i, c), mem_placeChanges.mpr ⟨p, at_i, placed⟩, rfl⟩

theorem mem_placeComputes {i : Nat} {p : Position} (at_i : s.positions[i]? = some p) :
    i ∈ s.placeComputes staged seen ↔
      ∃ c, s.placeAt staged seen i p = some c ∧ hungChanged p.hung c.1 = true := by
  rw [State.placeComputes, List.mem_map]
  constructor
  · rintro ⟨⟨j, c⟩, found, rfl⟩
    obtain ⟨listed, changed⟩ := List.mem_filter.mp found
    obtain ⟨q, at_j, placed⟩ := mem_placeChanges.mp listed
    obtain rfl := Option.some.inj (at_i.symm.trans at_j)
    simp only [at_i] at changed
    exact ⟨c, placed, changed⟩
  · rintro ⟨c, placed, changed⟩
    refine ⟨(i, c), List.mem_filter.mpr ⟨mem_placeChanges.mpr ⟨p, at_i, placed⟩, ?_⟩, rfl⟩
    simp only [at_i]
    exact changed

theorem placeComputes_inside {i : Nat} (computed : i ∈ s.placeComputes staged seen) : i < s.positions.length := by
  obtain ⟨c, found, rfl⟩ := List.mem_map.mp computed
  obtain ⟨p, at_i, -⟩ := mem_placeChanges.mp (show (c.1, c.2) ∈ _ from (List.mem_filter.mp found).1)
  exact (List.getElem?_eq_some_iff.mp at_i).1

theorem laidMap_length : (s.laidMap staged seen).positions.length = s.positions.length :=
  length_eq_of_map_eq (map_ramp_layChanges _ _)

theorem laidMap_getElem? {i : Nat} {p : Position} (at_i : s.positions[i]? = some p) :
    (s.laidMap staged seen).positions[i]? = some (p.laid (s.placeAt staged seen i p)) := by
  refine (getElem?_layChanges _ _ _).trans ?_
  rw [at_i, Option.map_some, mapGet_placeChanges s staged seen at_i]

/-- A position after a PLACE (R76, R77): the entry and the copy it has for it, its target computed where the entry
changed, its PENDING flag re-evaluated. -/
def Position.placedAs (p : Position) (tiles : List TileStatus) : Option (Hung × Option Adopted) → Position
  | none => p
  | some c =>
    let q : Position := { p with hung := c.1, adopted := c.2, pending := (s.pendingReason { p with hung := c.1, adopted := c.2 }).isSome }
    if hungChanged p.hung c.1 then q.retarget tiles ramp else q

theorem computed_laidMap : (s.laidMap staged seen).Computed
    ((s.placeComputes staged seen).foldl (fun acc i => State.compute acc ramp i) (s.laidMap staged seen)) ramp
    (s.placeComputes staged seen) :=
  computed_foldl ramp _ _ (fun i computed => by
    rw [laidMap_length]
    exact placeComputes_inside s staged seen computed)

theorem placedMap_getElem? {i : Nat} {p : Position} (at_i : s.positions[i]? = some p) :
    (s.placedMap ramp staged seen).positions[i]? =
      some (p.placedAs s ramp (s.laidMap staged seen).tiles (s.placeAt staged seen i p)) := by
  have computed := computed_laidMap s ramp staged seen
  obtain ⟨-, -, -, positions⟩ := foldl_refreshPending ((s.placeChanges staged seen).map Prod.fst)
    ((s.placeComputes staged seen).foldl (fun acc i => State.compute acc ramp i) (s.laidMap staged seen))
  have reason (q : Position) : ((s.placeComputes staged seen).foldl (fun acc i => State.compute acc ramp i)
      (s.laidMap staged seen)).pendingReason q = s.pendingReason q := by
    rw [computed.touched]
    rfl
  refine (positions i).trans ?_
  rw [computed.positions i, laidMap_getElem? s staged seen at_i, Option.map_some, Option.map_some]
  refine congrArg some ?_
  simp only [Position.refreshedIn, Position.retargetIn, mem_placeChanges_fst s staged seen at_i,
    mem_placeComputes s staged seen at_i, reason]
  cases placed : s.placeAt staged seen i p with
  | none => simp [Position.laid, Position.placedAs]
  | some c =>
    by_cases changed : hungChanged p.hung c.1 = true
    · simp [Position.laid, Position.placedAs, changed]
      rfl
    · simp [Position.laid, Position.placedAs, changed]

theorem placedMap_tiles : ∃ P : Nat → Bool,
    (s.placedMap ramp staged seen).tiles = postWhere P (s.laidMap staged seen).tiles := by
  obtain ⟨-, tiles, -, -⟩ := foldl_refreshPending ((s.placeChanges staged seen).map Prod.fst)
    ((s.placeComputes staged seen).foldl (fun acc i => State.compute acc ramp i) (s.laidMap staged seen))
  exact ⟨_, tiles.trans (computed_laidMap s ramp staged seen).tiles⟩

theorem mem_dirty_placedMap {i : Nat} {p : Position} (at_i : s.positions[i]? = some p) :
    i ∈ (s.placedMap ramp staged seen).dirty ↔ i ∈ s.dirty ∧
      ¬∃ c, s.placeAt staged seen i p = some c ∧ hungChanged p.hung c.1 = true := by
  obtain ⟨-, -, dirty, -⟩ := foldl_refreshPending ((s.placeChanges staged seen).map Prod.fst)
    ((s.placeComputes staged seen).foldl (fun acc i => State.compute acc ramp i) (s.laidMap staged seen))
  have kept := dirty.trans (computed_laidMap s ramp staged seen).dirty
  rw [State.placedMap, kept, List.mem_filter, ← mem_placeComputes s staged seen at_i]
  simp [State.laidMap]

end

end Sys2Proof.Machine
end

section
/-! PROOFS. The PLACE entry, position by position, and the end of its hang (R76 to R78): O54. -/
namespace Sys2Proof.Machine

/-! ### The entry changed -/

theorem hungChanged_iff (a b : Hung) : hungChanged a b = true ↔ a.state ≠ b.state ∨
    a.tile.map (fun u => (u.tag, u.orientation)) ≠ b.tile.map (fun u => (u.tag, u.orientation)) := by
  rw [hungChanged, Bool.or_eq_true, decide_eq_true_eq, decide_eq_true_eq]

theorem hungChanged_self (a : Hung) : hungChanged a a = false := by
  simp [hungChanged]

theorem hungChanged_of_state {a b : Hung} (differs : a.state ≠ b.state) : hungChanged a b = true :=
  (hungChanged_iff a b).mpr (.inl differs)

theorem hungChanged_empty {a : Hung} (hung : a ≠ .empty) : hungChanged a .empty = true :=
  hungChanged_of_state (by cases a <;> simp [Hung.state] at hung ⊢)

/-! ### What a PLACE has for a decided position -/

theorem placeEntry_of_occupant {s : State} {seen : List TileSeen} {x : Hung} {u : TileAt} (occupied : x.occupant = some u) :
    s.placeEntry seen x = s.placeTag seen u (decide (x.cause = some .noSpace)) := by
  cases x with
  | empty => cases occupied
  | placed t => obtain rfl := Option.some.inj occupied; rfl
  | unrecorded t c =>
    obtain rfl := Option.some.inj occupied
    simp only [State.placeEntry, Hung.cause, Option.some.injEq]
  | duplicate t => cases occupied

theorem placeTag_of_placed {s : State} {seen : List TileSeen} {u : TileAt} {noSpace : Bool} {a : Nat} {r : Position}
    (found : s.positionOf u.tag = some a) (at_a : s.positions[a]? = some r) : s.placeTag seen u noSpace =
      ((match r.hung.cause with
        | none => .placed u
        | some c => .unrecorded u c), r.adopted) := by
  rw [State.placeTag, found]
  dsimp only
  rw [at_a]
  dsimp only
  cases r.hung <;> rfl

theorem placeTag_of_new {s : State} {seen : List TileSeen} {u : TileAt} {noSpace : Bool}
    (absent : s.positionOf u.tag = none) : s.placeTag seen u noSpace = s.placeNew seen u noSpace := by
  rw [State.placeTag, absent]

theorem placeNew_of_usable {s : State} {seen : List TileSeen} {u : TileAt} {noSpace : Bool} {e : IndexEntry}
    (found : s.findEntry u.tag = some e) (usable : e.status ≠ .damaged) :
    s.placeNew seen u noSpace = (.placed u, some (s.adoptRecord e)) := by
  rw [State.placeNew, found]
  dsimp only
  cases status : e.status with
  | ok => rfl
  | provisional => rfl
  | damaged => exact absurd status usable

theorem placeNew_of_damaged {s : State} {seen : List TileSeen} {u : TileAt} {noSpace : Bool} {e : IndexEntry}
    (found : s.findEntry u.tag = some e) (damaged : e.status = .damaged) :
    s.placeNew seen u noSpace = (.unrecorded u .damaged, some (s.adoptDefault u.tag (seenBatch seen u.tag))) := by
  rw [State.placeNew, found]
  simp only [damaged]

theorem placeNew_of_absent {s : State} {seen : List TileSeen} {u : TileAt} {noSpace : Bool}
    (absent : s.findEntry u.tag = none) : s.placeNew seen u noSpace =
      (.unrecorded u (if noSpace then .noSpace else .noRecord), some (s.adoptDefault u.tag (seenBatch seen u.tag))) := by
  rw [State.placeNew, absent]

/-! ### The position after it -/

section
variable (s : State) (ramp : Nat) (tiles : List TileStatus) (p : Position)

theorem placedAs_some (c : Hung × Option Adopted) :
    (p.placedAs s ramp tiles (some c)).hung = c.1 ∧ (p.placedAs s ramp tiles (some c)).adopted = c.2 ∧
    (p.placedAs s ramp tiles (some c)).pending =
      (s.pendingReason (p.placedAs s ramp tiles (some c))).isSome := by
  unfold Position.placedAs
  dsimp only
  split <;> exact ⟨rfl, rfl, rfl⟩

theorem placedAs_keeps (c : Option (Hung × Option Adopted)) :
    (p.placedAs s ramp tiles c).override = p.override ∧ (p.placedAs s ramp tiles c).applied = p.applied := by
  unfold Position.placedAs
  cases c with
  | none => exact ⟨rfl, rfl⟩
  | some c => dsimp only; split <;> exact ⟨rfl, rfl⟩

theorem changed_placedAs (c : Option (Hung × Option Adopted)) :
    hungChanged p.hung (p.placedAs s ramp tiles c).hung = true ↔ ∃ d, c = some d ∧ hungChanged p.hung d.1 = true := by
  cases c with
  | none => simp [Position.placedAs, hungChanged_self]
  | some d => simp [(placedAs_some s ramp tiles p d).1]

theorem placedAs_of_changed {c : Option (Hung × Option Adopted)}
    (changed : hungChanged p.hung (p.placedAs s ramp tiles c).hung = true) :
    (p.placedAs s ramp tiles c).target = (targetOf tiles (p.placedAs s ramp tiles c)).1 ∧
    (p.placedAs s ramp tiles c).clamped = (targetOf tiles (p.placedAs s ramp tiles c)).2 ∧
    (p.placedAs s ramp tiles c).remaining = max ramp 1 := by
  obtain ⟨d, rfl, differs⟩ := (changed_placedAs s ramp tiles p c).mp changed
  have retargeted : p.placedAs s ramp tiles (some d) = Position.retarget tiles ramp { p with
      hung := d.1, adopted := d.2
      pending := (s.pendingReason { p with hung := d.1, adopted := d.2 }).isSome } := if_pos differs
  rw [retargeted]
  exact ⟨congrArg Prod.fst (targetOf_of_occupant rfl rfl rfl), congrArg Prod.snd (targetOf_of_occupant rfl rfl rfl), rfl⟩

theorem placedAs_of_unchanged {c : Option (Hung × Option Adopted)}
    (same : ¬hungChanged p.hung (p.placedAs s ramp tiles c).hung = true) :
    (p.placedAs s ramp tiles c).target = p.target ∧ (p.placedAs s ramp tiles c).clamped = p.clamped ∧
    (p.placedAs s ramp tiles c).remaining = p.remaining := by
  cases c with
  | none => exact ⟨rfl, rfl, rfl⟩
  | some d =>
    have unchanged : ¬hungChanged p.hung d.1 = true := fun h => same ((changed_placedAs s ramp tiles p _).mpr ⟨d, rfl, h⟩)
    have left : p.placedAs s ramp tiles (some d) = { p with
        hung := d.1, adopted := d.2
        pending := (s.pendingReason { p with hung := d.1, adopted := d.2 }).isSome } := if_neg unchanged
    rw [left]
    exact ⟨rfl, rfl, rfl⟩

/-- A position left without an occupant. -/
theorem placedAs_unoccupied {h : Hung} (empty : h.occupant = none) :
    (p.placedAs s ramp tiles (some (h, none))).pending = false ∧
    (hungChanged p.hung h = true → (p.placedAs s ramp tiles (some (h, none))).target = .emptyTarget ∧
      (p.placedAs s ramp tiles (some (h, none))).remaining = max ramp 1) := by
  obtain ⟨hung, -, pending⟩ := placedAs_some s ramp tiles p (h, none)
  have vacant : (p.placedAs s ramp tiles (some (h, none))).hung.occupant = none := by rw [hung]; exact empty
  refine ⟨by rw [pending, pendingReason_of_unoccupied vacant]; rfl, fun changed => ?_⟩
  obtain ⟨target, -, remaining⟩ := placedAs_of_changed s ramp tiles p (c := some (h, none)) (by rw [hung]; exact changed)
  exact ⟨by rw [target, targetOf_unoccupied (.inl vacant)], remaining⟩

end

/-! ### The end of the hang -/

theorem movedByPlace_eq (s : State) (e : Nat × Hung) :
    s.movedByPlace e = (e.2.tag.bind s.positionOf).any (fun i => decide (i ≠ e.1)) := by
  rw [State.movedByPlace, placedTag]
  cases e.2.tag with
  | none => rfl
  | some tag =>
    dsimp only [Option.bind_some]
    cases s.positionOf tag <;> rfl

theorem placedCount_eq (s : State) (h : HangWork) : s.placedCount h =
    ((List.range s.positions.length).filter (fun i => ((s.positions[i]?).bind (fun q => q.hung.tag)).isSome &&
      decide (∃ b ∈ h.branches, i ∈ s.routePositions b.route))).length := by
  rw [State.placedCount, ← List.length_map (f := Prod.fst)]
  refine congrArg List.length (map_fst_filter_indexed s _ _ (fun i p at_i => ?_))
  rw [at_i, Option.bind_some, Bool.and_comm]
  refine congrArg (p.hung.tag.isSome && ·) ?_
  rw [Bool.eq_iff_iff, List.contains_iff_mem, List.mem_flatMap, decide_eq_true_eq]
  rfl

theorem unrecordedCount_eq (s : State) (staged : List (Nat × Hung)) : s.unrecordedCount staged =
    ((List.range s.positions.length).filter (fun i => (mapGet i staged).isSome &&
      decide ((s.positions[i]?).map (fun q => q.hung.state) = some .unrecorded))).length := by
  rw [State.unrecordedCount, ← List.length_map (f := Prod.fst)]
  refine congrArg List.length (map_fst_filter_indexed s _ _ (fun i p at_i => ?_))
  rw [at_i]
  simp

theorem hangOf_of_job {s : State} {l : Link} {j : Job} {h : HangWork} (job : (s.port l).job = some j)
    (work : j.work = .hang h) : s.hangOf l = some h := by
  rw [State.hangOf, job]
  simp only [work]

/-- The hang with its last counts (R76). -/
def HangWork.counted (h : HangWork) (placed moved unrecorded : Nat) : HangWork :=
  { h with counts := { h.counts with placed := placed, moved := moved, unrecorded := unrecorded } }

theorem endHang_eq {s : State} {l : Link} {h : HangWork} (hang : s.hangOf l = some h) (moved unrecorded : Nat) :
    s.endHang l moved unrecorded = s.finishJob l
      (if ∃ b ∈ h.branches, b.outcome.isFailed = true then .donePartial else .done) .none
      (JobWork.hang (h.counted (s.placedCount h) moved unrecorded)).fields := by
  rw [State.endHang, hang]
  refine congrArg (fun st => s.finishJob l st .none _) (ite_congr_iff ?_ rfl rfl)
  exact List.any_eq_true

section
variable {s : State} {l : Link} {j : Job} (job : (s.port l).job = some j) (st : JobState) (res : ResultCode)
  (fields : JobFields)
include job

theorem finishJob_job : ((s.finishJob l st res fields).port l).job = none := by
  cases detached : j.detached with
  | true => rw [finishJob_detached job detached, State.port_setPort]
  | false => rw [finishJob_attached job detached, State.port_setPort]

theorem finishJob_record_of_detached (detached : j.detached = true) :
    ((s.finishJob l st res fields).port l).record = (s.port l).record := by
  rw [finishJob_detached job detached, State.port_setPort]

theorem finishJob_record_of_attached (attached : j.detached = false) :
    ((s.finishJob l st res fields).port l).hasFlag .jobDone = true ∧
    ((s.finishJob l st res fields).port l).record = ⟨st, res, j.committed, fields⟩ := by
  rw [finishJob_attached job attached, State.port_setPort]
  exact ⟨(hasFlag_raise (s.port l) .jobDone .jobDone).trans (by simp), rfl⟩

end

/-! ### The entry -/

section
variable {s : State} {l : Link} {j : Job} {h : HangWork} (job : (s.port l).job = some j) (work : j.work = .hang h)
  (ramp : Nat) (staged : List (Nat × Hung)) (seen : List TileSeen)

/-- Up to the end of its hang a PLACE touches the plane alone. -/
theorem placedMap_planeFrom (s : State) (ramp : Nat) (staged : List (Nat × Hung)) (seen : List TileSeen) :
    s.placedMap ramp staged seen = s.planeFrom (s.placedMap ramp staged seen) := by
  have laid : s.laidMap staged seen = s.planeFrom (s.laidMap staged seen) := rfl
  have computed := planeFrom_trans laid (computed_laidMap s ramp staged seen).touched
  exact planeFrom_trans computed (foldl_planeFrom State.refreshPending (fun _ _ => rfl) _ _)

theorem placedMap_port (s : State) (ramp : Nat) (staged : List (Nat × Hung)) (seen : List TileSeen) (l : Link) :
    (s.placedMap ramp staged seen).port l = s.port l := by
  rw [placedMap_planeFrom]
  cases l <;> rfl

/-- The plane after a PLACE is the one before the end of its hang. -/
theorem applyPlace_plane (s : State) (l : Link) (ramp : Nat) (staged : List (Nat × Hung)) (seen : List TileSeen) :
    (s.applyPlace l ramp staged seen).positions = (s.placedMap ramp staged seen).positions ∧
    (s.applyPlace l ramp staged seen).tiles = (s.placedMap ramp staged seen).tiles ∧
    (s.applyPlace l ramp staged seen).dirty = (s.placedMap ramp staged seen).dirty := by
  rw [applyPlace_eq, endHang_ended]
  exact ⟨rfl, rfl, rfl⟩

include job work in
theorem applyPlace_finishes : s.applyPlace l ramp staged seen =
    (s.placedMap ramp staged seen).finishJob l
      (if ∃ b ∈ h.branches, b.outcome.isFailed = true then .donePartial else .done) .none
      (JobWork.hang (h.counted ((s.placedMap ramp staged seen).placedCount h) (staged.filter s.movedByPlace).length
        ((s.placedMap ramp staged seen).unrecordedCount staged))).fields := by
  have hang : (s.placedMap ramp staged seen).hangOf l = some h :=
    hangOf_of_job (by rw [placedMap_port]; exact job) work
  rw [applyPlace_eq, endHang_eq hang]

end

/-- The entries of the map do not change once it is laid. -/
theorem placedMap_hung (s : State) (ramp : Nat) (staged : List (Nat × Hung)) (seen : List TileSeen) :
    (s.placedMap ramp staged seen).positions.map Position.hung = (s.laidMap staged seen).positions.map Position.hung := by
  refine List.ext_getElem? (fun i => ?_)
  rw [List.getElem?_map, List.getElem?_map]
  cases at_i : s.positions[i]? with
  | none =>
    have count : (s.placedMap ramp staged seen).positions.length = s.positions.length :=
      (foldl_refreshPending _ _).1.trans ((computed_laidMap s ramp staged seen).length.trans (laidMap_length s staged seen))
    have past := List.getElem?_eq_none_iff.mp at_i
    rw [List.getElem?_eq_none_iff.mpr (count ▸ past), List.getElem?_eq_none_iff.mpr (laidMap_length s staged seen ▸ past)]
  | some p =>
    rw [placedMap_getElem? s ramp staged seen at_i, laidMap_getElem? s staged seen at_i]
    refine congrArg some ?_
    cases s.placeAt staged seen i p with
    | none => rfl
    | some c => exact (placedAs_some s ramp _ p c).1

/-- After a PLACE the table lists the tags that occupy a position (R40). -/
theorem mem_tags_applyPlace (s : State) (l : Link) (ramp : Nat) (staged : List (Nat × Hung)) (seen : List TileSeen)
    (tag : Nat) : (∃ x ∈ (s.applyPlace l ramp staged seen).tiles, x.tag = tag) ↔
      ∃ p ∈ (s.applyPlace l ramp staged seen).positions, p.hung.tag = some tag := by
  obtain ⟨positions, tiles, -⟩ := applyPlace_plane s l ramp staged seen
  obtain ⟨P, posted⟩ := placedMap_tiles s ramp staged seen
  have hung := placedMap_hung s ramp staged seen
  have listed : (s.applyPlace l ramp staged seen).tiles.map TileStatus.tag =
      (s.laidMap staged seen).tiles.map TileStatus.tag := by
    rw [tiles, posted, postWhere, List.map_map]
    refine List.map_congr_left (fun x _ => ?_)
    rw [Function.comp_apply]
    split <;> rfl
  have occupied (live : List Position) : (∃ p ∈ live, p.hung.tag = some tag) ↔ ∃ a ∈ live.map Position.hung, a.tag = some tag := by
    constructor
    · rintro ⟨p, mem, tagged⟩
      exact ⟨p.hung, List.mem_map_of_mem mem, tagged⟩
    · rintro ⟨a, mem, tagged⟩
      obtain ⟨p, listed, rfl⟩ := List.mem_map.mp mem
      exact ⟨p, listed, tagged⟩
  rw [← List.mem_map, listed, occupied, positions, hung, ← occupied]
  exact mem_tags_statusAfterPlace _ _ tag

/-- Its entries keep the samples of their tags (R40). -/
theorem mem_tiles_applyPlace (s : State) (l : Link) (ramp : Nat) (staged : List (Nat × Hung)) (seen : List TileSeen)
    (rises : rising (s.tiles.map TileStatus.tag)) {x : TileStatus} (member : x ∈ (s.applyPlace l ramp staged seen).tiles) :
    (∀ y, statusOf s.tiles x.tag = some y → x.e = y.e ∧ x.h = y.h ∧ x.miss = y.miss ∧ x.fresh = y.fresh) ∧
      (statusOf s.tiles x.tag = none → x.e = none ∧ x.h = none ∧ x.miss = 0 ∧ x.fresh = 0) := by
  obtain ⟨-, tiles, -⟩ := applyPlace_plane s l ramp staged seen
  obtain ⟨P, posted⟩ := placedMap_tiles s ramp staged seen
  rw [tiles, posted] at member
  obtain ⟨y, hy, made⟩ := List.mem_map.mp member
  have same : x.tag = y.tag ∧ x.e = y.e ∧ x.h = y.h ∧ x.miss = y.miss ∧ x.fresh = y.fresh := by
    rw [← made]
    split <;> exact ⟨rfl, rfl, rfl, rfl, rfl⟩
  obtain ⟨tag, e, h, miss, fresh⟩ := same
  rw [tag]
  rcases mem_statusAfterPlace rises hy with old | ⟨absent, new⟩
  · refine ⟨fun z found => ?_, fun absent => ?_⟩
    · obtain rfl := Option.some.inj (old.symm.trans found)
      exact ⟨e, h, miss, fresh⟩
    · rw [old] at absent
      cases absent
  · refine ⟨fun z found => ?_, fun _ => ?_⟩
    · rw [absent] at found
      cases found
    · rw [e, h, miss, fresh, new]
      exact ⟨rfl, rfl, rfl, rfl⟩

/-- Settles O54: the plane of the tick, and of a PLACE entry what it makes of each position, of the Tile Status table and
of its hang's job. -/
theorem placeAppliesTheStagedMap : Obligations.PlaceAppliesTheStagedMap := by
  intro s k l ramp staged seen j h on entry m n job work changed
  have applied : n = m.applyPlace l ramp staged seen := afterEntries_succ entry
  obtain ⟨positions, tiles, dirty⟩ := applyPlace_plane m l ramp staged seen
  obtain ⟨P, posted⟩ := placedMap_tiles m ramp staged seen
  have finishes := applyPlace_finishes job work ramp staged seen
  have portJob : ((m.placedMap ramp staged seen).port l).job = some j := by rw [placedMap_port]; exact job
  rw [applied]
  refine ⟨exec_frameTick_tickPlane on, applyPlace_placedFrom _ _ _ _ _, (tickMove_applyPlace _ _ _ _ _).length,
    fun i p at_i => ?_, fun tag => ?_, fun rises x member => ?_, ?_, fun detached => ?_, fun attached => ?_⟩
  · let q := p.placedAs m ramp (m.laidMap staged seen).tiles (m.placeAt staged seen i p)
    have target (r : Position) : targetOf (m.applyPlace l ramp staged seen).tiles r =
        targetOf (m.laidMap staged seen).tiles r := by
      rw [tiles, posted, targetOf_postWhere]
    have iff_changed : changed p.hung q.hung ↔ hungChanged p.hung q.hung = true := (hungChanged_iff _ _).symm
    obtain ⟨override, applied⟩ := placedAs_keeps m ramp (m.laidMap staged seen).tiles p (m.placeAt staged seen i p)
    refine ⟨q, by rw [positions]; exact placedMap_getElem? m ramp staged seen at_i, override, applied, fun differs => ?_,
      fun same => ?_, ?_, fun undecided kept => ?_, fun undecided elsewhere => ?_, fun decided => ?_,
      fun u decided => ?_, fun x u decided occupied => ?_⟩
    · rw [target]
      exact placedAs_of_changed _ _ _ _ (iff_changed.mp differs)
    · exact placedAs_of_unchanged _ _ _ _ (fun h => same (iff_changed.mpr h))
    · rw [dirty, mem_dirty_placedMap m ramp staged seen at_i, iff_changed, changed_placedAs]
    · have untouched : m.placeAt staged seen i p = none := placeAt_of_untouched undecided kept
      show p.placedAs m ramp _ (m.placeAt staged seen i p) = p
      rw [untouched]
      rfl
    · obtain ⟨u, shown, placedElsewhere⟩ := elsewhere
      have emptied : m.placeAt staged seen i p = some (.empty, none) := placeAt_of_elsewhere undecided shown placedElsewhere
      have hung : p.hung ≠ .empty := fun empty => by simp [empty, Hung.tile] at shown
      obtain ⟨hung', adopted, -⟩ := placedAs_some m ramp (m.laidMap staged seen).tiles p (.empty, none)
      obtain ⟨pending, target'⟩ := placedAs_unoccupied m ramp (m.laidMap staged seen).tiles p (h := .empty) rfl
      simp only [q, emptied]
      exact ⟨hung', adopted, (target' (hungChanged_empty hung)).1, pending⟩
    · have emptied : m.placeAt staged seen i p = some (.empty, none) := placeAt_of_staged decided p
      obtain ⟨hung', adopted, -⟩ := placedAs_some m ramp (m.laidMap staged seen).tiles p (.empty, none)
      obtain ⟨pending, target'⟩ := placedAs_unoccupied m ramp (m.laidMap staged seen).tiles p (h := .empty) rfl
      simp only [q, emptied]
      exact ⟨hung', adopted, pending, fun hung => target' (hungChanged_empty hung)⟩
    · have marked : m.placeAt staged seen i p = some (.duplicate u, none) := placeAt_of_staged decided p
      obtain ⟨hung', adopted, -⟩ := placedAs_some m ramp (m.laidMap staged seen).tiles p (.duplicate u, none)
      obtain ⟨pending, target'⟩ := placedAs_unoccupied m ramp (m.laidMap staged seen).tiles p (h := .duplicate u) rfl
      simp only [q, marked]
      exact ⟨hung', adopted, pending, fun other => target' (hungChanged_of_state other)⟩
    · have placed : m.placeAt staged seen i p = some (m.placeTag seen u (decide (x.cause = some .noSpace))) :=
        (placeAt_of_staged decided p).trans (congrArg some (placeEntry_of_occupant occupied))
      obtain ⟨hung', adopted, pending⟩ := placedAs_some m ramp (m.laidMap staged seen).tiles p
        (m.placeTag seen u (decide (x.cause = some .noSpace)))
      simp only [q, placed]
      refine ⟨pending, fun a r found at_a => ?_, fun absent => ⟨fun e listed usable => ?_, fun e listed damaged => ?_,
        fun unlisted => ?_⟩⟩
      · rw [adopted, hung', placeTag_of_placed found at_a]
        exact ⟨rfl, rfl⟩
      · rw [adopted, hung', placeTag_of_new absent, placeNew_of_usable listed usable]
        exact ⟨rfl, rfl⟩
      · rw [adopted, hung', placeTag_of_new absent, placeNew_of_damaged listed damaged]
        exact ⟨rfl, rfl⟩
      · rw [adopted, hung', placeTag_of_new absent, placeNew_of_absent unlisted]
        simp only [decide_eq_true_eq, and_self]
  · exact (mem_tags_applyPlace m l ramp staged seen tag)
  · exact mem_tiles_applyPlace m l ramp staged seen rises member
  · rw [finishes]
    exact finishJob_job portJob _ _ _
  · rw [finishes, finishJob_record_of_detached portJob _ _ _ detached, placedMap_port]
  · rw [positions, finishes]
    obtain ⟨raised, record⟩ := finishJob_record_of_attached portJob
      (if ∃ b ∈ h.branches, b.outcome.isFailed = true then .donePartial else .done) .none
      (JobWork.hang (h.counted ((m.placedMap ramp staged seen).placedCount h) (staged.filter m.movedByPlace).length
        ((m.placedMap ramp staged seen).unrecordedCount staged))).fields attached
    refine ⟨raised, record.trans ?_⟩
    have settings : (m.placedMap ramp staged seen).routePositions = m.routePositions := by rw [placedMap_planeFrom]; rfl
    rw [placedCount_eq, unrecordedCount_eq, settings, funext (movedByPlace_eq m)]
    rfl

end Sys2Proof.Machine
end

section
/-! PROOFS. What the end of one job releases: a claim, the requests of the NV Port, the orders of a hang. -/
namespace Sys2Proof.Machine

/-! ### The free list -/

/-- The POOL_LOW condition evaluated, as one update (R11). -/
theorem evalLow_raiseIf (s : State) : s.evalLow =
    (let now := decide (s.pool.free.length < s.settings.watermark)
     { s with
      pool := { s.pool with low := now }
      dl := s.dl.raiseIf (now && !s.pool.low) .poolLow, sl := s.sl.raiseIf (now && !s.pool.low) .poolLow }) := by
  rw [evalLow_eq]
  dsimp only
  cases decide (s.pool.free.length < s.settings.watermark) && !s.pool.low <;> rfl

/-- A state with another free list, evaluated (R2, R11). -/
theorem setFree_raiseIf (s : State) (free : List Nat) : s.setFree free =
    (let now := decide (free.length < s.settings.watermark)
     { s with
      pool := { s.pool with free := free, low := now }
      dl := s.dl.raiseIf (now && !s.pool.low) .poolLow, sl := s.sl.raiseIf (now && !s.pool.low) .poolLow }) := by
  rw [State.setFree, evalLow_raiseIf]

theorem freeCells_cons (s : State) (c : Nat) (cs : List Nat) : s.freeCells (c :: cs) =
    (let now := decide ((insertAll (c :: cs) s.pool.free).length < s.settings.watermark)
     { s with
      pool := { s.pool with
        free := insertAll (c :: cs) s.pool.free, low := now
        chain := s.pool.chain.filter (fun e => decide (e.1 ∉ c :: cs))
        image := s.pool.image.filter (fun e => decide (e.1 ∉ c :: cs)) }
      dl := s.dl.raiseIf (now && !s.pool.low) .poolLow, sl := s.sl.raiseIf (now && !s.pool.low) .poolLow }) := by
  rw [State.freeCells, setFree_raiseIf]

/-- A table without the entries of some keys. -/
theorem mapGet_filter_notMem {α : Type} (cells : List Nat) (m : List (Nat × α)) (k : Nat) :
    mapGet k (m.filter (fun e => decide (e.1 ∉ cells))) = if k ∈ cells then none else mapGet k m := by
  induction m with
  | nil => simp [mapGet]
  | cons e m ih =>
    obtain ⟨j, v⟩ := e
    by_cases gone : j ∈ cells
    · rw [List.filter_cons_of_neg (by simpa using gone), ih]
      by_cases hk : k ∈ cells
      · rw [if_pos hk, if_pos hk]
      · have apart : j ≠ k := fun same => hk (same ▸ gone)
        simp [mapGet, hk, apart]
    · rw [List.filter_cons_of_pos (by simpa using gone)]
      by_cases same : j = k
      · subst same
        simp [mapGet, gone]
      · simp only [mapGet, if_neg same, ih]

theorem chainOf_filter_notMem (cells : List Nat) (m : List (Nat × ChainEntry)) (k : Nat) :
    chainOf (m.filter (fun e => decide (e.1 ∉ cells))) k = if k ∈ cells then .free else chainOf m k := by
  rw [chainOf, mapGet_filter_notMem]
  by_cases hk : k ∈ cells
  · rw [if_pos hk, if_pos hk]
  · rw [if_neg hk, if_neg hk, chainOf]

/-- Cells freed are a claim released (R2, R3). -/
theorem claimReleased_freeCells (s : State) (cells : List Nat) : s.ClaimReleased (s.freeCells cells) cells := by
  cases cells with
  | nil => exact ⟨fun c => by simp [State.freeCells], fun c => by simp [State.freeCells], fun c => by simp [State.freeCells],
      fun empty => absurd rfl empty, rfl, rfl, rfl⟩
  | cons c cs =>
    rw [freeCells_cons]
    refine ⟨fun k => ?_, chainOf_filter_notMem _ _, mapGet_filter_notMem _ _, fun _ => rfl, rfl, rfl, rfl⟩
    rw [mem_insertAll, or_comm]

/-! ### What freeing and withdrawing touch -/

/-- `s` with the pool's cells and the notices of DL and SL as `t` has them: what freeing cells may touch. -/
def State.freedFrom (s t : State) : State :=
  { s with
    dl := { s.dl with flags := t.dl.flags }, sl := { s.sl with flags := t.sl.flags }
    pool := { s.pool with free := t.pool.free, chain := t.pool.chain, image := t.pool.image, low := t.pool.low } }

theorem freeCells_freedFrom (s : State) (cells : List Nat) : s.freeCells cells = s.freedFrom (s.freeCells cells) := by
  cases cells with
  | nil => rfl
  | cons c cs => rw [freeCells_cons]; rfl

/-- No notice but POOL_LOW. -/
def State.OnlyPoolLow (s t : State) : Prop :=
  ∀ (l : Link) (n : Notice), n ≠ .poolLow → (t.port l).hasFlag n = (s.port l).hasFlag n

theorem onlyPoolLow_freeCells (s : State) (cells : List Nat) : s.OnlyPoolLow (s.freeCells cells) := by
  intro l n other
  cases cells with
  | nil => rfl
  | cons c cs =>
    rw [freeCells_cons]
    cases l with
    | pl => rfl
    | dl => exact (hasFlag_raiseIf _ _ _ _).trans (by simp [other]; rfl)
    | sl => exact (hasFlag_raiseIf _ _ _ _).trans (by simp [other]; rfl)

theorem requestsWithdrawn_withdrawNv (s : State) (l : Link) :
    s.RequestsWithdrawn (s.withdrawNv l) l s.nvPort.orphan := rfl

/-! ### Places given out -/

/-- `s` with the queue and the waits of `t`, and jobs that may have gone on. -/
def State.queuedFrom (s t : State) : State :=
  { s with
    pl := { s.pl with job := t.pl.job }, dl := { s.dl with job := t.dl.job }, sl := { s.sl with job := t.sl.job }
    orders := t.orders, owed := t.owed, spaceWaiters := t.spaceWaiters }

theorem queuedFrom_trans {s t u : State} (h : t = s.queuedFrom t) (k : u = t.queuedFrom u) : u = s.queuedFrom u :=
  calc u = t.queuedFrom u := k
    _ = (s.queuedFrom t).queuedFrom u := by rw [← h]
    _ = s.queuedFrom u := rfl

theorem queueRollCall_of_hang {s : State} {l : Link} {h : HangWork} {b : Nat} (hang : s.hangOf l = some h)
    (due : h.toQueue = some b) : s.queueRollCall l =
      (s.setHang l (h.setOutcome b .queued)).pushOrder { kind := .rollCall, branch := b, orig := .hang l } := by
  rw [State.queueRollCall, hang]
  simp only [due]

theorem queueRollCall_cases (s : State) (l : Link) : s.queueRollCall l = s ∨
    ∃ h b, s.hangOf l = some h ∧ h.toQueue = some b ∧ s.queueRollCall l =
      (s.setHang l (h.setOutcome b .queued)).pushOrder { kind := .rollCall, branch := b, orig := .hang l } := by
  cases hang : s.hangOf l with
  | none => exact .inl (by rw [State.queueRollCall, hang])
  | some h =>
    cases due : h.toQueue with
    | none => exact .inl (by rw [State.queueRollCall, hang]; simp only [due])
    | some b => exact .inr ⟨h, b, rfl, due, queueRollCall_of_hang hang due⟩

theorem queueRollCall_queuedFrom (s : State) (l : Link) : s.queueRollCall l = s.queuedFrom (s.queueRollCall l) := by
  obtain same | ⟨h, b, -, -, queues⟩ := queueRollCall_cases s l
  · rw [same]; rfl
  · rw [queues, State.setHang, State.setWork]
    split
    · rfl
    · cases l <;> rfl

theorem giveWaiter_queuedFrom (s : State) (l : Link) (rest : List Link) :
    s.giveWaiter l rest = s.queuedFrom (s.giveWaiter l rest) := by
  have queued := queueRollCall_queuedFrom { s with spaceWaiters := rest } l
  unfold State.giveWaiter
  dsimp only
  split
  · rw [queued]; rfl
  · rw [queued]; rfl

theorem givePlace_queuedFrom (s : State) : s.givePlace = s.queuedFrom s.givePlace := by
  unfold State.givePlace
  split
  · rfl
  · split
    · exact giveWaiter_queuedFrom s _ _
    · rfl

theorem givePlaces_queuedFrom (n : Nat) (s : State) : State.givePlaces n s = s.queuedFrom (State.givePlaces n s) := by
  induction n generalizing s with
  | zero => rfl
  | succ n ih => exact queuedFrom_trans (givePlace_queuedFrom s) (ih s.givePlace)

theorem givePlaces_idle (n : Nat) {s : State} (owed : s.owed = []) (space : s.spaceWaiters = []) :
    State.givePlaces n s = s := by
  induction n with
  | zero => rfl
  | succ n ih =>
    have still : s.givePlace = s := by rw [State.givePlace, owed]; simp only [space]
    rw [State.givePlaces, still, ih]

/-- The owed gathers come first (R49). -/
theorem givePlaces_owed (n : Nat) (s : State) : State.givePlaces n s = State.givePlaces (n - s.owed.length)
    { s with orders := s.orders ++ (s.owed.take n).map s.gatherOrder, owed := s.owed.drop n } := by
  induction n generalizing s with
  | zero => simp [State.givePlaces]
  | succ n ih =>
    cases owed : s.owed with
    | nil =>
      simp only [List.length_nil, Nat.sub_zero, List.take_nil, List.map_nil, List.append_nil, List.drop_nil]
      rw [← owed]
    | cons b rest =>
      have given : s.givePlace = { s with orders := s.orders ++ [s.gatherOrder b], owed := rest } := by
        rw [State.givePlace, owed]
        rfl
      have gathers : State.gatherOrder { s with orders := s.orders ++ [s.gatherOrder b], owed := rest } = s.gatherOrder :=
        rfl
      rw [State.givePlaces, given, ih, gathers]
      simp [Nat.add_sub_add_right]

theorem gatherOrder_eq (s : State) (b : Nat) :
    s.gatherOrder b = ⟨.gather, b, ((s.branches[b]?).bind Branch.orig).getD .sweepNow⟩ := by
  rw [State.gatherOrder, List.getD_eq_getElem?_getD]
  cases s.branches[b]? with
  | none => rfl
  | some x => cases orig : x.orig <;> simp [orig]

end Sys2Proof.Machine
end

section
/-! PROOFS. The roll calls that freed places give to waiting hangs (R49), and the withdrawal of a hang's orders (R61). -/
namespace Sys2Proof.Machine

/-! ### A hang's roll calls -/

/-- The branches whose roll call a hang still has to queue, in its order (R69). -/
def HangWork.due (h : HangWork) : List Nat :=
  (h.branches.filter (fun x => decide (x.outcome = .toQueue))).map HangBranch.branch

theorem toQueue_eq_head? (h : HangWork) : h.toQueue = h.due.head? := by
  rw [HangWork.toQueue, HangWork.due, List.head?_map, List.head?_filter]

theorem due_setOutcome (h : HangWork) (b : Nat) (o : CallOutcome) (queued : o ≠ .toQueue) :
    (h.setOutcome b o).due = h.due.filter (fun c => decide (c ≠ b)) := by
  unfold HangWork.due HangWork.setOutcome HangWork.modBranch
  dsimp only
  induction h.branches with
  | nil => rfl
  | cons x xs ih =>
    simp only [List.map_cons, List.filter_cons]
    by_cases same : x.branch = b
    · by_cases due : x.outcome = .toQueue <;> simp [same, due, queued, ih]
    · by_cases due : x.outcome = .toQueue <;> simp [same, due, ih]

theorem due_setOutcome_head {h : HangWork} {b : Nat} {bs : List Nat} (distinct : h.due.Nodup) (head : h.due = b :: bs)
    {o : CallOutcome} (queued : o ≠ .toQueue) : (h.setOutcome b o).due = bs := by
  obtain ⟨fresh, -⟩ := List.nodup_cons.mp (head ▸ distinct)
  rw [due_setOutcome h b o queued, head, List.filter_cons_of_neg (by simp), List.filter_eq_self]
  intro c hc
  exact decide_eq_true (fun same => fresh (same ▸ hc))

theorem due_nodup {h : HangWork} (distinct : (h.branches.map HangBranch.branch).Nodup) : h.due.Nodup :=
  distinct.sublist (List.filter_sublist.map _)

theorem hangOf_setHang {s : State} {l : Link} {h : HangWork} (hang : s.hangOf l = some h) (g : HangWork) :
    (s.setHang l g).hangOf l = some g := by
  unfold State.hangOf at hang
  cases job : (s.port l).job with
  | none => simp [job] at hang
  | some j => rw [State.setHang, setWork_eq job, State.hangOf, State.port_setPort]

/-- The roll call of a hang. -/
def rollCallOf (l : Link) (b : Nat) : Order := ⟨.rollCall, b, .hang l⟩

/-! ### A free place given to a waiting hang -/

/-- A hang that waits alone takes a free place (R49). -/
theorem giveWaiter_due {s : State} {m : Link} {h : HangWork} {b : Nat} {bs : List Nat} (hang : s.hangOf m = some h)
    (distinct : h.due.Nodup) (head : h.due = b :: bs) : ∃ g, (s.giveWaiter m []).hangOf m = some g ∧ g.due = bs ∧
      g.due.Nodup ∧ (s.giveWaiter m []).orders = s.orders ++ [rollCallOf m b] ∧ (s.giveWaiter m []).owed = s.owed ∧
      (s.giveWaiter m []).spaceWaiters = if bs = [] then [] else [m] := by
  have next := due_setOutcome_head distinct head (o := .queued) nofun
  have due : h.toQueue = some b := by rw [toQueue_eq_head?, head]; rfl
  have queues := queueRollCall_of_hang (s := { s with spaceWaiters := [] }) (l := m)
    (show State.hangOf { s with spaceWaiters := [] } m = some h from hang ▸ by cases m <;> rfl) due
  have called : (({ s with spaceWaiters := [] } : State).queueRollCall m).hangOf m = some (h.setOutcome b .queued) := by
    rw [queues]
    exact hangOf_setHang (s := { s with spaceWaiters := [] }) (h := h) (hang ▸ by cases m <;> rfl) _
  have orders : (({ s with spaceWaiters := [] } : State).queueRollCall m).orders = s.orders ++ [rollCallOf m b] := by
    rw [queues]
    exact congrArg (· ++ [rollCallOf m b]) (setHang_orders { s with spaceWaiters := [] } m _)
  have touched := queueRollCall_queuedFrom { s with spaceWaiters := [] } m
  have owed : (({ s with spaceWaiters := [] } : State).queueRollCall m).owed = s.owed := by
    rw [queues]
    exact (State.HangMove.keeps (hangMove_setHang { s with spaceWaiters := [] } m _)).owed
  have space : (({ s with spaceWaiters := [] } : State).queueRollCall m).spaceWaiters = [] := by
    rw [queues]
    exact (State.HangMove.keeps (hangMove_setHang { s with spaceWaiters := [] } m _)).spaceWaiters
  have more : (({ s with spaceWaiters := [] } : State).queueRollCall m).hasToQueue m = !bs.isEmpty := by
    rw [State.hasToQueue, called]
    simp only [toQueue_eq_head?, next]
    cases bs <;> rfl
  have fresh : (h.setOutcome b .queued).due.Nodup := by rw [next]; exact (List.nodup_cons.mp (head ▸ distinct)).2
  unfold State.giveWaiter
  dsimp only
  rw [more]
  cases bs with
  | nil => exact ⟨_, called, next, fresh, orders, owed, space⟩
  | cons c cs =>
    refine ⟨_, ?_, next, fresh, orders, owed, ?_⟩
    · rw [← called]
      cases m <;> rfl
    · simp [space]

theorem giveWaiter_idle {s : State} {m : Link} {h : HangWork} (hang : s.hangOf m = some h) (none_due : h.due = []) :
    s.giveWaiter m [] = { s with spaceWaiters := [] } := by
  have due : h.toQueue = none := by rw [toQueue_eq_head?, none_due]; rfl
  have same : State.hangOf { s with spaceWaiters := [] } m = some h := hang ▸ by cases m <;> rfl
  have still : State.queueRollCall { s with spaceWaiters := [] } m = { s with spaceWaiters := [] } := by
    rw [State.queueRollCall, same]
    simp only [due]
  unfold State.giveWaiter
  dsimp only
  rw [still, State.hasToQueue, same]
  simp only [due]
  rfl

/-- The places that one waiting hang gets (R49). -/
theorem givePlaces_single (n : Nat) {s : State} {m : Link} {h : HangWork} (owed : s.owed = []) (space : s.spaceWaiters = [m])
    (hang : s.hangOf m = some h) (distinct : h.due.Nodup) :
    (State.givePlaces n s).orders = s.orders ++ (h.due.take n).map (rollCallOf m) ∧
    (State.givePlaces n s).spaceWaiters = if 0 < n ∧ h.due.length ≤ n then [] else [m] := by
  induction n generalizing s h with
  | zero => simp [State.givePlaces, space]
  | succ n ih =>
    have gives : s.givePlace = s.giveWaiter m [] := by rw [State.givePlace, owed]; simp only [space]
    rw [State.givePlaces, gives]
    cases head : h.due with
    | nil =>
      rw [giveWaiter_idle hang head, givePlaces_idle n (s := { s with spaceWaiters := [] }) owed rfl]
      simp
    | cons b bs =>
      obtain ⟨g, hang', due', distinct', orders, owed', space'⟩ := giveWaiter_due hang distinct head
      cases bs with
      | nil =>
        rw [givePlaces_idle n (owed'.trans owed) space', orders, space']
        simp
      | cons c cs =>
        obtain ⟨orders'', space''⟩ := ih (owed'.trans owed) (space'.trans (by simp)) hang' distinct'
        rw [orders'', space'', orders, due']
        constructor
        · simp
        · by_cases none_left : n = 0
          · simp [none_left]
          · simp [Nat.pos_of_ne_zero none_left]

/-! ### What the hangs that get places keep -/

/-- A port whose hang may have queued roll calls: it keeps its provisional write, and any other port stays as it is. -/
structure Port.Queues (p q : Port) : Prop where
  touched : q = { p with job := q.job }
  job : q.job = p.job ∨ ∃ j h g, p.job = some j ∧ j.work = .hang h ∧ q.job = some { j with work := .hang g } ∧ g.prov = h.prov

theorem Port.Queues.refl (p : Port) : p.Queues p := ⟨rfl, .inl rfl⟩

theorem Port.Queues.trans {p q r : Port} (h : p.Queues q) (k : q.Queues r) : p.Queues r := by
  refine ⟨?_, ?_⟩
  · rw [k.touched, h.touched]
  · rcases k.job with same | ⟨j, x, y, at_q, work, at_r, prov⟩
    · rw [same]
      exact h.job
    · rcases h.job with same | ⟨j', x', y', at_p, work', at_q', prov'⟩
      · exact .inr ⟨j, x, y, same ▸ at_q, work, at_r, prov⟩
      · obtain rfl := Option.some.inj (at_q.symm.trans at_q')
        obtain rfl : y' = x := JobWork.hang.inj work
        exact .inr ⟨j', x', y, at_p, work', at_r, prov.trans prov'⟩

theorem queues_queueRollCall (s : State) (l m : Link) : (s.port m).Queues ((s.queueRollCall l).port m) ∧
    (m ≠ l → (s.queueRollCall l).port m = s.port m) := by
  obtain same | ⟨h, b, hang, -, queues⟩ := queueRollCall_cases s l
  · rw [same]
    exact ⟨.refl _, fun _ => rfl⟩
  · have pushed (u : State) (o : Order) (k : Link) : (u.pushOrder o).port k = u.port k := by cases k <;> rfl
    rw [queues, pushed]
    unfold State.hangOf at hang
    cases job : (s.port l).job with
    | none => simp [job] at hang
    | some j =>
      have work : j.work = .hang h := by
        simp only [job] at hang
        cases w : j.work <;> simp [w] at hang
        rw [hang]
      rw [State.setHang, setWork_eq job]
      by_cases same : m = l
      · subst same
        rw [State.port_setPort]
        exact ⟨⟨rfl, .inr ⟨j, h, h.setOutcome b .queued, job, work, rfl, rfl⟩⟩, fun other => absurd rfl other⟩
      · rw [State.port_setPort_of_ne _ _ _ _ same]
        exact ⟨.refl _, fun _ => rfl⟩

theorem queues_giveWaiter (s : State) (l : Link) (rest : List Link) (m : Link) :
    (s.port m).Queues ((s.giveWaiter l rest).port m) ∧ (m ≠ l → (s.giveWaiter l rest).port m = s.port m) := by
  have queued := queues_queueRollCall { s with spaceWaiters := rest } l m
  have from_s : State.port { s with spaceWaiters := rest } m = s.port m := by cases m <;> rfl
  rw [from_s] at queued
  have port_space (u : State) (x : List Link) : State.port { u with spaceWaiters := x } m = u.port m := by cases m <;> rfl
  unfold State.giveWaiter
  dsimp only
  split
  · rw [port_space]
    exact queued
  · exact queued

/-- What a free place given out does: at most one roll call, of a hang that waits. -/
theorem giveWaiter_calls (s : State) (l : Link) (rest : List Link) :
    (∃ calls : List Order, (s.giveWaiter l rest).orders = s.orders ++ calls ∧ calls.length ≤ 1 ∧
      ∀ o ∈ calls, o.kind = .rollCall ∧ o.orig = .hang l) ∧
    (s.giveWaiter l rest).owed = s.owed ∧ ∀ m ∈ (s.giveWaiter l rest).spaceWaiters, m = l ∨ m ∈ rest := by
  have called : (∃ calls : List Order, (({ s with spaceWaiters := rest } : State).queueRollCall l).orders = s.orders ++ calls ∧
      calls.length ≤ 1 ∧ ∀ o ∈ calls, o.kind = .rollCall ∧ o.orig = .hang l) ∧
      (({ s with spaceWaiters := rest } : State).queueRollCall l).owed = s.owed ∧
      (({ s with spaceWaiters := rest } : State).queueRollCall l).spaceWaiters = rest := by
    obtain same | ⟨h, b, -, -, queues⟩ := queueRollCall_cases { s with spaceWaiters := rest } l
    · rw [same]
      exact ⟨⟨[], (List.append_nil _).symm, by simp, by simp⟩, rfl, rfl⟩
    · have kept := (hangMove_setHang { s with spaceWaiters := rest } l (h.setOutcome b .queued)).keeps
      rw [queues]
      exact ⟨⟨[rollCallOf l b], congrArg (· ++ [rollCallOf l b]) kept.orders, Nat.le_refl 1, by simp [rollCallOf]⟩,
        kept.owed, kept.spaceWaiters⟩
  obtain ⟨calls, owed, space⟩ := called
  unfold State.giveWaiter
  dsimp only
  split
  · refine ⟨calls, owed, fun m hm => ?_⟩
    rw [space] at hm
    rcases List.mem_append.mp hm with h | h
    · exact .inr h
    · exact .inl (List.mem_singleton.mp h)
  · exact ⟨calls, owed, fun m hm => .inr (space ▸ hm)⟩

/-- The places given out to the waiting hangs, once no gather is owed (R49). -/
theorem givePlaces_calls (n : Nat) (s : State) (owed : s.owed = []) :
    (∃ calls : List Order, (State.givePlaces n s).orders = s.orders ++ calls ∧ calls.length ≤ n ∧
      ∀ o ∈ calls, o.kind = .rollCall ∧ ∃ m ∈ s.spaceWaiters, o.orig = .hang m) ∧
    (State.givePlaces n s).owed = [] ∧ (∀ m ∈ (State.givePlaces n s).spaceWaiters, m ∈ s.spaceWaiters) ∧
    ∀ m, (s.port m).Queues ((State.givePlaces n s).port m) ∧
      (m ∉ s.spaceWaiters → (State.givePlaces n s).port m = s.port m) := by
  induction n generalizing s with
  | zero => exact ⟨⟨[], (List.append_nil _).symm, by simp, by simp⟩, owed, fun m h => h, fun m => ⟨.refl _, fun _ => rfl⟩⟩
  | succ n ih =>
    cases space : s.spaceWaiters with
    | nil =>
      rw [givePlaces_idle _ owed space]
      exact ⟨⟨[], (List.append_nil _).symm, by simp, by simp⟩, owed, fun m h => space ▸ h,
        fun m => ⟨.refl _, fun _ => rfl⟩⟩
    | cons l rest =>
      have gives : s.givePlace = s.giveWaiter l rest := by rw [State.givePlace, owed]; simp only [space]
      obtain ⟨⟨calls, orders, few, called⟩, owed', waits⟩ := giveWaiter_calls s l rest
      obtain ⟨⟨calls', orders', few', called'⟩, owed'', waits', ports⟩ := ih (s.giveWaiter l rest) (owed'.trans owed)
      have listed (m : Link) (h : m ∈ (s.giveWaiter l rest).spaceWaiters) : m ∈ l :: rest := List.mem_cons.mpr (waits m h)
      rw [State.givePlaces, gives]
      refine ⟨⟨calls ++ calls', ?_, ?_, fun o ho => ?_⟩, owed'', fun m hm => listed m (waits' m hm), fun m => ?_⟩
      · rw [orders', orders, List.append_assoc]
      · rw [List.length_append]
        omega
      · rcases List.mem_append.mp ho with first | later
        · exact ⟨(called o first).1, l, List.mem_cons_self, (called o first).2⟩
        · obtain ⟨kind, k, hk, orig⟩ := called' o later
          exact ⟨kind, k, listed k hk, orig⟩
      · obtain ⟨first, others⟩ := queues_giveWaiter s l rest m
        refine ⟨first.trans (ports m).1, fun absent => ?_⟩
        rw [List.mem_cons, not_or] at absent
        rw [(ports m).2 (fun h => (waits m h).elim absent.1 absent.2), others absent.1]

end Sys2Proof.Machine
end

section
/-! PROOFS. What abandoning a running job leaves (R16, R18, R20, R22, R61, R79). -/
namespace Sys2Proof.Machine

/-! ### A hang's orders withdrawn -/

/-- The chain without the orders and the waits of a link's hang, its `n` places given to the owed gathers (R49, R61). -/
def State.ordersGone (s : State) (l : Link) (n : Nat) : State :=
  { s with
    orders := s.ordersAhead l n
    owed := s.owed.drop n
    spaceWaiters := s.spaceWaiters.filter (fun m => decide (m ≠ l))
    idleWaits := s.idleWaits.filter (fun e => decide (e.2 ≠ l))
    postWaiters := s.postWaiters.filter (fun m => decide (m ≠ l))
    wire := s.wire.map (fun w => if w.order.orig = .hang l then { w with dropped := true } else w) }

theorem port_ordersGone (s : State) (l : Link) (n : Nat) (m : Link) : (s.ordersGone l n).port m = s.port m := by
  cases m <;> rfl

/-- The orders of a link's hang. -/
def State.hangOrders (s : State) (l : Link) : Nat := (s.orders.filter (fun o => decide (o.orig = .hang l))).length

theorem withdrawOrders_eq (s : State) (l : Link) : s.withdrawOrders l =
    State.givePlaces (s.hangOrders l - s.owed.length) (s.ordersGone l (s.hangOrders l)) := by
  have split := length_eq_filter_add (fun o : Order => decide (o.orig ≠ .hang l)) s.orders
  have own : (s.orders.filter (fun o => !decide (o.orig ≠ .hang l))).length = s.hangOrders l := by
    simp [State.hangOrders]
  unfold State.withdrawOrders
  dsimp only
  rw [show s.orders.length - (s.orders.filter (fun o => decide (o.orig ≠ .hang l))).length = s.hangOrders l by omega,
    givePlaces_owed]
  refine congrArg _ ?_
  unfold State.ordersGone State.ordersAhead
  simp only [← gatherOrder_eq]
  rfl

/-- The places that the owed gathers leave go to the waiting hangs. -/
theorem withdrawOrders_calls (s : State) (l : Link) :
    (∃ calls : List Order, (s.withdrawOrders l).orders = s.ordersAhead l (s.hangOrders l) ++ calls ∧
      calls.length ≤ s.hangOrders l - s.owed.length ∧
      ∀ o ∈ calls, o.kind = .rollCall ∧ ∃ m ∈ s.spaceWaiters, m ≠ l ∧ o.orig = .hang m) ∧
    (s.withdrawOrders l).owed = s.owed.drop (s.hangOrders l) ∧
    (∀ m ∈ (s.withdrawOrders l).spaceWaiters, m ∈ s.spaceWaiters ∧ m ≠ l) ∧
    ∀ m, (s.port m).Queues ((s.withdrawOrders l).port m) ∧ (m = l → (s.withdrawOrders l).port m = s.port m) := by
  rw [withdrawOrders_eq]
  have waits (m : Link) (h : m ∈ (s.ordersGone l (s.hangOrders l)).spaceWaiters) : m ∈ s.spaceWaiters ∧ m ≠ l := by
    simpa [State.ordersGone] using h
  by_cases few : s.hangOrders l ≤ s.owed.length
  · rw [Nat.sub_eq_zero_of_le few]
    refine ⟨⟨[], (List.append_nil _).symm, Nat.le_refl 0, by simp⟩, rfl, waits, fun m => ?_⟩
    rw [State.givePlaces, port_ordersGone]
    exact ⟨.refl _, fun _ => rfl⟩
  · have all : s.owed.drop (s.hangOrders l) = [] := List.drop_eq_nil_of_le (by omega)
    obtain ⟨⟨calls, orders, few, called⟩, owed, space, ports⟩ :=
      givePlaces_calls (s.hangOrders l - s.owed.length) (s.ordersGone l (s.hangOrders l)) all
    refine ⟨⟨calls, orders, few, fun o ho => ?_⟩, owed.trans all.symm, fun m hm => waits m (space m hm), fun m => ?_⟩
    · obtain ⟨kind, m, hm, orig⟩ := called o ho
      exact ⟨kind, m, (waits m hm).1, (waits m hm).2, orig⟩
    · have port := ports m
      rw [port_ordersGone] at port
      exact ⟨port.1, fun own => port.2 (fun listed => (waits m listed).2 own)⟩

/-- A hang that waits for space alone gets the places that the owed gathers leave (R49). -/
theorem withdrawOrders_waiter {s : State} {l m : Link} {h : HangWork}
    (alone : s.spaceWaiters.filter (fun k => decide (k ≠ l)) = [m]) (hang : s.hangOf m = some h)
    (distinct : (h.branches.map HangBranch.branch).Nodup) :
    (s.withdrawOrders l).orders = s.ordersAhead l (s.hangOrders l) ++
      (h.due.take (s.hangOrders l - s.owed.length)).map (rollCallOf m) ∧
    (s.withdrawOrders l).spaceWaiters =
      if 0 < s.hangOrders l - s.owed.length ∧ h.due.length ≤ s.hangOrders l - s.owed.length then [] else [m] := by
  rw [withdrawOrders_eq]
  by_cases few : s.hangOrders l ≤ s.owed.length
  · rw [Nat.sub_eq_zero_of_le few]
    exact ⟨by simp [State.givePlaces, State.ordersGone], by simpa [State.givePlaces, State.ordersGone] using alone⟩
  · have same : (s.ordersGone l (s.hangOrders l)).hangOf m = some h := by
      rw [← hang, State.hangOf, port_ordersGone, State.hangOf]
    exact givePlaces_single _ (List.drop_eq_nil_of_le (by omega)) alone same (due_nodup distinct)

theorem withdrawOrders_keeps (s : State) (l : Link) :
    s.withdrawOrders l = (s.ordersGone l 0).queuedFrom (s.withdrawOrders l) := by
  rw [withdrawOrders_eq]
  exact givePlaces_queuedFrom _ _

theorem ordersWithdrawn_withdrawOrders (s : State) (l : Link) :
    s.OrdersWithdrawn (s.withdrawOrders l) l (s.hangOrders l) := by
  obtain ⟨given, owed, space, -⟩ := withdrawOrders_calls s l
  have keeps := withdrawOrders_keeps s l
  exact {
    freed := rfl, given := given, owed := owed
    waiter := fun m h alone hang distinct => withdrawOrders_waiter alone hang distinct
    space := fun own => (space l own).2 rfl
    wait := fun few => by
      rw [withdrawOrders_eq, Nat.sub_eq_zero_of_le few]
      rfl
    idle := by rw [keeps]; rfl
    post := by rw [keeps]; rfl
    wire := by rw [keeps]; rfl }

/-! ### A job's work abandoned -/

/-- What abandoning the work of a link's job may touch: no job ends, at most POOL_LOW is raised, the orders of the sweeps
stay. -/
structure State.WorkTouched (s t : State) (l : Link) : Prop where
  touched : t = s.withdrawnFrom t
  ports : ∀ m, Port.Queues { s.port m with flags := (t.port m).flags } (t.port m)
  own : (t.port l).job = (s.port l).job
  quiet : s.OnlyPoolLow t
  sweeps : (s.orders.filter (fun o => decide (o.orig = .drift ∨ o.orig = .sweepNow))).Sublist t.orders

theorem queues_flags {p q : Port} (queues : p.Queues q) (flags : Word) :
    Port.Queues { p with flags := flags } { q with flags := flags } :=
  ⟨by rw [queues.touched], queues.job⟩

/-- Cells freed after a withdrawal. -/
theorem State.WorkTouched.freeCells {s t : State} {l : Link} (h : s.WorkTouched t l) (cells : List Nat) :
    s.WorkTouched (t.freeCells cells) l := by
  have freed := freeCells_freedFrom t cells
  have ports (m : Link) : (t.freeCells cells).port m = { t.port m with flags := ((t.freeCells cells).port m).flags } := by
    rw [freed]
    cases m <;> rfl
  exact {
    touched := by rw [freed, h.touched]; rfl
    ports := fun m => by
      rw [ports m]
      exact queues_flags (h.ports m) _
    own := by rw [ports l]; exact h.own
    quiet := fun m n other => (onlyPoolLow_freeCells t cells m n other).trans (h.quiet m n other)
    sweeps := by rw [freed]; exact h.sweeps }

theorem port_nvPort (s : State) (x : NvPort) (m : Link) : State.port { s with nvPort := x } m = s.port m := by
  cases m <;> rfl

/-- A change of the NV Port after a withdrawal. -/
theorem State.WorkTouched.nvPort {s t : State} {l : Link} (h : s.WorkTouched t l) (x : NvPort) :
    s.WorkTouched { t with nvPort := x } l := {
  touched := by rw [h.touched]; rfl
  ports := fun m => by rw [port_nvPort]; exact h.ports m
  own := by rw [port_nvPort]; exact h.own
  quiet := fun m n other => by rw [port_nvPort]; exact h.quiet m n other
  sweeps := h.sweeps }

theorem State.WorkTouched.refl (s : State) (l : Link) : s.WorkTouched s l := {
  touched := rfl
  ports := fun _ => .refl _
  own := rfl
  quiet := fun _ _ _ => rfl
  sweeps := List.filter_sublist }

theorem State.OrdersWithdrawn.congr {s t u : State} {l : Link} {n : Nat} (h : s.OrdersWithdrawn t l n)
    (same : u.orders = t.orders ∧ u.owed = t.owed ∧ u.spaceWaiters = t.spaceWaiters ∧ u.idleWaits = t.idleWaits ∧
      u.postWaiters = t.postWaiters ∧ u.wire = t.wire) : s.OrdersWithdrawn u l n := by
  obtain ⟨orders, owed, space, idle, post, wire⟩ := same
  exact {
    freed := h.freed, given := orders ▸ h.given, owed := owed ▸ h.owed
    waiter := orders ▸ space ▸ h.waiter, space := space ▸ h.space, wait := space ▸ h.wait
    idle := idle ▸ h.idle, post := post ▸ h.post, wire := wire ▸ h.wire }

theorem ordersKept_freeCells {s t : State} (h : s.OrdersKept t) (cells : List Nat) : s.OrdersKept (t.freeCells cells) := by
  rw [freeCells_freedFrom]
  exact h

theorem requestsWithdrawn_freeCells {s t : State} {l : Link} {orphan : Option RecWrite}
    (h : s.RequestsWithdrawn t l orphan) (cells : List Nat) : s.RequestsWithdrawn (t.freeCells cells) l orphan := by
  rw [freeCells_freedFrom]
  exact h

theorem ordersWithdrawn_freeCells {s t : State} {l : Link} {n : Nat} (h : s.OrdersWithdrawn t l n) (cells : List Nat) :
    s.OrdersWithdrawn (t.freeCells cells) l n :=
  h.congr (by rw [freeCells_freedFrom]; exact ⟨rfl, rfl, rfl, rfl, rfl, rfl⟩)

/-- A claim is released whatever else is withdrawn before it. -/
theorem State.ClaimReleased.of_pool {s t u : State} {claim : List Nat} (h : t.ClaimReleased u claim)
    (pool : t.pool = s.pool) (settings : t.settings = s.settings) : s.ClaimReleased u claim := by
  obtain ⟨free, chain, image, low, kept⟩ := h
  rw [pool] at free chain image kept
  rw [settings] at low
  exact ⟨free, chain, image, low, kept⟩

theorem ordersKept_withdrawNv (s : State) (l : Link) : s.OrdersKept (s.withdrawNv l) :=
  ⟨rfl, rfl, rfl, rfl, rfl, rfl⟩

/-- The sweeps' orders all stay. -/
theorem sweeps_ordersAhead (s : State) (l : Link) (n : Nat) (calls : List Order) :
    (s.orders.filter (fun o => decide (o.orig = .drift ∨ o.orig = .sweepNow))).Sublist (s.ordersAhead l n ++ calls) := by
  have kept : (s.orders.filter (fun o => decide (o.orig = .drift ∨ o.orig = .sweepNow))).Sublist
      (s.orders.filter (fun o => decide (o.orig ≠ .hang l))) := by
    refine sublist_filter_of_imp s.orders (fun o sweep => ?_)
    obtain drift | now := of_decide_eq_true sweep
    · simp [drift]
    · simp [now]
  exact (kept.trans (List.sublist_append_left _ _)).trans (List.sublist_append_left _ _)

theorem workTouched_withdrawOrders (s : State) (l : Link) : s.WorkTouched (s.withdrawOrders l) l := by
  obtain ⟨⟨calls, orders, -, -⟩, -, -, ports⟩ := withdrawOrders_calls s l
  have keeps := withdrawOrders_keeps s l
  have flags (m : Link) : ((s.withdrawOrders l).port m).flags = (s.port m).flags := by rw [(ports m).1.touched]
  exact {
    touched := by rw [keeps]; rfl
    ports := fun m => by
      have same : ({ s.port m with flags := ((s.withdrawOrders l).port m).flags } : Port) = s.port m := by rw [flags m]
      rw [same]
      exact (ports m).1
    own := by rw [(ports l).2 rfl]
    quiet := fun m n _ => by rw [Port.hasFlag, flags m, Port.hasFlag]
    sweeps := orders ▸ sweeps_ordersAhead s l _ calls }

theorem workTouched_abandonWork (s : State) (l : Link) (w : JobWork) : s.WorkTouched (s.abandonWork l w) l := by
  have requests : s.WorkTouched (s.withdrawNv l) l := (State.WorkTouched.refl s l).nvPort _
  cases w with
  | write w => exact requests.freeCells w.claim
  | erase w => exact requests
  | audit w => exact requests
  | save w => exact requests
  | hang h =>
    have orders := workTouched_withdrawOrders s l
    unfold State.abandonWork
    dsimp only
    cases h.prov with
    | none => exact orders
    | some w =>
      dsimp only
      cases w.revision with
      | some v => exact (orders.nvPort _).nvPort _
      | none => exact (orders.nvPort _).freeCells w.claim

/-- A hang's job abandoned with its provisional write (R79). -/
theorem jobReleased_hang (s : State) (l : Link) (h : HangWork) :
    s.JobReleased (s.abandonWork l (.hang h)) l (.hang h) := by
  have orders := ordersWithdrawn_withdrawOrders s l
  have keeps := withdrawOrders_keeps s l
  have pool : (s.withdrawOrders l).pool = s.pool := by rw [keeps]; rfl
  have nv : (s.withdrawOrders l).nvPort = s.nvPort := by rw [keeps]; rfl
  have settings : (s.withdrawOrders l).settings = s.settings := by rw [keeps]; rfl
  have requests : s.RequestsWithdrawn ((s.withdrawOrders l).withdrawNv l) l s.nvPort.orphan := by
    unfold State.RequestsWithdrawn State.withdrawNv
    rw [nv]
  unfold State.abandonWork
  dsimp only
  cases prov : h.prov with
  | none => exact ⟨⟨_, orders⟩, fun _ => ⟨pool, nv⟩, fun w at_w => (nomatch prov.symm.trans at_w),
      fun w v at_w => (nomatch prov.symm.trans at_w)⟩
  | some w =>
    dsimp only
    cases revision : w.revision with
    | some v =>
      refine ⟨⟨_, orders.congr ⟨rfl, rfl, rfl, rfl, rfl, rfl⟩⟩, fun absent => (nomatch prov.symm.trans absent),
        fun x at_x none => ?_, fun x y at_x at_y => ⟨pool, ?_⟩⟩
      · obtain rfl := Option.some.inj (prov.symm.trans at_x)
        cases revision.symm.trans none
      · obtain rfl := Option.some.inj (prov.symm.trans at_x)
        unfold State.RequestsWithdrawn State.withdrawNv
        dsimp only
        rw [nv]
    | none =>
      have withdrawn : s.OrdersWithdrawn ((s.withdrawOrders l).withdrawNv l) l _ :=
        orders.congr ⟨rfl, rfl, rfl, rfl, rfl, rfl⟩
      refine ⟨⟨_, ordersWithdrawn_freeCells withdrawn w.claim⟩,
        fun absent => (nomatch prov.symm.trans absent), fun x at_x _ => ?_, fun x y at_x at_y => ?_⟩
      · obtain rfl := Option.some.inj (prov.symm.trans at_x)
        exact ⟨(claimReleased_freeCells ((s.withdrawOrders l).withdrawNv l) w.claim).of_pool pool settings,
          requestsWithdrawn_freeCells requests _⟩
      · obtain rfl := Option.some.inj (prov.symm.trans at_x)
        cases revision.symm.trans at_y

/-- What abandoning a job's work releases (R16, R18, R20, R22, R79). -/
theorem jobReleased_abandonWork (s : State) (l : Link) (w : JobWork) : s.JobReleased (s.abandonWork l w) l w := by
  have requests := requestsWithdrawn_withdrawNv s l
  have orders := ordersKept_withdrawNv s l
  cases w with
  | write w => exact ⟨(claimReleased_freeCells (s.withdrawNv l) w.claim).of_pool rfl rfl,
      requestsWithdrawn_freeCells requests _, ordersKept_freeCells orders _⟩
  | erase w => exact ⟨rfl, requests, orders⟩
  | audit w => exact ⟨rfl, requests, orders⟩
  | save w => exact ⟨rfl, requests, orders⟩
  | hang h => exact jobReleased_hang s l h

end Sys2Proof.Machine
end

section
/-! PROOFS. LINK RESET and ABANDON JOB (R173, R174, R179). -/
namespace Sys2Proof.Machine

/-! ### A release does not see the link's own port -/

theorem hangOf_setPort_of_ne (s : State) (l m : Link) (p : Port) (other : m ≠ l) :
    (s.setPort l p).hangOf m = s.hangOf m := by
  rw [State.hangOf, State.port_setPort_of_ne _ _ _ _ other, State.hangOf]

theorem State.OrdersWithdrawn.of_setPort {s t : State} {l : Link} {p q : Port} {n : Nat}
    (h : (s.setPort l p).OrdersWithdrawn t l n) : s.OrdersWithdrawn (t.setPort l q) l n := by
  have waiter (m : Link) (k : HangWork) (alone : s.spaceWaiters.filter (fun k => decide (k ≠ l)) = [m])
      (hang : s.hangOf m = some k) : (s.setPort l p).hangOf m = some k := by
    have other : m ≠ l := by
      have listed : m ∈ s.spaceWaiters.filter (fun k => decide (k ≠ l)) := alone ▸ List.mem_singleton_self m
      simpa using (List.mem_filter.mp listed).2
    rw [hangOf_setPort_of_ne _ _ _ _ other, hang]
  have same : s.OrdersWithdrawn t l n := by
    have freed := h.freed
    have given := h.given
    have owed := h.owed
    have each := h.waiter
    have wait := h.wait
    have idle := h.idle
    have post := h.post
    have wire := h.wire
    cases l <;> exact ⟨freed, given, owed, fun m k alone hang => each m k alone (waiter m k alone hang), h.space, wait, idle,
      post, wire⟩
  exact same.congr (by cases l <;> exact ⟨rfl, rfl, rfl, rfl, rfl, rfl⟩)

theorem State.JobReleased.of_setPort {s t : State} {l : Link} {p q : Port} {w : JobWork}
    (h : (s.setPort l p).JobReleased t l w) : s.JobReleased (t.setPort l q) l w := by
  have claim (cells : List Nat) (c : (s.setPort l p).ClaimReleased t cells) : s.ClaimReleased (t.setPort l q) cells := by
    obtain ⟨free, chain, image, low, kept⟩ := c
    cases l <;> exact ⟨free, chain, image, low, kept⟩
  have nv (x y : Option RecWrite) (same : x = y) (r : (s.setPort l p).RequestsWithdrawn t l x) :
      s.RequestsWithdrawn (t.setPort l q) l y := by
    subst same
    cases l <;> exact r
  have orphan : (s.setPort l p).nvPort.orphan = s.nvPort.orphan := by cases l <;> rfl
  have kept (k : (s.setPort l p).OrdersKept t) : s.OrdersKept (t.setPort l q) := by cases l <;> exact k
  have pool (same : t.pool = (s.setPort l p).pool) : (t.setPort l q).pool = s.pool := by cases l <;> exact same
  have port (same : t.nvPort = (s.setPort l p).nvPort) : (t.setPort l q).nvPort = s.nvPort := by cases l <;> exact same
  cases w with
  | write w => exact ⟨claim _ h.1, nv _ _ orphan h.2.1, kept h.2.2⟩
  | erase w => exact ⟨pool h.1, nv _ _ orphan h.2.1, kept h.2.2⟩
  | audit w => exact ⟨pool h.1, nv _ _ orphan h.2.1, kept h.2.2⟩
  | save w => exact ⟨pool h.1, nv _ _ orphan h.2.1, kept h.2.2⟩
  | hang w =>
    obtain ⟨⟨n, orders⟩, absent, fresh, swapped⟩ := h
    refine ⟨⟨n, orders.of_setPort⟩, fun none => ?_, fun x prov none => ?_, fun x v prov some => ?_⟩
    · exact ⟨pool (absent none).1, port (absent none).2⟩
    · exact ⟨claim _ (fresh x prov none).1, nv _ _ orphan (fresh x prov none).2⟩
    · exact ⟨pool (swapped x v prov some).1, nv _ _ rfl (swapped x v prov some).2⟩

/-! ### A running job abandoned -/

theorem abandonJob_of_job {s : State} {l : Link} {j : Job} (job : (s.port l).job = some j) :
    s.abandonJob l = (s.setJob l none).abandonWork l j.work := by
  rw [State.abandonJob, job]

theorem abandonJob_own {s : State} {l : Link} {j : Job} (job : (s.port l).job = some j) :
    (s.abandonJob l).port l = { s.port l with job := none, flags := ((s.abandonJob l).port l).flags } := by
  rw [abandonJob_of_job job]
  have touched := workTouched_abandonWork (s.setJob l none) l j.work
  have own := touched.own
  have port := (touched.ports l).touched
  have set : (s.setJob l none).port l = { s.port l with job := none } := State.port_setPort s l _
  rw [set] at own port
  rw [port, own]

theorem abandonJob_other {s : State} {l m : Link} {j : Job} (job : (s.port l).job = some j) (other : m ≠ l) :
    Port.Queues { s.port m with flags := ((s.abandonJob l).port m).flags } ((s.abandonJob l).port m) := by
  rw [abandonJob_of_job job]
  have port := (workTouched_abandonWork (s.setJob l none) l j.work).ports m
  rwa [State.setJob, State.port_setPort_of_ne _ _ _ _ other] at port

theorem abandonJob_marked {s : State} {l m : Link} {j : Job} (job : (s.port l).job = some j) (other : m ≠ l) :
    (s.abandonJob l).port m = (s.port m).marked ((s.abandonJob l).port m) := by
  have port := (abandonJob_other job other).touched
  exact port

theorem abandonJob_withdrawnFrom {s : State} {l : Link} {j : Job} (job : (s.port l).job = some j) :
    s.abandonJob l = s.withdrawnFrom (s.abandonJob l) := by
  rw [abandonJob_of_job job]
  have touched := (workTouched_abandonWork (s.setJob l none) l j.work).touched
  rw [touched]
  cases l <;> rfl

/-- The end of a job that a call abandons: only the other links' notices and hangs are touched besides what is released. -/
structure State.CallAbandons (s t : State) (l : Link) (w : JobWork) : Prop where
  others : ∀ m, m ≠ l → t.port m = (s.port m).marked (t.port m)
  released : s.JobReleased t l w
  touched : t = s.withdrawnFrom t

theorem callAbandons_abandonJob {s : State} {l : Link} {j : Job} (job : (s.port l).job = some j) (q : Port) :
    s.CallAbandons (((s.called l).abandonJob l).setPort l q) l j.work := by
  have runs : ((s.called l).port l).job = some j := by rw [port_called]; exact job
  exact {
    others := fun m other => by
      have port := abandonJob_marked runs other
      rw [State.called, State.port_setPort_of_ne _ _ _ _ other] at port
      rw [State.port_setPort_of_ne _ _ _ _ other]
      exact port
    released := by
      rw [abandonJob_of_job runs, State.setJob, State.called, State.setPort_setPort]
      exact (jobReleased_abandonWork (s.setPort l _) l j.work).of_setPort
    touched := by
      have touched := abandonJob_withdrawnFrom runs
      rw [touched]
      cases l <;> rfl }

/-! ### SENSE JOB and ABANDON JOB -/

theorem exec_senseJob (l : Link) (f : Frame) (s : State) : exec (.senseJob l f) s =
    .next (takeCall rowSenseJob false (hasLength 0) (ownSenseJob l) l f s) := rfl

theorem exec_abandonJob (l : Link) (f : Frame) (s : State) : exec (.abandonJob l f) s =
    .next (takeCall rowAbandonJob false (hasLength 0) (ownAbandonJob l) l f s) := rfl

theorem exec_linkReset (l : Link) (f : Frame) (s : State) : exec (.linkReset l f) s =
    .next (takeCall rowLinkReset false (hasLength 0) (ownLinkReset l) l f s) := rfl

theorem senseJobWords_eq (p : Port) : senseJobWords p = p.jobRecord.words ++ (match p.job with
    | none => [0, 0]
    | some j => if j.detached then [1, j.work.fields.kindWord] else [0, 0]) := by
  cases job : p.job with
  | none => simp [senseJobWords, Port.detachedJob, job]; exact ⟨rfl, rfl⟩
  | some j =>
    cases detached : j.detached <;>
      simp [senseJobWords, Port.detachedJob, job, detached, markWord, JobFields.kindWord]

/-- The record of a job abandoned before its commit. -/
theorem abandonedRecord_eq {j : Job} (uncommitted : j.committed = false) : j.abandonedRecord =
    { state := .abandoned, result := .none, committed := false, fields := j.work.fields } := by
  rw [Job.abandonedRecord, uncommitted]

/-- A job that has neither detached nor committed is abandoned (R174). -/
theorem ownAbandonJob_of_free {s : State} {l : Link} {j : Job} (job : (s.port l).job = some j)
    (attached : j.detached = false) (uncommitted : j.committed = false) : ownAbandonJob l s =
      .accept .ok [j.work.fields.kindWord]
        ((s.abandonJob l).setPort l { (s.abandonJob l).port l with record := j.abandonedRecord }) := by
  rw [ownAbandonJob, job]
  simp [attached, uncommitted]

/-- Settles O13: the effects of an abandoned job are those that `callAbandons_abandonJob` names. -/
theorem jobCallsAnswer : Obligations.JobCallsAnswer := by
  unfold Obligations.JobCallsAnswer
  intro l f s operands
  refine ⟨fun takes => ?_, fun takes job => ?_, fun j takes job held => ?_, fun j takes job attached uncommitted => ?_⟩
  · rw [exec_senseJob]
    refine congrArg Host.Outcome.next (takeCall_answers takes (admits_plain (permits_all l)) (hasLength_of operands) ?_)
    rw [ownSenseJob, senseJobWords_eq, port_called]
    rfl
  · rw [exec_abandonJob]
    refine congrArg Host.Outcome.next (takeCall_changes (fun u => u.setPort l { u.port l with record := .none })
      (fun u => reply_setPort (fun p => { p with record := .none }) _ _ (fun _ => rfl) u l) takes
      (admits_plain (permits_all l)) (hasLength_of operands) ?_)
    have none : ((s.called l).port l).job = none := by rw [port_called]; exact job
    rw [ownAbandonJob, none]
  · rw [exec_abandonJob]
    refine congrArg Host.Outcome.next (takeCall_answers takes (admits_plain (permits_all l)) (hasLength_of operands) ?_)
    have runs : ((s.called l).port l).job = some j := by rw [port_called]; exact job
    rw [ownAbandonJob, runs]
    simp only [if_pos held]
  · have runs : ((s.called l).port l).job = some j := by rw [port_called]; exact job
    have nothing : hasLength 0 f.operands = true := hasLength_of operands
    have gone := callAbandons_abandonJob (s := s) (l := l) job
      (({ ((s.called l).abandonJob l).port l with record := j.abandonedRecord } : Port).stage .ok [j.work.fields.kindWord])
    rw [exec_abandonJob, takeCall_accepts (c := rowAbandonJob) takes (admits_plain (permits_all l)) nothing
      (ownAbandonJob_of_free runs attached uncommitted), State.reply, State.port_setPort, State.setPort_setPort]
    refine ⟨_, rfl, ?_, gone.others, gone.released, gone.touched⟩
    rw [State.port_setPort, abandonJob_own runs, abandonedRecord_eq uncommitted, ← reply_answered s l _ _ (open_of_takes takes),
      State.reply, State.port_setPort]
    rfl

/-! ### LINK RESET -/

/-- A call that stages its reply itself. -/
theorem takeCall_stages {c : CallRow} {od : Bool} {len : List Word → Bool} {own : State → Answer} {l : Link} {f : Frame}
    {s u : State} (h : s.takes l f c.code = true) (admits : s.Admits c l) (hlen : len f.operands = true)
    (hown : own (s.called l) = .staged u) : takeCall c od len own l f s = u := by
  rw [takeCall_takes c od len own l f s h rfl hlen admits.permits admits.unlocked admits.free, hown]

theorem endJobAtReset_of_free {s : State} {l : Link} {j : Job} (job : (s.port l).job = some j)
    (attached : j.detached = false) (uncommitted : j.committed = false) : s.endJobAtReset l =
      (s.abandonJob l).setPort l { (s.abandonJob l).port l with record := j.abandonedRecord } := by
  rw [State.endJobAtReset, job]
  simp [attached, uncommitted]

theorem endJobAtReset_of_held {s : State} {l : Link} {j : Job} (job : (s.port l).job = some j)
    (held : j.detached = true ∨ j.committed = true) : s.endJobAtReset l =
      s.setPort l { s.port l with job := some { j with detached := true }, record := .none } := by
  rw [State.endJobAtReset, job]
  simp only [if_pos held]

theorem endJobAtReset_of_none {s : State} {l : Link} (job : (s.port l).job = none) : s.endJobAtReset l =
    s.setPort l { s.port l with record := .none } := by
  rw [State.endJobAtReset, job]

/-- Settles O10: the job's end first, then the port taken down over it. -/
theorem linkResetTakesThePortDown : Obligations.LinkResetTakesThePortDown := by
  unfold Obligations.LinkResetTakesThePortDown
  intro l f s takes operands
  have admits : s.Admits rowLinkReset l := admits_plain (permits_all l)
  have nothing : hasLength 0 f.operands = true := hasLength_of operands
  have stages := takeCall_stages (c := rowLinkReset) (od := false) (own := ownLinkReset l) takes admits nothing rfl
  have port := port_called s l
  dsimp only
  rw [exec_linkReset, stages]
  refine ⟨fun job => ?_, fun j job held => ?_, fun j job attached uncommitted => ?_⟩
  · have none : ((s.called l).port l).job = none := by rw [port]; exact job
    rw [endJobAtReset_of_none none, State.port_setPort, port, State.called, State.setPort_setPort, State.setPort_setPort]
    rfl
  · have runs : ((s.called l).port l).job = some j := by rw [port]; exact job
    rw [endJobAtReset_of_held runs held, State.port_setPort, port, State.called, State.setPort_setPort, State.setPort_setPort]
    rfl
  · have runs : ((s.called l).port l).job = some j := by rw [port]; exact job
    have gone := callAbandons_abandonJob (s := s) (l := l) job
      ({ ((s.called l).abandonJob l).port l with record := j.abandonedRecord } : Port).reset
    rw [endJobAtReset_of_free runs attached uncommitted, State.port_setPort, State.setPort_setPort]
    refine ⟨_, rfl, ?_, gone.others, gone.released, gone.touched⟩
    rw [State.port_setPort, abandonJob_own runs, abandonedRecord_eq uncommitted, port]
    rfl

end Sys2Proof.Machine
end

section
/-! PROOFS. WALL RESET (R80, R138, R180). -/
namespace Sys2Proof.Machine

/-! ### The hangs it abandons -/

theorem hangOf_eq_some {s : State} {l : Link} {h : HangWork} :
    s.hangOf l = some h ↔ ∃ j, (s.port l).job = some j ∧ j.work = .hang h := by
  unfold State.hangOf
  cases (s.port l).job with
  | none => simp
  | some j => cases work : j.work <;> simp [work]

theorem jobReleased_hang_congr {s t : State} {l : Link} {g h : HangWork} (prov : g.prov = h.prov)
    (released : s.JobReleased t l (.hang g)) : s.JobReleased t l (.hang h) := by
  dsimp only [State.JobReleased] at released ⊢
  rwa [prov] at released

/-- What WALL RESET does to one link: the hang it found there at the start, in `s0`, is abandoned in `s`. -/
structure State.HangReset (s0 s t : State) (l : Link) : Prop where
  released : s.HangReleased t l (s0.hangOf l)
  idle : s0.hangOf l = none → t = s
  touched : t = s.withdrawnFrom t
  own : t.port l = (s.port l).ended (t.port l)
  ended : ∀ j h, (s0.port l).job = some j → j.work = .hang h → (t.port l).job = none ∧
    (j.detached = false → (t.port l).record = j.abandonedRecord ∧ (t.port l).hasFlag .jobDone = true) ∧
    (j.detached = true → (t.port l).record = (s.port l).record)
  others : ∀ m, m ≠ l → Port.Queues { s.port m with flags := (t.port m).flags } (t.port m)
  quiet : ∀ m n, n ≠ .poolLow → (n ≠ .jobDone ∨ m ≠ l) → (t.port m).hasFlag n = (s.port m).hasFlag n
  sweeps : (s.orders.filter (fun o => decide (o.orig = .drift ∨ o.orig = .sweepNow))).Sublist t.orders

theorem hangReset_refl {s0 s : State} {l : Link} (none : s0.hangOf l = none) : State.HangReset s0 s s l := {
  released := by rw [none]; exact ⟨rfl, rfl, rfl, rfl, rfl, rfl, rfl, rfl⟩
  idle := fun _ => rfl
  touched := rfl
  own := rfl
  ended := fun j h job work => by
    rw [hangOf_eq_some.mpr ⟨j, job, work⟩] at none
    cases none
  others := fun m _ => .refl _
  quiet := fun m n _ _ => rfl
  sweeps := List.filter_sublist }

/-- The link's port after its hang is abandoned there: an attached one leaves its record and JOB_DONE (R180). -/
def Port.hangReset (p : Port) (j : Job) : Port :=
  if j.detached then p else { p with record := j.abandonedRecord }.raise .jobDone

theorem wallResetHang_of_hang {s0 s : State} {l : Link} {j : Job} {h : HangWork} (n : Nat)
    (job : (s0.port l).job = some j) (work : j.work = .hang h) : wallResetHang s0 (s, n) l =
      ((s.abandonJob l).setPort l (((s.abandonJob l).port l).hangReset j), n + 1) := by
  rw [wallResetHang, job]
  dsimp only
  rw [work]
  dsimp only
  rw [Port.hangReset]
  by_cases detached : j.detached = true
  · rw [if_pos detached, if_pos detached, State.setPort_port]
  · rw [if_neg detached, if_neg detached, State.raise, State.port_setPort, State.setPort_setPort]

theorem wallResetHang_of_none {s0 : State} {l : Link} (none : s0.hangOf l = none) (a : State × Nat) :
    wallResetHang s0 a l = a := by
  unfold State.hangOf at none
  unfold wallResetHang
  cases job : (s0.port l).job with
  | none => rfl
  | some j => cases work : j.work <;> simp_all

theorem hasFlag_hangReset (p : Port) (j : Job) (n : Notice) :
    (p.hangReset j).hasFlag n = (p.hasFlag n || (!j.detached && decide (n = .jobDone))) := by
  rw [Port.hangReset]
  cases j.detached with
  | true => simp
  | false =>
    rw [if_neg (by simp), hasFlag_raise]
    rfl

theorem hangReset_abandon {s0 s : State} {l : Link} {j k : Job} {h g : HangWork} (job : (s0.port l).job = some j)
    (work : j.work = .hang h) (runs : (s.port l).job = some k) (hang : k.work = .hang g) (prov : g.prov = h.prov) :
    State.HangReset s0 s ((s.abandonJob l).setPort l (((s.abandonJob l).port l).hangReset j)) l := by
  have abandoned := workTouched_abandonWork (s.setJob l none) l k.work
  rw [← abandonJob_of_job runs] at abandoned
  have own := abandonJob_own runs
  have hangJ : (((s.abandonJob l).port l).hangReset j).job = none ∧
      (j.detached = false → (((s.abandonJob l).port l).hangReset j).record = j.abandonedRecord) ∧
      (j.detached = true → (((s.abandonJob l).port l).hangReset j).record = (s.port l).record) := by
    rw [own, Port.hangReset]
    cases j.detached <;> simp [Port.raise]
  obtain ⟨gone, recorded, unrecorded⟩ := hangJ
  exact {
    released := by
      rw [hangOf_eq_some.mpr ⟨j, job, work⟩]
      refine jobReleased_hang_congr prov ?_
      rw [← hang, abandonJob_of_job runs]
      exact (jobReleased_abandonWork (s.setJob l none) l k.work).of_setPort
    idle := fun none => by
      rw [hangOf_eq_some.mpr ⟨j, job, work⟩] at none
      cases none
    touched := by
      have touched := abandonJob_withdrawnFrom runs
      rw [touched]
      cases l <;> rfl
    own := by
      rw [State.port_setPort, own, Port.hangReset]
      cases j.detached <;> rfl
    ended := fun j' h' job' work' => by
      obtain rfl := Option.some.inj (job.symm.trans job')
      rw [State.port_setPort]
      refine ⟨gone, fun attached => ⟨recorded attached, ?_⟩, unrecorded⟩
      rw [hasFlag_hangReset, attached]
      simp
    others := fun m other => by
      rw [State.port_setPort_of_ne _ _ _ _ other]
      exact abandonJob_other runs other
    quiet := fun m n low done => by
      have same := abandoned.quiet m n low
      by_cases at_l : m = l
      · subst at_l
        rw [State.port_setPort, hasFlag_hangReset, same, State.setJob, State.port_setPort]
        have other : n ≠ .jobDone := done.resolve_right (fun h => h rfl)
        simp [other]
        rfl
      · rw [State.port_setPort_of_ne _ _ _ _ at_l, same, State.setJob, State.port_setPort_of_ne _ _ _ _ at_l]
    sweeps := by
      have sweeps := abandoned.sweeps
      rw [State.setPort_orders]
      rwa [State.setJob, State.setPort_orders] at sweeps }

/-- The hang that WALL RESET found is still there when its turn comes. -/
def State.StillHangs (s0 s : State) (l : Link) : Prop :=
  ∀ j h, (s0.port l).job = some j → j.work = .hang h →
    ∃ k g, (s.port l).job = some k ∧ k.work = .hang g ∧ g.prov = h.prov

theorem hangReset_wallResetHang {s0 s : State} {l : Link} (n : Nat) (still : State.StillHangs s0 s l) :
    State.HangReset s0 s (wallResetHang s0 (s, n) l).1 l := by
  cases hang : s0.hangOf l with
  | none =>
    rw [wallResetHang_of_none hang]
    exact hangReset_refl hang
  | some h =>
    obtain ⟨j, job, work⟩ := hangOf_eq_some.mp hang
    obtain ⟨k, g, runs, hangs, prov⟩ := still j h job work
    rw [wallResetHang_of_hang n job work]
    exact hangReset_abandon job work runs hangs prov

theorem wallResetHang_count (s0 s : State) (l : Link) (n : Nat) :
    (wallResetHang s0 (s, n) l).2 = n + if (s0.hangOf l).isSome then 1 else 0 := by
  cases hang : s0.hangOf l with
  | none => rw [wallResetHang_of_none hang]; rfl
  | some h =>
    obtain ⟨j, job, work⟩ := hangOf_eq_some.mp hang
    rw [wallResetHang_of_hang n job work]
    rfl

/-- A port without a hang keeps its job. -/
theorem Port.Queues.job_of_no_hang {p q : Port} (h : p.Queues q) (none : ∀ j k, p.job = some j → j.work ≠ .hang k) :
    q.job = p.job := by
  obtain same | ⟨j, k, g, job, work, -, -⟩ := h.job
  · exact same
  · exact absurd work (none j k job)

theorem Port.Queues.stillHangs {p q : Port} (h : p.Queues q) {j : Job} {g : HangWork} (job : p.job = some j)
    (work : j.work = .hang g) : ∃ k x, q.job = some k ∧ k.work = .hang x ∧ x.prov = g.prov := by
  obtain same | ⟨j', k, x, job', work', ran, prov⟩ := h.job
  · exact ⟨j, g, same.trans job, work, rfl⟩
  · obtain rfl := Option.some.inj (job'.symm.trans job)
    obtain rfl := JobWork.hang.inj (work'.symm.trans work)
    exact ⟨_, x, ran, rfl, prov⟩

/-! ### The two hangs, then the plane -/

theorem State.HangReset.stillHangs {s0 s t : State} {l m : Link} (h : State.HangReset s0 s t l) (other : m ≠ l)
    (same : s.port m = s0.port m) : State.StillHangs s0 t m := by
  intro j g job work
  rw [← same] at job
  exact (h.others m other).stillHangs (p := { s.port m with flags := (t.port m).flags }) job work

/-- Both hangs abandoned in turn (R180). -/
theorem hangReset_both (s : State) : ∃ u v : State, State.HangReset s s u .dl ∧ State.HangReset s u v .sl ∧
    ownWallReset s = .accept .ok
      [wordOfNat ([Link.dl, Link.sl].filter (fun l => (s.hangOf l).isSome)).length] v.resetPlane := by
  have first := hangReset_wallResetHang (s0 := s) (s := s) (l := .dl) 0 (fun j h job work => ⟨j, h, job, work, rfl⟩)
  have second := hangReset_wallResetHang (wallResetHang s (s, 0) .dl).2 (first.stillHangs (m := .sl) nofun rfl)
  refine ⟨_, _, first, second, ?_⟩
  have count : ([Link.dl, Link.sl].foldl (wallResetHang s) (s, 0)).2 =
      ([Link.dl, Link.sl].filter (fun l => (s.hangOf l).isSome)).length := by
    rw [List.foldl_cons, List.foldl_cons, List.foldl_nil, wallResetHang_count, wallResetHang_count]
    cases dl : s.hangOf .dl <;> cases sl : s.hangOf .sl <;> simp [dl, sl]
  rw [ownWallReset, count]
  rfl

theorem State.HangReleased.of_setPort {s t : State} {l : Link} {p : Port} {h : Option HangWork}
    (released : (s.setPort l p).HangReleased t l h) : s.HangReleased t l h := by
  cases h with
  | none => cases l <;> exact released
  | some h =>
    have own := State.JobReleased.of_setPort (q := t.port l) (w := .hang h) released
    rwa [State.setPort_port] at own

theorem job_of_no_hang {s t : State} {m : Link} (none : s.hangOf m = none)
    (queues : Port.Queues { s.port m with flags := (t.port m).flags } (t.port m)) : (t.port m).job = (s.port m).job := by
  refine queues.job_of_no_hang (fun j k job work => ?_)
  rw [hangOf_eq_some.mpr ⟨j, job, work⟩] at none
  cases none

/-- What both hangs' ends leave of the ports, the queue and the rest. -/
structure State.WallAbandoned (s v : State) : Prop where
  ended : ∀ l, l ≠ .pl → ∀ j h, (s.port l).job = some j → j.work = .hang h → (v.port l).job = none ∧
    (j.detached = false → (v.port l).record = j.abandonedRecord ∧ (v.port l).hasFlag .jobDone = true) ∧
    (j.detached = true → (v.port l).record = (s.port l).record)
  others : ∀ l, s.hangOf l = none → (v.port l).job = (s.port l).job ∧ (v.port l).record = (s.port l).record ∧
    (v.port l).hasFlag .jobDone = (s.port l).hasFlag .jobDone
  quiet : ∀ l n, n ≠ .jobDone → n ≠ .poolLow → (v.port l).hasFlag n = (s.port l).hasFlag n
  dl : v.dl = s.dl.ended v.dl
  sl : v.sl = s.sl.ended v.sl
  pl : v.pl = s.pl.marked v.pl
  idle : s.hangOf .dl = none → s.hangOf .sl = none → v = s
  touched : v = s.withdrawnFrom v
  sweeps : (s.orders.filter (fun o => decide (o.orig = .drift ∨ o.orig = .sweepNow))).Sublist v.orders

/-- A port without a hang to abandon keeps its record through the end of another link's hang. -/
theorem State.HangReset.record {s0 s t : State} {l m : Link} (h : State.HangReset s0 s t l) (other : m ≠ l) :
    (t.port m).record = (s.port m).record := by
  rw [(h.others m other).touched]

theorem State.HangReset.marked {s0 s t : State} {l m : Link} (h : State.HangReset s0 s t l) (other : m ≠ l) :
    t.port m = (s.port m).marked (t.port m) := (h.others m other).touched

theorem wallAbandoned_of_both {s u v : State} (first : State.HangReset s s u .dl) (second : State.HangReset s u v .sl) :
    s.WallAbandoned v := by
  have pl : v.pl = s.pl.marked v.pl := by
    have at_u : u.pl = s.pl.marked u.pl := first.marked (m := .pl) nofun
    have at_v : v.pl = u.pl.marked v.pl := second.marked (m := .pl) nofun
    rw [at_v, at_u]
    rfl
  have dl : v.dl = s.dl.ended v.dl := by
    have at_u : u.dl = s.dl.ended u.dl := first.own
    have at_v : v.dl = u.dl.marked v.dl := second.marked (m := .dl) nofun
    rw [at_v, at_u]
    rfl
  have sl : v.sl = s.sl.ended v.sl := by
    have at_u : u.sl = s.sl.marked u.sl := first.marked (m := .sl) nofun
    have at_v : v.sl = u.sl.ended v.sl := second.own
    rw [at_v, at_u]
    rfl
  have sl_at_u : (u.port .sl).record = (s.port .sl).record := first.record nofun
  exact {
    ended := fun l off_pl j h job work => by
      cases l with
      | pl => exact absurd rfl off_pl
      | sl =>
        obtain ⟨gone, attached, detached⟩ := second.ended j h job work
        exact ⟨gone, attached, fun d => (detached d).trans sl_at_u⟩
      | dl =>
        obtain ⟨gone, attached, detached⟩ := first.ended j h job work
        have record : (v.port .dl).record = (u.port .dl).record := second.record nofun
        have done : (v.port .dl).hasFlag .jobDone = (u.port .dl).hasFlag .jobDone :=
          second.quiet .dl .jobDone nofun (.inr nofun)
        have job_at_v : (v.port .dl).job = (u.port .dl).job :=
          (second.others .dl nofun).job_of_no_hang (fun k x runs => by
            have runs : (u.port .dl).job = some k := runs
            rw [gone] at runs
            cases runs)
        rw [record, done, job_at_v]
        exact ⟨gone, attached, detached⟩
    others := fun l none => by
      cases l with
      | pl =>
        have at_u := job_of_no_hang none (first.others .pl nofun)
        have none_u : u.hangOf .pl = Option.none := by rw [State.hangOf, at_u]; exact none
        refine ⟨(job_of_no_hang none_u (second.others .pl nofun)).trans at_u,
          (second.record (m := .pl) nofun).trans (first.record nofun),
          (second.quiet .pl .jobDone nofun (.inr nofun)).trans (first.quiet .pl .jobDone nofun (.inr nofun))⟩
      | dl =>
        have same := first.idle none
        subst same
        exact ⟨job_of_no_hang none (second.others .dl nofun), second.record nofun,
          second.quiet .dl .jobDone nofun (.inr nofun)⟩
      | sl =>
        have same := second.idle none
        subst same
        exact ⟨job_of_no_hang none (first.others .sl nofun), first.record nofun,
          first.quiet .sl .jobDone nofun (.inr nofun)⟩
    quiet := fun l n done low => (second.quiet l n low (.inl done)).trans (first.quiet l n low (.inl done))
    dl := dl
    sl := sl
    pl := pl
    idle := fun at_dl at_sl => (second.idle at_sl).trans (first.idle at_dl)
    touched := by
      rw [second.touched, first.touched]
      rfl
    sweeps := by
      have at_u := first.sweeps
      have kept := second.sweeps
      refine List.Sublist.trans ?_ kept
      have twice := List.Sublist.filter (fun o : Order => decide (o.orig = .drift ∨ o.orig = .sweepNow)) at_u
      rwa [List.filter_filter, show (fun o : Order => decide (o.orig = .drift ∨ o.orig = .sweepNow) &&
        decide (o.orig = .drift ∨ o.orig = .sweepNow)) = fun o => decide (o.orig = .drift ∨ o.orig = .sweepNow) from
        funext fun o => Bool.and_self _] at twice }

theorem exec_wallReset (l : Link) (f : Frame) (s : State) : exec (.wallReset l f) s =
    .next (takeCall (deskRow 0x001C) false (hasLength 0) ownWallReset l f s) := rfl

/-- The state after WALL RESET, over the state `v` after both hangs have ended. -/
theorem resetPlane_reply (v : State) (ws : List Word) : v.resetPlane.reply .dl .ok ws =
    { v with
      positions := List.replicate (v.settings.columns * v.settings.rows) .atRest
      dirty := [], cursor := 0, history := [], changes := [], postWaiters := [], tiles := [], lastSkipped := 0
      global := .resetWith v.settings.white, epoch := 0, digest := .reset
      pl := v.pl.raise .epochReady, dl := v.dl.stage .ok ws } := rfl

theorem hasFlag_called (s : State) (l m : Link) (n : Notice) :
    ((s.called l).port m).hasFlag n = (s.port m).hasFlag n := by
  by_cases same : m = l
  · subst same
    rw [port_called]
    rfl
  · rw [State.called, State.port_setPort_of_ne _ _ _ _ same]

theorem job_called (s : State) (l m : Link) : ((s.called l).port m).job = (s.port m).job := by
  by_cases same : m = l
  · subst same
    rw [port_called]
    rfl
  · rw [State.called, State.port_setPort_of_ne _ _ _ _ same]

theorem record_called (s : State) (l m : Link) : ((s.called l).port m).record = (s.port m).record := by
  by_cases same : m = l
  · subst same
    rw [port_called]
    rfl
  · rw [State.called, State.port_setPort_of_ne _ _ _ _ same]

/-- The plane reset and the reply leave the ports' jobs and records alone, and raise EPOCH_READY only. -/
theorem port_resetPlane_reply (v : State) (ws : List Word) (l : Link) :
    ((v.resetPlane.reply .dl .ok ws).port l).job = (v.port l).job ∧
    ((v.resetPlane.reply .dl .ok ws).port l).record = (v.port l).record ∧
    ∀ n, ((v.resetPlane.reply .dl .ok ws).port l).hasFlag n =
      ((v.port l).hasFlag n || decide (n = .epochReady ∧ l = .pl)) := by
  rw [resetPlane_reply]
  cases l with
  | dl => exact ⟨rfl, rfl, fun n => by simp; rfl⟩
  | sl => exact ⟨rfl, rfl, fun n => by simp; rfl⟩
  | pl =>
    refine ⟨rfl, rfl, fun n => ?_⟩
    have raised : (v.pl.raise .epochReady).hasFlag n = (v.pl.hasFlag n || decide (n = .epochReady)) := hasFlag_raise _ _ _
    simp only [and_true]
    exact raised

/-- Settles O23: the two hangs end in turn (`hangReset_both`), and then the plane is put at rest. -/
theorem wallResetResetsThePlane : Obligations.WallResetResetsThePlane := by
  unfold Obligations.WallResetResetsThePlane
  intro f s takes operands
  obtain ⟨u, v, first, second, answer⟩ := hangReset_both (s.called .dl)
  have gone := wallAbandoned_of_both first second
  have accepts := takeCall_accepts (c := deskRow 0x1C) (od := false) takes (admits_plain rfl)
    (show hasLength 0 f.operands = true from hasLength_of operands) answer
  simp only [called_hangOf] at accepts
  have released := first.released
  have released' := second.released
  have touched_u := first.touched
  have idle := gone.idle
  have ended := gone.ended
  have others := gone.others
  have touched := gone.touched
  rw [called_hangOf] at released released' idle
  rw [called_hangOf] at idle
  simp only [called_hangOf, job_called, record_called, hasFlag_called] at ended others
  have settings : v.settings = s.settings := by rw [touched]; rfl
  have ports := port_resetPlane_reply v
    [wordOfNat ([Link.dl, Link.sl].filter (fun l => (s.hangOf l).isSome)).length]
  have flags (l : Link) (n : Notice) (done : n ≠ .jobDone) (low : n ≠ .poolLow) :
      (v.port l).hasFlag n = (s.port l).hasFlag n := by
    rw [gone.quiet l n done low, hasFlag_called]
  have pl := (ports .pl).2.2
  refine ⟨v.resetPlane.reply .dl .ok [wordOfNat ([Link.dl, Link.sl].filter (fun l => (s.hangOf l).isSome)).length],
    by rw [exec_wallReset, accepts], rfl, ?_, rfl, rfl, rfl, rfl, rfl, rfl, rfl, rfl, ?_, rfl, rfl, rfl, rfl, rfl,
    rfl, rfl, rfl, (pl _).trans (by simp), (pl _).trans ?_, ?_, ?_, ?_,
    ⟨u, v, released.of_setPort, released', ?_, ?_, rfl, rfl, rfl, rfl, rfl, rfl, rfl, rfl⟩,
    ?_, ?_, ?_, ?_, ?_, ?_⟩
  · rw [← settings]
    rfl
  · rw [← settings]
    refine (globalTargetOf_eq v.settings.white .reset).trans ?_
    simp [Intent.reset]
  · rw [flags .pl .digestMissed nofun nofun]
    exact Bool.or_false _
  · intro l off_pl j h job work
    obtain ⟨job', record, flag⟩ := ports l
    rw [job', record, flag]
    obtain ⟨none, attached, detached⟩ := ended l off_pl j h job work
    refine ⟨none, fun a => ⟨(attached a).1, ?_⟩, detached⟩
    rw [(attached a).2]
    rfl
  · intro l none
    obtain ⟨job', record, flag⟩ := ports l
    rw [job', record, flag]
    obtain ⟨job'', record'', flag''⟩ := others l none
    refine ⟨job'', fun _ => record'', ?_⟩
    rw [flag'']
    exact Bool.or_false _
  · intro l n done low epoch
    rw [(ports l).2.2, flags l n done low, decide_eq_false (fun both => epoch.elim (fun h => h both.1) (fun h => h both.2)),
      Bool.or_false]
  · rw [touched_u]; rfl
  · rw [touched_u]; rfl
  · intro at_dl at_sl
    rw [idle at_dl at_sl]
    exact ⟨rfl, rfl, rfl, rfl, rfl, rfl, rfl⟩
  · exact gone.sweeps
  · have answered := reply_answered s .dl .ok
      [wordOfNat ([Link.dl, Link.sl].filter (fun l => (s.hangOf l).isSome)).length] (open_of_takes takes)
    have dl := gone.dl
    rw [← answered]
    change v.dl.stage _ _ = (((s.called .dl).dl.stage _ _).ended (v.dl.stage _ _))
    rw [dl]
    rfl
  · exact gone.sl
  · have pl := gone.pl
    change v.pl.raise .epochReady = s.pl.marked (v.pl.raise .epochReady)
    rw [pl]
    rfl
  · rw [resetPlane_reply, touched]
    rfl

end Sys2Proof.Machine
end

section
/-! PROOFS. SET ROUTE (R30, R31). -/
namespace Sys2Proof.Machine

/-! ### Routes (R30) -/

theorem Direction.dx_eq (d : Direction) : d.dx = if d = .right then 1 else if d = .left then -1 else 0 := by
  cases d <;> rfl

theorem Direction.dy_eq (d : Direction) : d.dy = if d = .down then 1 else if d = .up then -1 else 0 := by
  cases d <;> rfl

theorem Route.along_eq (r : Route) (i : Nat) : r.along i =
    (let q := i / r.runLength
     let k := i - q * r.runLength
     if r.style = .return ∨ q % 2 = 0 then k else r.runLength - 1 - k) := by
  have rest : i - i / r.runLength * r.runLength = i % r.runLength := by
    rw [Nat.mod_eq_sub_div_mul]
  simp only [Route.along, rest]
  cases r.style <;> simp

/-- One of two directions is horizontal and the other vertical. -/
theorem Direction.perpendicular_iff (a b : Direction) : a.perpendicular b = true ↔ (a.dx = 0 ↔ b.dx ≠ 0) := by
  cases a <;> cases b <;> decide

theorem Route.ok_iff (r : Route) (columns rows : Nat) : r.ok columns rows = true ↔
    r.startCol < columns ∧ r.startRow < rows ∧ (r.first.dx = 0 ↔ r.advance.dx ≠ 0) ∧ 1 ≤ r.runLength ∧ r.runLength ≤ 32 ∧
      r.expected ≤ 128 ∧ ∀ i, i < r.expected → r.position columns rows i ≠ none := by
  have inside : r.inside columns rows = true ↔ ∀ i, i < r.expected → r.position columns rows i ≠ none := by
    rw [Route.inside, List.all_eq_true]
    simp only [List.mem_range, Option.isSome_iff_ne_none]
  simp only [Route.ok, Bool.and_eq_true, decide_eq_true_eq, Direction.perpendicular_iff, inside, and_assoc]

/-! ### SET ROUTE (R31) -/

theorem exec_setRoute (l : Link) (f : Frame) (s : State) : exec (.setRoute l f) s =
    .next (takeCall (surveyRow 0x0026 false true) false (hasLength 9) (ownSetRoute f.operands) l f s) := rfl

theorem Direction.ofWord_word (d : Direction) : Direction.ofWord d.word = some d := by cases d <;> rfl

theorem TurnStyle.ofWord_word (t : TurnStyle) : TurnStyle.ofWord (if t = .serpentine then 0 else 1) = some t := by
  cases t <;> rfl

theorem Direction.ofWord_eq_none {w : Word} (beyond : 3 < w.toNat) : Direction.ofWord w = none := by
  unfold Direction.ofWord
  split
  · omega
  · omega
  · omega
  · omega
  · rfl

theorem TurnStyle.ofWord_eq_none {w : Word} (beyond : 1 < w.toNat) : TurnStyle.ofWord w = none := by
  obtain ⟨h0, h1⟩ := ne_zero_one_of_lt beyond
  rw [TurnStyle.ofWord, if_neg h0, if_neg h1]

theorem routeConflicts_eq (s : State) (b : Nat) (r : Route) : s.routeConflicts b r =
    [0, 1, 2, 3].filter (fun c => decide (c ≠ b) &&
      (((s.settings.routes.getD c none).map (fun q => share (s.routePositions r) (s.routePositions q))).getD false)) := by
  unfold State.routeConflicts State.route
  refine List.filter_congr (fun c _ => ?_)
  cases s.settings.routes.getD c none <;> rfl

/-- A route that is parsed, judged (R31). -/
theorem ownSetRoute_of_parse {ws : List Word} {b : Nat} {r : Route} (parsed : parseRoute ws = some (b, some r)) (s : State) :
    ownSetRoute ws s =
      if 3 < b ∨ r.ok s.settings.columns s.settings.rows = false then .refuse .badValue []
      else if s.routeConflicts b r ≠ [] then .refuse .routeConflict [setWord (s.routeConflicts b r)]
      else .accept .ok (optWords (s.routePositions r).getLast?) (s.setRoute b (some r)) := by
  unfold ownSetRoute
  rw [parsed]
  dsimp only
  refine ite_congr_iff Iff.rfl rfl ?_
  cases s.routeConflicts b r <;> simp

/-- The words of SET ROUTE. -/
theorem parseRoute_eq (b p sc sr d a len st n : Word) : parseRoute [b, p, sc, sr, d, a, len, st, n] =
    if 1 < p.toNat then none
    else if p = 0 then some (b.toNat, none)
    else match (generalizing := false) Direction.ofWord d, Direction.ofWord a, TurnStyle.ofWord st with
      | some first, some advance, some style =>
        some (b.toNat, some ⟨sc.toNat, sr.toNat, first, advance, len.toNat, style, n.toNat⟩)
      | _, _, _ => none := by
  rw [parseRoute, presenceOf_eq]
  by_cases beyond : 1 < p.toNat
  · rw [if_pos beyond, if_pos beyond]
  · rw [if_neg beyond, if_neg beyond]
    by_cases zero : p = 0
    · subst zero
      rfl
    · have one : p = 1 := by
        have := mt (BitVec.eq_of_toNat_eq (y := (0 : Word))) zero
        apply BitVec.eq_of_toNat_eq
        simp at this beyond ⊢
        omega
      subst one
      rfl

theorem route_position_eq (r : Route) (columns rows i : Nat) :
    let dx (d : Direction) : Int := if d = .right then 1 else if d = .left then -1 else 0
    let dy (d : Direction) : Int := if d = .down then 1 else if d = .up then -1 else 0
    let q : Nat := i / r.runLength
    let k : Nat := i - q * r.runLength
    let along : Nat := if r.style = .return ∨ q % 2 = 0 then k else r.runLength - 1 - k
    let col : Int := r.startCol + q * dx r.advance + along * dx r.first
    let row : Int := r.startRow + q * dy r.advance + along * dy r.first
    r.position columns rows i =
      if 0 ≤ col ∧ col < columns ∧ 0 ≤ row ∧ row < rows then some (row.toNat * columns + col.toNat) else none := by
  simp only [Route.position, Route.place, Route.along_eq, Direction.dx_eq, Direction.dy_eq]

/-- Settles O31: the route's fields are judged first, then the routes of the other branches. -/
theorem setRouteReplacesTheRoute : Obligations.SetRouteReplacesTheRoute := by
  unfold Obligations.SetRouteReplacesTheRoute
  constructor
  · intro r columns rows
    refine ⟨route_position_eq r columns rows, rfl, ?_⟩
    simp only [Route.ok_iff, Direction.dx_eq]
  · intro f b p sc sr d a len st n s takes unlocked operands
    have admits : s.Admits (surveyRow 0x0026 false true) .sl := admits_unlocked rfl unlocked
    have nine : hasLength 9 f.operands = true := hasLength_of operands
    have declines (bad : parseRoute [b, p, sc, sr, d, a, len, st, n] = none) :
        exec (.setRoute .sl f) s = .next (s.declined .sl .badValue []) := by
      rw [exec_setRoute, operands]
      refine congrArg Host.Outcome.next (takeCall_declines takes admits nine ?_)
      rw [ownSetRoute, bad]
    have parsed := parseRoute_eq b p sc sr d a len st n
    refine ⟨fun beyond => declines (by rw [parsed, if_pos beyond]), fun clear => ?_, fun present bad => declines ?_,
      fun first advance style present at_d at_a at_st => ?_⟩
    · subst clear
      have parsed : parseRoute [b, 0, sc, sr, d, a, len, st, n] = some (b.toNat, Option.none) := parsed
      rw [exec_setRoute, operands]
      split
      · next beyond =>
        refine congrArg Host.Outcome.next (takeCall_declines takes admits nine ?_)
        rw [ownSetRoute, parsed]
        exact if_pos beyond
      · next below =>
        refine congrArg Host.Outcome.next (takeCall_changes (fun u => { u with
          settings := { s.settings with routes := s.settings.routes.set b.toNat Option.none } }) (fun _ => rfl) takes admits
          nine ?_)
        rw [ownSetRoute, parsed]
        refine (if_neg below).trans ?_
        rw [State.setRoute, updateAt_const]
        rfl
    · subst present
      rw [parsed, if_neg (by decide), if_neg (by decide)]
      rcases bad with bad | bad | bad
      · rw [Direction.ofWord_eq_none bad]
      · rw [Direction.ofWord_eq_none bad]
        cases Direction.ofWord d <;> rfl
      · rw [TurnStyle.ofWord_eq_none bad]
        cases Direction.ofWord d <;> cases Direction.ofWord a <;> rfl
    · subst present at_d at_a at_st
      intro r mine
      have parsed : parseRoute [b, 1, sc, sr, first.word, advance.word, len,
          if style = TurnStyle.serpentine then 0 else 1, n] = some (b.toNat, some r) := by
        rw [parsed, if_neg (by decide), if_neg (by decide), Direction.ofWord_word, Direction.ofWord_word,
          TurnStyle.ofWord_word]
      have own : ownSetRoute [b, 1, sc, sr, first.word, advance.word, len,
          if style = TurnStyle.serpentine then 0 else 1, n] (s.called .sl) =
          if 3 < b.toNat ∨ r.ok s.settings.columns s.settings.rows = false then .refuse .badValue []
          else if s.routeConflicts b.toNat r ≠ [] then .refuse .routeConflict [setWord (s.routeConflicts b.toNat r)]
          else .accept .ok (optWords (s.routePositions r).getLast?) ((s.called .sl).setRoute b.toNat (some r)) :=
        ownSetRoute_of_parse parsed (s.called .sl)
      have met := routeConflicts_eq s b.toNat r
      rw [exec_setRoute, operands]
      dsimp only
      rw [← met]
      by_cases bad : 3 < b.toNat ∨ r.ok s.settings.columns s.settings.rows = false
      · rw [if_pos bad] at own ⊢
        exact congrArg Host.Outcome.next (takeCall_declines takes admits nine own)
      rw [if_neg bad] at own ⊢
      by_cases meets : s.routeConflicts b.toNat r ≠ []
      · rw [if_pos meets] at own ⊢
        exact congrArg Host.Outcome.next (takeCall_declines takes admits nine own)
      rw [if_neg meets] at own ⊢
      refine congrArg Host.Outcome.next (takeCall_changes (fun u => { u with
        settings := { s.settings with routes := s.settings.routes.set b.toNat (some r) } }) (fun _ => rfl) takes admits
        nine ?_)
      rw [own, State.setRoute, updateAt_const]
      rfl

end Sys2Proof.Machine
end

section
/-! PROOFS. The link wire: idle gaps, and the words that the clock moves in and out (R165, R169, R171). -/
namespace Sys2Proof.Machine

theorem wireBits_eq (o : BitOrder) (w : Word) :
    wireBits o w = (List.range 16).map (fun k => w.getLsbD (if o = .msbFirst then 15 - k else k)) := by
  cases o <;> rfl

theorem wireWord_false (o : BitOrder) : wireWord o (List.replicate 16 false) = 0 := by
  cases o <;> decide

/-! ### The clock -/

/-- Once its sixteen bits are in, a word is taken by the receiver, and one goes out. -/
theorem clock_word (bits more : List Bool) (p : Port) (open_ : p.wordBits.length < 16)
    (whole : p.wordBits.length + bits.length = 16) : Port.clock (bits ++ more) p =
      (let w := wireWord p.terms.order (p.wordBits ++ bits)
       let q := { p with wordBits := [] }
       if q.receiver.endsAt q.terms.check w then q
       else Port.clock more { q with receiver := q.receiver.feed q.terms.check w }.wordOut) := by
  induction bits generalizing p with
  | nil => simp at whole; omega
  | cons b bits ih =>
    rw [List.length_cons] at whole
    rw [List.cons_append, Port.clock]
    by_cases last : p.wordBits.length < 15
    · rw [if_pos last, ih _ (by simp; omega) (by simp; omega)]
      simp
    · have none_left : bits = [] := List.eq_nil_of_length_eq_zero (by omega)
      subst none_left
      rw [if_neg last]
      rfl

theorem wordOut_receiver (p : Port) : p.wordOut.receiver = p.receiver := by
  unfold Port.wordOut
  split
  · rfl
  · split <;> rfl

theorem wordOut_of_none {p : Port} (empty : p.slot = none) : p.wordOut = p := by
  rw [Port.wordOut, empty]

theorem wordOut_of_more {p : Port} {r : Reply} (staged : p.slot = some r) (more : r.clocked + 1 < r.frame.length) :
    p.wordOut = { p with slot := some { r with clocked := r.clocked + 1 } } := by
  rw [Port.wordOut, staged]
  exact if_pos more

theorem wordOut_of_last {p : Port} {r : Reply} (staged : p.slot = some r) (last : r.clocked + 1 = r.frame.length) :
    p.wordOut = p.clockedOut := by
  rw [Port.wordOut, staged]
  exact if_neg (by omega)

theorem frame_clocked (r : Reply) (n : Nat) : Reply.frame { r with clocked := n } = r.frame := rfl

/-- The port when `k` words have moved out. -/
def Port.wordsOut : Nat → Port → Port
  | 0, p => p
  | k + 1, p => Port.wordsOut k p.wordOut

theorem wordsOut_succ (k : Nat) (p : Port) : Port.wordsOut (k + 1) p = (Port.wordsOut k p).wordOut := by
  induction k generalizing p with
  | zero => rfl
  | succ k ih => exact ih p.wordOut

theorem wordsOut_of_more (k : Nat) {p : Port} {r : Reply} (staged : p.slot = some r) (more : r.clocked + k < r.frame.length) :
    Port.wordsOut k p = { p with slot := some { r with clocked := r.clocked + k } } := by
  induction k with
  | zero => rw [Port.wordsOut, Nat.add_zero, ← staged]
  | succ k ih =>
    rw [wordsOut_succ, ih (by omega)]
    refine (wordOut_of_more (r := { r with clocked := r.clocked + k }) rfl ?_).trans ?_
    · rw [frame_clocked]
      exact more
    · rfl

theorem wordsOut_of_last (k : Nat) {p : Port} {r : Reply} (staged : p.slot = some r) (begun : r.clocked < r.frame.length)
    (last : r.clocked + k = r.frame.length) : Port.wordsOut k p = p.clockedOut := by
  cases k with
  | zero => omega
  | succ k =>
    rw [wordsOut_succ, wordsOut_of_more k staged (by omega)]
    exact (wordOut_of_last (r := { r with clocked := r.clocked + k }) rfl (by rw [frame_clocked]; exact last)).trans rfl

/-- Words that end no frame and leave the receiver where it was only move the reply's words out. -/
theorem clock_silent (k : Nat) (bits : List Bool) (p : Port) (incomplete : p.wordBits.length < 16)
    (silent : p.receiver = .betweenFrames ∧ p.wordBits ++ bits = List.replicate (16 * k) false ∨
      p.receiver = .discarding ∧ (p.wordBits ++ bits).length = 16 * k) :
    Port.clock bits p = Port.wordsOut k { p with wordBits := [] } := by
  have whole : (p.wordBits ++ bits).length = 16 * k := by
    rcases silent with ⟨-, zeros⟩ | ⟨-, whole⟩
    · rw [zeros, List.length_replicate]
    · exact whole
  induction k generalizing bits p with
  | zero =>
    obtain ⟨no_bits, no_more⟩ := List.append_eq_nil_iff.mp (List.eq_nil_of_length_eq_zero whole)
    rw [no_more, Port.clock, Port.wordsOut, ← no_bits]
  | succ k ih =>
    rw [List.length_append] at whole
    have enough : 16 - p.wordBits.length ≤ bits.length := by omega
    obtain ⟨first, rest, cut, taken⟩ : ∃ first rest, bits = first ++ rest ∧ p.wordBits.length + first.length = 16 :=
      ⟨bits.take (16 - p.wordBits.length), bits.drop (16 - p.wordBits.length), (List.take_append_drop _ _).symm, by
        rw [List.length_take_of_le enough]
        omega⟩
    subst cut
    rw [List.length_append] at whole
    have left : rest.length = 16 * k := by omega
    rw [clock_word first rest p incomplete taken, Port.wordsOut]
    have quiet : p.receiver.endsAt p.terms.check (wireWord p.terms.order (p.wordBits ++ first)) = false ∧
        p.receiver.feed p.terms.check (wireWord p.terms.order (p.wordBits ++ first)) = p.receiver ∧
        (p.receiver = .betweenFrames ∧ rest = List.replicate (16 * k) false ∨
          p.receiver = .discarding ∧ rest.length = 16 * k) := by
      rcases silent with ⟨between, zeros⟩ | ⟨discards, -⟩
      · have split : (p.wordBits ++ first) ++ rest = List.replicate 16 false ++ List.replicate (16 * k) false := by
          rw [List.append_assoc, zeros, List.replicate_append_replicate]
          congr 1
          omega
        obtain ⟨word, zero⟩ := List.append_inj split (by rw [List.length_append, List.length_replicate, taken])
        rw [between, word, wireWord_false]
        exact ⟨rfl, rfl, .inl ⟨rfl, zero⟩⟩
      · rw [discards]
        exact ⟨rfl, rfl, .inr ⟨rfl, left⟩⟩
    obtain ⟨goes_on, stays, still⟩ := quiet
    dsimp only
    rw [goes_on, stays, if_neg (by simp)]
    have receiver := wordOut_receiver { p with wordBits := [] }
    have bits := wordOut_wordBits { p with wordBits := [] }
    have after := ih rest (Port.wordOut { p with wordBits := [] }) (by rw [bits]; simp)
      (by rw [receiver, bits]; exact still) (by rw [bits]; exact left)
    refine after.trans (congrArg _ ?_)
    conv => rhs; rw [show Port.wordOut { p with wordBits := [] } =
      { Port.wordOut { p with wordBits := [] } with wordBits := (Port.wordOut { p with wordBits := [] }).wordBits } from rfl,
      bits]

/-- The last word of a run of edges, in a port with nothing to send. -/
theorem clock_last_word {bits : List Bool} {p : Port} {w : Word} (empty : p.slot = none) (incomplete : p.wordBits.length < 16)
    (word : p.wordBits ++ bits = wireBits p.terms.order w) (goes_on : p.receiver.endsAt p.terms.check w = false) :
    Port.clock bits p = { p with wordBits := [], receiver := p.receiver.feed p.terms.check w } := by
  have whole : p.wordBits.length + bits.length = 16 := by
    rw [← List.length_append, word, wireBits, List.length_map, List.length_range]
  have taken := clock_word bits [] p incomplete whole
  rw [List.append_nil] at taken
  rw [taken, word, wireWord_wireBits]
  dsimp only
  rw [goes_on, if_neg (by simp), Port.clock]
  exact wordOut_of_none (p := { p with wordBits := [], receiver := p.receiver.feed p.terms.check w }) empty

/-! ### A frame cut short by an idle gap -/

theorem foldl_feed_discarding (c : CheckSetting) (ws : List Word) : ws.foldl (Receiver.feed c) .discarding = .discarding := by
  induction ws with
  | nil => rfl
  | cons w ws ih => exact ih

theorem foldl_feed_zeros (c : CheckSetting) (k : Nat) :
    (List.replicate k (0 : Word)).foldl (Receiver.feed c) .betweenFrames = .betweenFrames := by
  induction k with
  | zero => rfl
  | succ k ih => exact ih

theorem foldl_feed_inFrame (c : CheckSetting) (ws : List Word) (n e : Nat) (short : n + ws.length < e) :
    ws.foldl (Receiver.feed c) (.inFrame n (some e)) = .inFrame (n + ws.length) (some e) := by
  induction ws generalizing n with
  | nil => rfl
  | cons w ws ih =>
    rw [List.length_cons] at short
    rw [List.foldl_cons, Receiver.feed, if_neg (by omega), ih _ (by omega), List.length_cons, Nat.add_assoc,
      Nat.add_comm 1]

theorem feed_count (c : CheckSetting) {w : Word} (fits : w.toNat ≤ 320) (more : 0 < w.toNat + if c = .on then 1 else 0) :
    Receiver.feed c (.inFrame 1 none) w = .inFrame 2 (some (2 + w.toNat + if c = .on then 1 else 0)) := by
  have fits' : ¬Config.maxOperands < w.toNat := Nat.not_lt.mpr fits
  cases c with
  | on =>
    rw [Receiver.feed, if_neg fits']
    exact if_neg (by simp only [if_pos] at more ⊢; omega)
  | off =>
    rw [Receiver.feed, if_neg fits']
    exact if_neg (by simp at more ⊢; omega)

/-! ### The wire's events -/

theorem exec_idleGap_on {s : State} (on : s.power ≠ .off) (l : Link) (ws : List Word) : exec (.idleGap l ws) s = .next (
    match (generalizing := false) ws.foldl (Receiver.feed (s.port l).terms.check) (s.port l).receiver with
    | .betweenFrames => s.setPort l { s.port l with wordBits := [], receiver := .betweenFrames }
    | .inFrame _ _ => s.setPort l { (s.port l).countPartial with wordBits := [], receiver := .betweenFrames }
    | .discarding =>
      let s' := if (s.port l).receiver = .discarding then s.setPort l { s.port l with wordBits := [] } else oversize l s
      s'.setPort l { s'.port l with receiver := .betweenFrames }) := by
  change execIdleGap l ws s = _
  unfold execIdleGap
  rw [if_neg on]
  rfl

theorem exec_readyFalls_on {s : State} (on : s.power ≠ .off) (l : Link) (bits : List Bool) :
    exec (.readyFalls l bits) s = .next (s.setPort l (Port.clock bits { s.port l with ready := false })) := by
  change execReadyFalls l s bits = _
  rw [execReadyFalls, if_neg on]

theorem exec_operandCountOversize_on {s : State} (on : s.power ≠ .off) {l : Link} {code count : Word}
    (hears : (s.port l).receiver ≠ .discarding) (named : code ≠ 0) (above : 320 < count.toNat) :
    exec (.operandCountOversize l code count) s = .next (oversize l s) := by
  change execOperandCountOversize l code count s = _
  have above' : ¬count.toNat ≤ Config.maxOperands := Nat.not_le.mpr above
  rw [execOperandCountOversize, if_neg (by simp only [on, hears, named, above', or_self, not_false_iff])]

theorem oversize_eq (l : Link) (s : State) : oversize l s = s.setPort l
    (let p := ((s.port l).heard).replied .badLength []
     { p with
       receiver := .discarding
       state := if p.state.isOpen then .replyPending else p.state
       counters := { p.counters with badLengths := satSucc p.counters.badLengths } }) := by
  unfold oversize
  refine congrArg (s.setPort l) ?_
  cases slot : (s.port l).slot <;>
    simp [Port.discardOld, Port.heard, Port.replied, Port.countBadLength, Port.stage, slot]

theorem exec_replyClockedOut_on {s : State} (on : s.power ≠ .off) {l : Link} {r : Reply} (staged : (s.port l).slot = some r) :
    exec (.replyClockedOut l) s = .next (s.setPort l (s.port l).clockedOut) := by
  change execReplyClockedOut l s = _
  rw [execReplyClockedOut, if_neg on, staged]

theorem between_of_receiver {p : Port} (between : p.receiver = .betweenFrames) :
    ({ p with wordBits := [], receiver := .betweenFrames } : Port) = { p with wordBits := [] } := by
  rw [← between]

/-- A port after the bits of a word have come in. -/
theorem readyFalls_word {s : State} (on : s.power ≠ .off) {l : Link} {bits : List Bool} {w : Word}
    (empty : (s.port l).slot = none) (incomplete : (s.port l).wordBits.length < 16)
    (word : (s.port l).wordBits ++ bits = wireBits (s.port l).terms.order w) {r : Receiver}
    (goes_on : (s.port l).receiver.endsAt (s.port l).terms.check w = false)
    (feeds : (s.port l).receiver.feed (s.port l).terms.check w = r) : exec (.readyFalls l bits) s =
      .next (s.setPort l { s.port l with ready := false, wordBits := [], receiver := r }) := by
  rw [exec_readyFalls_on on, clock_last_word (p := { s.port l with ready := false }) empty incomplete word goes_on, ← feeds]

/-- Settles O6: each event is one run of the receiver over the words since the last boundary. -/
theorem wireEventsMoveTheReceiver : Obligations.WireEventsMoveTheReceiver := by
  unfold Obligations.WireEventsMoveTheReceiver
  intro l s on
  refine ⟨fun ws discards => ?_, fun k between => ?_, fun code n ws between named fits short => ?_, fun n e inside => ?_,
    fun code count hears named above => ?_, fun r staged => exec_replyClockedOut_on on staged, exec_readyFalls_on on l [],
    fun bits short => ?_, fun r k bits staged incomplete silent => ⟨fun more => ?_, fun begun last => ?_⟩,
    fun w bits empty incomplete word => ?_, fun empty => ?_, fun r w staged due => ?_⟩
  · rw [exec_idleGap_on on, discards, foldl_feed_discarding]
    simp
  · rw [exec_idleGap_on on, between, foldl_feed_zeros]
    dsimp only
    rw [between_of_receiver between]
  · have count : Receiver.feed (s.port l).terms.check (.inFrame 1 none) n = _ := feed_count _ fits (by omega)
    have start : Receiver.feed (s.port l).terms.check .betweenFrames code = .inFrame 1 none := if_neg named
    have read : (code :: n :: ws).foldl (Receiver.feed (s.port l).terms.check) (s.port l).receiver = .inFrame (2 + ws.length)
        (some (2 + n.toNat + if (s.port l).terms.check = .on then 1 else 0)) := by
      rw [List.foldl_cons, List.foldl_cons, between, start, count, foldl_feed_inFrame _ _ _ _ (by omega)]
    rw [exec_idleGap_on on, read]
    dsimp only
    rw [between_of_receiver (p := (s.port l).countPartial) between]
    rfl
  · rw [exec_idleGap_on on, inside]
    rfl
  · rw [exec_operandCountOversize_on on hears named above, oversize_eq]
  · rw [exec_readyFalls_on on, clock_short bits { s.port l with ready := false } short]
  · rw [exec_readyFalls_on on, clock_silent k bits { s.port l with ready := false } incomplete silent,
      wordsOut_of_more k (p := { s.port l with ready := false, wordBits := [] }) staged more]
  · rw [exec_readyFalls_on on, clock_silent k bits { s.port l with ready := false } incomplete silent,
      wordsOut_of_last k (p := { s.port l with ready := false, wordBits := [] }) staged begun last]
    rfl
  · rw [← wireBits_eq] at word
    refine ⟨fun between => ?_, fun inside fits more => ?_, fun n e inside short => ?_, fun discards => ?_⟩
    · exact readyFalls_word on empty incomplete word (by rw [between]; rfl) (by rw [between]; rfl)
    · refine readyFalls_word on empty incomplete word ?_ ?_
      · rw [inside, Receiver.endsAt, feed_count _ fits more]
      · rw [inside, feed_count _ fits more]
    · have feeds : Receiver.feed (s.port l).terms.check (.inFrame n (some e)) w = .inFrame (n + 1) (some e) :=
        if_neg (by omega)
      refine readyFalls_word on empty incomplete word ?_ ?_
      · rw [inside, Receiver.endsAt, feeds]
      · rw [inside, feeds]
    · exact readyFalls_word on empty incomplete word (by rw [discards]; rfl) (by rw [discards]; rfl)
  · rw [Port.ldo, empty]
    dsimp only
    cases (s.port l).terms.order <;> decide
  · rw [Port.ldo, staged]
    dsimp only
    rw [List.getD_eq_getElem?_getD, due, wireBits_eq]
    rfl

end Sys2Proof.Machine
end

section
/-! PROOFS. The NV Port begins a request (R9): the commit points (R15, R18, R22) and the end of the counter (R8). -/
namespace Sys2Proof.Machine

/-- The oldest request in progress. -/
def State.begun (s : State) (r : NvRequest) (rest : List NvRequest) : State :=
  { s with nvPort := { s.nvPort with waiting := rest, current := some ⟨r, true⟩ } }

theorem port_begun (s : State) (r : NvRequest) (rest : List NvRequest) (l : Link) :
    (s.begun r rest).port l = s.port l := port_nvPort s _ l

theorem commitJob_of_job {s : State} {l : Link} {j : Job} (job : (s.port l).job = some j) :
    s.commitJob l = s.setPort l { s.port l with job := some { j with committed := true } } := by
  rw [State.commitJob, job]
  rfl

theorem writeOf_of_write {s : State} {l : Link} {j : Job} {w : RecWrite} (job : (s.port l).job = some j)
    (work : j.work = .write w) : s.writeOf l = some w := by
  rw [State.writeOf, job, Option.bind_some, work]
  rfl

theorem writeOf_of_hang {s : State} {l : Link} {j : Job} {h : HangWork} {w : RecWrite} (job : (s.port l).job = some j)
    (work : j.work = .hang h) (prov : h.prov = some w) : s.writeOf l = some w := by
  rw [State.writeOf, job, Option.bind_some, work]
  exact prov

theorem setWrite_of_write {s : State} {l : Link} {j : Job} {w : RecWrite} (job : (s.port l).job = some j)
    (work : j.work = .write w) (v : RecWrite) :
    s.setWrite l v = s.setPort l { s.port l with job := some { j with work := .write v } } := by
  rw [State.setWrite, job]
  dsimp only
  rw [work, setWork_eq job]

theorem setWrite_of_hang {s : State} {l : Link} {j : Job} {h : HangWork} (job : (s.port l).job = some j)
    (work : j.work = .hang h) (v : RecWrite) :
    s.setWrite l v = s.setPort l { s.port l with job := some { j with work := .hang { h with prov := some v } } } := by
  rw [State.setWrite, job]
  dsimp only
  rw [work]
  exact setWork_eq job _

/-- The swap of a WRITE RECORD begins: its commit point (R15). -/
theorem beginSwap_write {s : State} {l : Link} {j : Job} {w : RecWrite} (job : (s.port l).job = some j)
    (work : j.work = .write w) (fresh : w.provisional = false) : s.beginSwap l w = s.setPort l { s.port l with
      job := some { j with committed := true, work := .write { w with revision := some s.pool.counter } } } := by
  rw [State.beginSwap, setWrite_of_write job work, if_neg (by simp [fresh])]
  rw [commitJob_of_job (j := { j with work := .write { w with revision := some s.pool.counter } })
    (by rw [State.port_setPort]), State.port_setPort, State.setPort_setPort]

/-- The swap of a hang's provisional write begins (R17). -/
theorem beginSwap_hang {s : State} {l : Link} {j : Job} {h : HangWork} {w : RecWrite} (job : (s.port l).job = some j)
    (work : j.work = .hang h) (provisional : w.provisional = true) : s.beginSwap l w = s.setPort l { s.port l with
      job := some { j with work := .hang { h with prov := some { w with revision := some s.pool.counter } } } } := by
  rw [State.beginSwap, setWrite_of_hang job work, if_pos provisional]

theorem exec_begins {s : State} {r : NvRequest} {rest : List NvRequest} (free : s.nvPort.current = none)
    (oldest : s.nvPort.waiting = r :: rest) {c : Instr}
    (kind : c = .nvRequestBegin ∨ c = .indexSwapBegin ∧ r.op = .swap ∨ c = .eraseWriteBegin ∧ (∃ tag, r.op = .remove tag) ∨
      c = .settingsWriteBegin ∧ ∃ img, r.op = .settings 0 img) : exec c s = .next s.beginRequest := by
  have head (p : NvOp → Bool) (is_kind : p r.op = true) : s.headIs p = true := by
    rw [State.headIs, free, oldest]
    exact is_kind
  rcases kind with rfl | ⟨rfl, op⟩ | ⟨rfl, tag, op⟩ | ⟨rfl, img, op⟩
  · change execNvRequestBegin s = _
    rw [execNvRequestBegin, if_pos (head _ rfl)]
  · change execIndexSwapBegin s = _
    rw [execIndexSwapBegin, if_pos (head _ (by rw [op]; rfl))]
  · change execEraseWriteBegin s = _
    rw [execEraseWriteBegin, if_pos (head _ (by rw [op]; rfl))]
  · change execSettingsWriteBegin s = _
    rw [execSettingsWriteBegin, if_pos (head _ (by rw [op]; rfl))]

section
variable {s : State} {r : NvRequest} {rest : List NvRequest} (oldest : s.nvPort.waiting = r :: rest)
include oldest

theorem beginRequest_plain (plain : (∃ c g, r.op = .cellWrite c g) ∨ (∃ c, r.op = .retire c) ∨ (∃ c e, r.op = .chainEntry c e) ∨
    (∃ tag, r.op = .damage tag) ∨ (∃ c, r.op = .checkRead c) ∨ ∃ c img, c ≠ 0 ∧ r.op = .settings c img) :
    s.beginRequest = s.begun r rest := by
  rw [State.beginRequest, oldest]
  dsimp only
  rcases plain with ⟨c, g, op⟩ | ⟨c, op⟩ | ⟨c, e, op⟩ | ⟨tag, op⟩ | ⟨c, op⟩ | ⟨c, img, later, op⟩
  · rw [op]; rfl
  · rw [op]; rfl
  · rw [op]; rfl
  · rw [op]; rfl
  · rw [op]; rfl
  · rw [op]
    exact if_neg later

theorem beginRequest_commits (commits : (∃ tag, r.op = .remove tag) ∨ ∃ img, r.op = .settings 0 img) :
    s.beginRequest = (s.begun r rest).commitJob r.link := by
  rw [State.beginRequest, oldest]
  dsimp only
  rcases commits with ⟨tag, op⟩ | ⟨img, op⟩
  · rw [op]; rfl
  · rw [op]; rfl

theorem beginRequest_swap {w : RecWrite} (op : r.op = .swap) (write : s.writeOf r.link = some w)
    (more : s.pool.counter ≠ 4294967295) : s.beginRequest = (s.begun r rest).beginSwap r.link w := by
  rw [State.beginRequest, oldest]
  dsimp only
  rw [op]
  dsimp only
  rw [write]
  exact if_neg more

theorem beginRequest_exhausted {w : RecWrite} (op : r.op = .swap) (write : s.writeOf r.link = some w)
    (none_left : s.pool.counter = 4294967295) : s.beginRequest =
      ({ s with nvPort := { s.nvPort with waiting := rest } } : State).failWrite r.link w .revisionExhausted := by
  rw [State.beginRequest, oldest]
  dsimp only
  rw [op]
  dsimp only
  rw [write]
  exact if_pos none_left

end

/-- A WRITE RECORD that ends without its swap (R8, R14). -/
theorem failWrite_write {s : State} {l : Link} {j : Job} {w : RecWrite} (res : ResultCode)
    (job : (s.port l).job = some j) (fresh : w.provisional = false) (attached : j.detached = false) :
    ((s.failWrite l w res).port l).job = none ∧
    ((s.failWrite l w res).port l).record = ⟨.failed, res, j.committed, .write w.tag w.phase w.written.length w.retired none⟩ ∧
    ((s.failWrite l w res).port l).hasFlag .jobDone = true ∧
    (∀ k, k ∈ (s.failWrite l w res).pool.free ↔ k ∈ s.pool.free ∨ k ∈ w.written ∨ k ∈ w.unwritten) ∧
    s.failWrite l w res = { s with
      pl := s.pl.ended (s.failWrite l w res).pl, dl := s.dl.ended (s.failWrite l w res).dl
      sl := s.sl.ended (s.failWrite l w res).sl
      pool := { s.pool with
        free := (s.failWrite l w res).pool.free, chain := (s.failWrite l w res).pool.chain
        image := (s.failWrite l w res).pool.image, low := (s.failWrite l w res).pool.low } } := by
  have freed := freeCells_freedFrom s w.claim
  have runs : ((s.freeCells w.claim).port l).job = some j := by
    rw [freed]
    cases l <;> exact job
  have fails : s.failWrite l w res =
      (s.freeCells w.claim).finishJob l .failed res (.write w.tag w.phase w.written.length w.retired none) := by
    rw [State.failWrite, fresh]
    rfl
  obtain ⟨done, record⟩ := finishJob_record_of_attached runs attached (st := .failed) (res := res)
    (fields := .write w.tag w.phase w.written.length w.retired none)
  have ended := finishJob_ended (s.freeCells w.claim) l .failed res (.write w.tag w.phase w.written.length w.retired none)
  have pool : (s.failWrite l w res).pool = (s.freeCells w.claim).pool := by rw [fails, ended]
  refine ⟨?_, ?_, ?_, fun k => ?_, ?_⟩
  · rw [fails]
    exact finishJob_job runs _ _ _
  · rw [fails, record]
  · rw [fails, done]
  · rw [pool, (claimReleased_freeCells s w.claim).free, RecWrite.claim, List.mem_append]
  · rw [fails, ended, freed]
    rfl

/-- Settles O42: a plain request only begins; a remove and the first settings write commit their job; a swap takes the
revision, and at the end of the counter ends its write. -/
theorem nvPortBeginsTheOldestRequest : Obligations.NvPortBeginsTheOldestRequest := by
  unfold Obligations.NvPortBeginsTheOldestRequest
  intro s r rest free oldest begun
  have port : begun.port r.link = s.port r.link := port_begun s r rest r.link
  refine ⟨fun plain => ?_, fun j job => ?_⟩
  · rw [exec_begins free oldest (.inl rfl), beginRequest_plain oldest plain]
    rfl
  have runs : (begun.port r.link).job = some j := by rw [port, job]
  have commits : begun.commitJob r.link = begun.setPort r.link { s.port r.link with job := some { j with committed := true } } := by
    rw [commitJob_of_job runs, port]
  refine ⟨fun tag op c kind => ?_, fun img op c kind => ?_, fun op c kind => ⟨fun w work fresh more => ?_,
    fun h w work prov provisional more => ?_, fun w work fresh attached none_left => ?_⟩⟩
  · rw [exec_begins free oldest (kind.imp_right (fun h => .inr (.inl ⟨h, tag, op⟩))),
      beginRequest_commits oldest (.inl ⟨tag, op⟩)]
    exact congrArg Host.Outcome.next commits
  · rw [exec_begins free oldest (kind.imp_right (fun h => .inr (.inr ⟨h, img, op⟩))),
      beginRequest_commits oldest (.inr ⟨img, op⟩)]
    exact congrArg Host.Outcome.next commits
  all_goals rw [exec_begins free oldest (kind.imp_right (fun h => .inl ⟨h, op⟩))]
  · rw [beginRequest_swap oldest op (writeOf_of_write job work) more]
    refine congrArg Host.Outcome.next ?_
    change begun.beginSwap r.link w = _
    rw [beginSwap_write runs work fresh, port]
  · rw [beginRequest_swap oldest op (writeOf_of_hang job work prov) more]
    refine congrArg Host.Outcome.next ?_
    change begun.beginSwap r.link w = _
    rw [beginSwap_hang runs work provisional, port]
  · rw [beginRequest_exhausted oldest op (writeOf_of_write job work) none_left]
    have runs : (State.port { s with nvPort := { s.nvPort with waiting := rest } } r.link).job = some j := by
      rw [port_nvPort, job]
    obtain ⟨ended, record, done, freed, touched⟩ := failWrite_write .revisionExhausted runs fresh attached
    exact ⟨_, rfl, ended, record, done, freed, touched⟩

end Sys2Proof.Machine
end

section
/-! PROOFS. The rules of the Chain Engine's operations (R47 to R49): branches, reports, places, the take of an order. -/
namespace Sys2Proof.Machine

/-! ### Branches -/

theorem branch_of_getElem? {s : State} {b : Nat} {x : Branch} (at_b : s.branches[b]? = some x) : s.branch b = x := by
  rw [State.branch, List.getD_eq_getElem?_getD, at_b, Option.getD_some]

theorem modBranch_of_getElem? {s : State} {b : Nat} {x : Branch} (at_b : s.branches[b]? = some x) (f : Branch → Branch) :
    s.modBranch b f = { s with branches := s.branches.set b (f x) } := by
  rw [State.modBranch, updateAt_eq_set _ _ _ _ at_b]

/-- The wire under an order just sent (R42). -/
def Order.sent (o : Order) : Wire := ⟨o, false, false, false, 0, false, false, [], []⟩

/-! ### Reports (R47) -/

theorem tellDrift_leaves (s : State) (b : Nat) {r : Report}
    (leaves : r = .clashed ∨ r = .timedOut ∨ r = .branchFault ∨ ∃ broken, r = .gathered broken) :
    s.tellDrift b r = { s with awaiting := s.awaiting.filter (fun c => decide (c ≠ b)) } := by
  rcases leaves with rfl | rfl | rfl | ⟨broken, rfl⟩ <;> rfl

/-- A report that ends a sweep's or a gather's order, made to the drift cycle or to SWEEP NOW (R47, R90). -/
theorem tell_sweeper (s : State) {o : Originator} (b : Nat) {r : Report} (orig : o = .drift ∨ o = .sweepNow)
    (leaves : r = .clashed ∨ r = .timedOut ∨ r = .branchFault ∨ ∃ broken, r = .gathered broken) :
    s.tell o b r = { s with awaiting := if o = .drift then s.awaiting.filter (fun c => decide (c ≠ b)) else s.awaiting } := by
  rcases orig with rfl | rfl
  · exact tellDrift_leaves s b leaves
  · rfl

/-- The outcome of one of a hang's branches, with another still out (R69). -/
theorem hangOutcome_calling {s : State} {l : Link} {j : Job} {h : HangWork} (job : (s.port l).job = some j)
    (work : j.work = .hang h) (b : Nat) (f : HangBranch → HangBranch)
    (out : ∃ y ∈ h.branches, y.branch ≠ b ∧ y.outcome.isFinal = false) : s.hangOutcome l b f =
      s.setPort l { s.port l with job := some { j with work := .hang { h with
        branches := h.branches.map (fun y => if y.branch = b then f y else y) } } } := by
  obtain ⟨y, listed, other, open_⟩ := out
  have unfinished : (h.modBranch b f).branches.all (fun x => x.outcome.isFinal) = false := by
    refine List.all_eq_false.mpr ⟨y, List.mem_map.mpr ⟨y, listed, if_neg other⟩, ?_⟩
    rw [open_]
    simp
  rw [State.hangOutcome, hangOf_of_job job work]
  dsimp only
  rw [if_neg (by rw [unfinished]; simp), State.setHang, setWork_eq job]
  rfl

theorem tell_hang_branchFault {s : State} {l : Link} {j : Job} {h : HangWork} (job : (s.port l).job = some j)
    (work : j.work = .hang h) (b : Nat) (out : ∃ y ∈ h.branches, y.branch ≠ b ∧ y.outcome.isFinal = false) :
    s.tell (.hang l) b .branchFault =
      s.setPort l { s.port l with job := some { j with work := .hang { h with
        branches := h.branches.map (fun y => if y.branch = b then { y with outcome := .failed .branchFault } else y) } } } :=
  hangOutcome_calling job work b _ out

theorem tell_hang_branchBusy {s : State} {l : Link} {j : Job} {h : HangWork} (job : (s.port l).job = some j)
    (work : j.work = .hang h) (b : Nat) : s.tell (.hang l) b .branchBusy =
      { s.setPort l { s.port l with job := some { j with work := .hang { h with
          branches := h.branches.map (fun y => if y.branch = b then { y with outcome := .waitingIdle } else y) } } } with
        idleWaits := s.idleWaits ++ [(b, l)] } := by
  rw [State.tell, State.tellHang, hangOf_of_job job work]
  dsimp only
  rw [State.waitIdle, State.setHang, setWork_eq job, State.setPort_idleWaits]
  rfl

/-! ### Places (R49) -/

theorem givePlace_idle {s : State} (owed : s.owed = []) (space : s.spaceWaiters = []) : s.givePlace = s := by
  rw [State.givePlace, owed]
  simp only [space]

theorem gatherOrder_of_orig {s : State} {b : Nat} {y : Branch} {g : Originator} (at_b : s.branches[b]? = some y)
    (orig : y.orig = some g) : s.gatherOrder b = ⟨.gather, b, g⟩ := by
  rw [gatherOrder_eq, at_b, Option.bind_some, orig, Option.getD_some]

theorem giveOwed_of_orig {s : State} {b : Nat} {y : Branch} {g : Originator} (at_b : s.branches[b]? = some y)
    (orig : y.orig = some g) (bs : List Nat) : s.giveOwed b bs =
      { s with orders := s.orders ++ [⟨.gather, b, g⟩], owed := bs } := by
  rw [State.giveOwed, gatherOrder_of_orig at_b orig]
  rfl

theorem givePlace_owed {s : State} {b : Nat} {bs : List Nat} (owed : s.owed = b :: bs) : s.givePlace = s.giveOwed b bs := by
  rw [State.givePlace, owed]

theorem givePlace_waiter {s : State} {l : Link} {ls : List Link} (owed : s.owed = []) (space : s.spaceWaiters = l :: ls) :
    s.givePlace = s.giveWaiter l ls := by
  rw [State.givePlace, owed]
  simp only [space]

/-- A waiting hang takes a place: its lowest roll call is queued, and it rejoins while it has more (R49). -/
theorem giveWaiter_of_job {s : State} {l : Link} {ls : List Link} {j : Job} {h : HangWork} {b : Nat}
    (job : (s.port l).job = some j) (work : j.work = .hang h) (due : h.toQueue = some b) :
    let h' := { h with branches := h.branches.map (fun y => if y.branch = b then { y with outcome := .queued } else y) }
    s.giveWaiter l ls = { s.setPort l { s.port l with job := some { j with work := .hang h' } } with
      orders := s.orders ++ [⟨.rollCall, b, .hang l⟩]
      spaceWaiters := if h'.toQueue.isSome then ls ++ [l] else ls } := by
  intro h'
  have port (u : State) (x : List Link) : State.port { u with spaceWaiters := x } l = u.port l := by cases l <;> rfl
  have hang : State.hangOf { s with spaceWaiters := ls } l = some h := by
    rw [State.hangOf, port, job]
    simp only [work]
  have runs : (State.port { s with spaceWaiters := ls } l).job = some j := by rw [port, job]
  have queues : State.queueRollCall { s with spaceWaiters := ls } l =
      { s.setPort l { s.port l with job := some { j with work := .hang h' } } with
        orders := s.orders ++ [⟨.rollCall, b, .hang l⟩], spaceWaiters := ls } := by
    rw [queueRollCall_of_hang hang due, State.setHang, setWork_eq runs, port]
    cases l <;> rfl
  have more : (State.queueRollCall { s with spaceWaiters := ls } l).hasToQueue l = h'.toQueue.isSome := by
    rw [State.hasToQueue, queueRollCall_of_hang hang due]
    have called : (State.setHang { s with spaceWaiters := ls } l (h.setOutcome b .queued)).hangOf l = some h' :=
      hangOf_setHang hang _
    rw [show ((State.setHang { s with spaceWaiters := ls } l (h.setOutcome b .queued)).pushOrder
      ⟨.rollCall, b, .hang l⟩).hangOf l = some h' by rw [← called]; cases l <;> rfl]
  unfold State.giveWaiter
  dsimp only
  rw [more, queues]
  cases h'.toQueue.isSome <;> rfl

/-! ### The take of an order (R48) -/

section
variable {s : State} {o : Order} {x : Branch} (at_b : s.branches[o.branch]? = some x)
include at_b

theorem checkOrder_fault (fault : x.state = .fault) : s.checkOrder o = s.tell o.orig o.branch .branchFault := by
  rw [State.checkOrder, branch_of_getElem? at_b, fault]

theorem checkOrder_rollCall (idle : x.state = .idle) (kind : o.kind = .rollCall) : s.checkOrder o =
    { s with branches := s.branches.set o.branch { x with state := .calling }, wire := some o.sent } := by
  rw [State.checkOrder, branch_of_getElem? at_b, idle, kind, State.setBranchState, modBranch_of_getElem? at_b]
  rfl

theorem checkOrder_sweep (idle : x.state = .idle) (kind : o.kind = .sweep) : s.checkOrder o =
    { s with
      branches := s.branches.set o.branch { x with state := .starting, serial := (x.serial + 1) % 16, orig := some o.orig }
      wire := some o.sent } := by
  rw [State.checkOrder, branch_of_getElem? at_b, idle, kind]
  dsimp only
  rw [State.sendSweep, modBranch_of_getElem? at_b]
  rfl

theorem checkOrder_gather (ready : x.state = .ready) (kind : o.kind = .gather) : s.checkOrder o =
    { s with branches := s.branches.set o.branch { x with state := .gathering }, wire := some o.sent } := by
  rw [State.checkOrder, branch_of_getElem? at_b, ready, kind]
  dsimp only
  rw [State.setBranchState, modBranch_of_getElem? at_b]
  rfl

theorem checkOrder_rollCall_busy (busy : x.state ≠ .idle) (works : x.state ≠ .fault) (kind : o.kind = .rollCall) :
    s.checkOrder o = s.tell o.orig o.branch .branchBusy := by
  rw [State.checkOrder, branch_of_getElem? at_b, kind]
  cases state : x.state <;> simp_all

theorem checkOrder_clash (busy : x.state ≠ .idle) (works : x.state ≠ .fault) (kind : o.kind = .sweep) :
    s.checkOrder o = s.clash o := by
  rw [State.checkOrder, branch_of_getElem? at_b, kind]
  cases state : x.state <;> simp_all

end

/-! ### The transmitter (R42, R48) -/

/-- The transmitter takes nothing: it is busy, or no order waits. -/
def State.Quiescent (s : State) : Prop := s.wire ≠ none ∨ s.orders = []

theorem takeOrders_quiescent (n : Nat) {s : State} (quiet : s.Quiescent) : takeOrders n s = s := by
  cases n with
  | zero => rfl
  | succ n =>
    rw [takeOrders]
    cases wire : s.wire with
    | some w => rfl
    | none =>
      obtain busy | empty := quiet
      · exact absurd wire busy
      · simp only [empty]

theorem kick_quiescent {s : State} (quiet : s.Quiescent) : s.kick = s := takeOrders_quiescent _ quiet

theorem takeOrders_cons (n : Nat) {s : State} {o : Order} {rest : List Order} (free : s.wire = none)
    (oldest : s.orders = o :: rest) :
    takeOrders (n + 1) s = takeOrders n (({ s with orders := rest } : State).givePlace.checkOrder o) := by
  conv => lhs; unfold takeOrders
  split
  · next w busy => cases free.symm.trans busy
  · split
    · next empty => cases oldest.symm.trans empty
    · next head =>
      cases oldest.symm.trans head
      rfl

/-- One take, after which the transmitter rests. -/
theorem kick_takes {s t : State} {o : Order} {rest : List Order} (free : s.wire = none) (oldest : s.orders = o :: rest)
    (takes : ({ s with orders := rest } : State).givePlace.checkOrder o = t) (quiet : t.Quiescent) : s.kick = t := by
  rw [State.kick, oldest, List.length_cons, show rest.length + 1 + s.owed.length + 8 = (rest.length + s.owed.length + 8) + 1 by
    omega, takeOrders_cons _ free oldest, takes]
  exact takeOrders_quiescent _ quiet

theorem exec_transmitterTake (s : State) : exec .transmitterTake s = .next s.kick := rfl

end Sys2Proof.Machine
end

section
/-! PROOFS. The transmitter's takes and the places given out (R47 to R50, R52, R54, R57, R69, R90). -/
namespace Sys2Proof.Machine

/-! ### A sweep clash (R54) -/

/-- A notice raised on DL and SL, and on no other link, and no other notice. -/
theorem raiseDlSl_eq (s : State) (n : Notice) : s.raiseDlSl n = { s with dl := s.dl.raise n, sl := s.sl.raise n } := rfl

theorem hasFlag_raise_same (p : Port) (n : Notice) : (p.raise n).hasFlag n = true := by
  rw [hasFlag_raise]
  simp

theorem hasFlag_raise_other (p : Port) {n m : Notice} (other : m ≠ n) : (p.raise n).hasFlag m = p.hasFlag m := by
  rw [hasFlag_raise]
  simp [other]

/-- Settles O38: the one take refuses the SWEEP, marks the branch and tells the originator. -/
theorem sweepClashIsNotPerformed : Obligations.SweepClashIsNotPerformed := by
  intro s o x free oldest owed space kind orig at_b busy works
  have given : ({ s with orders := [] } : State).givePlace = { s with orders := [] } := givePlace_idle owed space
  have takes := kick_takes (t := State.clash { s with orders := [] } o) free oldest
    (by rw [given, checkOrder_clash (s := { s with orders := [] }) at_b busy works kind]) (.inr (by
      rw [State.clash, tell_sweeper _ _ orig (.inl rfl)]
      rfl))
  refine ⟨_, by rw [exec_transmitterTake, takes], ?_⟩
  rw [State.clash, modBranch_of_getElem? (s := { s with orders := [] }) at_b, raiseDlSl_eq, tell_sweeper _ _ orig (.inl rfl)]
  exact ⟨hasFlag_raise_same _ _, hasFlag_raise_same _ _, rfl,
    fun n other => ⟨hasFlag_raise_other _ other, hasFlag_raise_other _ other⟩⟩

/-! ### Takes -/

theorem exec_owedGatherQueue {s : State} {b : Nat} {bs : List Nat} (owed : s.owed = b :: bs) (room : s.orders.length < 8) :
    exec .owedGatherQueue s = .next (s.giveOwed b bs).kick := by
  change execOwedGatherQueue s = _
  rw [execOwedGatherQueue, owed]
  exact congrArg Host.Outcome.next (if_pos room)

theorem exec_spaceWaiterQueue {s : State} {l : Link} {ls : List Link} (owed : s.owed = []) (space : s.spaceWaiters = l :: ls)
    (room : s.orders.length < 8) : exec .spaceWaiterQueue s = .next (s.giveWaiter l ls).kick := by
  change execSpaceWaiterQueue s = _
  rw [execSpaceWaiterQueue, owed, space]
  exact congrArg Host.Outcome.next (if_pos room)

/-- A SWEEP sent to an IDLE branch, with what the place it leaves is given to (R49, R52). -/
theorem kick_sends_sweep {s g : State} {o : Order} {rest : List Order} {x : Branch} (free : s.wire = none)
    (oldest : s.orders = o :: rest) (given : ({ s with orders := rest } : State).givePlace = g)
    (at_b : g.branches[o.branch]? = some x) (idle : x.state = .idle) (kind : o.kind = .sweep) : s.kick =
      { g with
        branches := g.branches.set o.branch
          { x with state := .starting, serial := (x.serial + 1) % 16, orig := some o.orig }
        wire := some o.sent } := by
  refine kick_takes free oldest ?_ (.inl nofun)
  rw [given, checkOrder_sweep at_b idle kind]

/-- An order for a branch in FAULT, alone in the queue (R48). -/
theorem kick_fault {s t : State} {o : Order} {x : Branch} (free : s.wire = none) (oldest : s.orders = [o])
    (owed : s.owed = []) (space : s.spaceWaiters = []) (at_b : s.branches[o.branch]? = some x) (fault : x.state = .fault)
    (tells : ({ s with orders := [] } : State).tell o.orig o.branch .branchFault = t) (empty : t.orders = []) : s.kick = t := by
  refine kick_takes free oldest ?_ (.inr empty)
  rw [givePlace_idle (s := { s with orders := [] }) owed space, checkOrder_fault (s := { s with orders := [] }) at_b fault,
    tells]

theorem port_orders (s : State) (os : List Order) (l : Link) : State.port { s with orders := os } l = s.port l := by
  cases l <;> rfl

theorem setPort_orders_comm (s : State) (os : List Order) (l : Link) (p : Port) :
    State.setPort { s with orders := os } l p = { s.setPort l p with orders := os } := by
  cases l <;> rfl

/-- A roll call of a hang refused by a branch in FAULT (R48, R69). -/
theorem tell_fault_of_job {s : State} {l : Link} {j : Job} {h : HangWork} (os : List Order) (job : (s.port l).job = some j)
    (work : j.work = .hang h) (b : Nat) (out : ∃ y ∈ h.branches, y.branch ≠ b ∧ y.outcome.isFinal = false) :
    ({ s with orders := os } : State).tell (.hang l) b .branchFault =
      { s.setPort l { s.port l with job := some { j with work := .hang { h with
          branches := h.branches.map (fun y => if y.branch = b then { y with outcome := .failed .branchFault } else y) } } } with
        orders := os } := by
  have runs : (State.port { s with orders := os } l).job = some j := by rw [port_orders, job]
  rw [tell_hang_branchFault runs work b out, port_orders, setPort_orders_comm]

/-- A hang that still waits for a branch keeps its own first. -/
theorem toQueue_setOutcome_none {h : HangWork} {b : Nat} {o : CallOutcome} (settled : o ≠ .toQueue)
    (others : ∀ y ∈ h.branches, y.branch ≠ b → y.outcome ≠ .toQueue) :
    HangWork.toQueue { h with branches := h.branches.map (fun y => if y.branch = b then { y with outcome := o } else y) } =
      none := by
  rw [HangWork.toQueue, Option.map_eq_none_iff, List.find?_eq_none]
  intro z listed
  obtain ⟨y, hy, rfl⟩ := List.mem_map.mp listed
  by_cases same : y.branch = b
  · simp [same, settled]
  · simp [same, others y hy same]

/-- An order taken alone: its place is given to no one. -/
theorem kick_alone {s t : State} {o : Order} {rest : List Order} (free : s.wire = none) (oldest : s.orders = o :: rest)
    (owed : s.owed = []) (space : s.spaceWaiters = []) (takes : ({ s with orders := rest } : State).checkOrder o = t)
    (quiet : t.Quiescent) : s.kick = t :=
  kick_takes free oldest (by rw [givePlace_idle (s := { s with orders := rest }) owed space, takes]) quiet

/-- The orders of the first part of O37: the place a sent SWEEP leaves. -/
theorem takes_with_a_place {s : State} {o : Order} {rest : List Order} {x : Branch} (free : s.wire = none)
    (oldest : s.orders = o :: rest) (at_b : s.branches[o.branch]? = some x) :
    (x.state = .idle → o.kind = .sweep →
      let sent : State := { s with
        branches := s.branches.set o.branch
          { x with state := .starting, serial := (x.serial + 1) % 16, orig := some o.orig }
        wire := some ⟨o, false, false, false, 0, false, false, [], []⟩ }
      (∀ (b : Nat) (bs : List Nat) (y : Branch) (g : Originator), s.owed = b :: bs → s.branches[b]? = some y →
        y.orig = some g → exec .transmitterTake s = .next
          { sent with orders := rest ++ [⟨.gather, b, g⟩], owed := bs }) ∧
      (∀ (l : Link) (ls : List Link) (j : Job) (h : HangWork) (b : Nat), s.owed = [] → s.spaceWaiters = l :: ls →
        (s.port l).job = some j → j.work = .hang h → h.toQueue = some b →
        let h' := { h with
          branches := h.branches.map (fun y => if y.branch = b then { y with outcome := .queued } else y) }
        exec .transmitterTake s = .next
          { sent.setPort l { s.port l with job := some { j with work := .hang h' } } with
            orders := rest ++ [⟨.rollCall, b, .hang l⟩]
            spaceWaiters := if h'.toQueue.isSome then ls ++ [l] else ls })) ∧
    (x.state = .fault → rest = [] → s.owed = [] → s.spaceWaiters = [] →
      (o.orig = .sweepNow → exec .transmitterTake s = .next { s with orders := [] }) ∧
      (o.orig = .drift → exec .transmitterTake s = .next { s with
        orders := [], awaiting := s.awaiting.filter (fun b => decide (b ≠ o.branch)) }) ∧
      (∀ (l : Link) (j : Job) (h : HangWork), o.orig = .hang l → (s.port l).job = some j → j.work = .hang h →
        h.phase = .calling → (∃ y ∈ h.branches, y.branch ≠ o.branch ∧ y.outcome.isFinal = false) →
        exec .transmitterTake s = .next
          { s.setPort l { s.port l with job := some { j with work := .hang { h with
              branches := h.branches.map (fun y =>
                if y.branch = o.branch then { y with outcome := .failed .branchFault } else y) } } } with
            orders := [] })) := by
  refine ⟨fun idle kind => ⟨fun b bs y g owed at_y orig => ?_, fun l ls j h b owed space job work due => ?_⟩,
    fun fault alone owed space => ?_⟩
  · have given : ({ s with orders := rest } : State).givePlace =
        { s with orders := rest ++ [⟨.gather, b, g⟩], owed := bs } := by
      rw [givePlace_owed (s := { s with orders := rest }) owed, giveOwed_of_orig (s := { s with orders := rest }) at_y orig]
    rw [exec_transmitterTake, kick_sends_sweep free oldest given at_b idle kind]
    rfl
  · have runs : (State.port { s with orders := rest } l).job = some j := by rw [port_orders, job]
    have given := (givePlace_waiter (s := { s with orders := rest }) owed space).trans
      (giveWaiter_of_job (ls := ls) runs work due)
    rw [port_orders, setPort_orders_comm] at given
    rw [exec_transmitterTake, kick_sends_sweep free oldest given (by rw [← at_b]; cases l <;> rfl) idle kind]
    cases l <;> rfl
  · subst alone
    refine ⟨fun orig => ?_, fun orig => ?_, fun l j h orig job work _ out => ?_⟩
    · have tells : ({ s with orders := [] } : State).tell o.orig o.branch .branchFault = { s with orders := [] } := by
        rw [orig]
        rfl
      rw [exec_transmitterTake, kick_fault free oldest owed space at_b fault tells rfl]
    · have tells : ({ s with orders := [] } : State).tell o.orig o.branch .branchFault =
          { s with orders := [], awaiting := s.awaiting.filter (fun b => decide (b ≠ o.branch)) } := by
        rw [orig]
        exact tellDrift_leaves _ _ (.inr (.inr (.inl rfl)))
      rw [exec_transmitterTake, kick_fault free oldest owed space at_b fault tells rfl]
    · have tells := tell_fault_of_job [] job work o.branch out
      rw [← orig] at tells
      rw [exec_transmitterTake, kick_fault free oldest owed space at_b fault tells rfl]

/-- The orders of O37's second part: an owed gather queued, and taken at once. -/
theorem owed_gather_taken {s : State} {b : Nat} {x : Branch} {g : Originator} (free : s.wire = none) (empty : s.orders = [])
    (space : s.spaceWaiters = []) (owed : s.owed = [b]) (at_b : s.branches[b]? = some x) (orig : x.orig = some g) :
    (x.state = .ready → exec .owedGatherQueue s = .next { s with
      owed := [], branches := s.branches.set b { x with state := .gathering }
      wire := some ⟨⟨.gather, b, g⟩, false, false, false, 0, false, false, [], []⟩ }) ∧
    (x.state = .fault → g = .sweepNow → exec .owedGatherQueue s = .next { s with owed := [] }) ∧
    (x.state = .fault → g = .drift → exec .owedGatherQueue s = .next { s with
      owed := [], awaiting := s.awaiting.filter (fun c => decide (c ≠ b)) }) := by
  have queued : exec .owedGatherQueue s = .next (State.kick { s with orders := [⟨.gather, b, g⟩], owed := [] }) := by
    rw [exec_owedGatherQueue owed (by simp [empty]), giveOwed_of_orig at_b orig, empty, List.nil_append]
  refine ⟨fun ready => ?_, fun fault asks => ?_, fun fault asks => ?_⟩
  · rw [queued, kick_alone (s := { s with orders := [⟨.gather, b, g⟩], owed := [] }) free rfl rfl space
      (checkOrder_gather (s := { s with orders := [], owed := [] }) (o := ⟨.gather, b, g⟩) at_b ready rfl) (.inl nofun),
      ← empty]
    rfl
  · subst asks
    rw [queued, kick_fault (s := { s with orders := [⟨.gather, b, .sweepNow⟩], owed := [] }) free rfl rfl space at_b fault rfl
      rfl, ← empty]
    rfl
  · subst asks
    rw [queued, kick_fault (s := { s with orders := [⟨.gather, b, .drift⟩], owed := [] }) free rfl rfl space at_b fault
      (tellDrift_leaves _ _ (.inr (.inr (.inl rfl)))) rfl, ← empty]

/-- The only roll call of a hang that waits alone, queued and taken at once (R49, R69). -/
theorem roll_call_taken {s : State} {l : Link} {j : Job} {h : HangWork} {b : Nat} {x : Branch} (free : s.wire = none)
    (empty : s.orders = []) (owed : s.owed = []) (space : s.spaceWaiters = [l]) (job : (s.port l).job = some j)
    (work : j.work = .hang h) (due : h.toQueue = some b)
    (others : ∀ y ∈ h.branches, y.branch ≠ b → y.outcome ≠ .toQueue) (at_b : s.branches[b]? = some x) :
    let showing (o : CallOutcome) : State := { s.setPort l { s.port l with job := some { j with work := .hang { h with
      branches := h.branches.map (fun y => if y.branch = b then { y with outcome := o } else y) } } } with
      spaceWaiters := [] }
    (x.state = .idle → exec .spaceWaiterQueue s = .next { showing .queued with
      branches := s.branches.set b { x with state := .calling }
      wire := some ⟨⟨.rollCall, b, .hang l⟩, false, false, false, 0, false, false, [], []⟩ }) ∧
    (x.state = .fault → h.phase = .calling → (∃ y ∈ h.branches, y.branch ≠ b ∧ y.outcome.isFinal = false) →
      exec .spaceWaiterQueue s = .next (showing (.failed .branchFault))) := by
  intro showing
  have gives := giveWaiter_of_job (ls := []) job work due
  dsimp only at gives
  rw [toQueue_setOutcome_none (o := .queued) (by decide) others, empty, List.nil_append] at gives
  have queued : exec .spaceWaiterQueue s =
      .next (State.kick { showing .queued with orders := [⟨.rollCall, b, .hang l⟩] }) := by
    rw [exec_spaceWaiterQueue owed space (by simp [empty]), gives]
    rfl
  have wire : (showing .queued).wire = none := (State.setPort_wire s l _).trans free
  have owes : (showing .queued).owed = [] := (State.setPort_owed s l _).trans owed
  have branch : (showing .queued).branches[b]? = some x := by rw [← at_b]; exact congrArg (·[b]?) (State.setPort_branches s l _)
  refine ⟨fun idle => ?_, fun fault _ out => ?_⟩
  · rw [queued, kick_alone (s := { showing .queued with orders := [⟨.rollCall, b, .hang l⟩] }) wire rfl owes rfl
      (checkOrder_rollCall (s := { showing .queued with orders := [] }) (o := ⟨.rollCall, b, .hang l⟩) branch idle rfl)
      (.inl nofun)]
    have orders : (showing .queued).orders = [] := (State.setPort_orders s l _).trans empty
    have branches : (showing .queued).branches = s.branches := State.setPort_branches s l _
    rw [← orders, ← branches]
    rfl
  · obtain ⟨y, listed, other, unfinished⟩ := out
    have runs : ((showing .queued).port l).job = some { j with work := .hang { h with
        branches := h.branches.map (fun y => if y.branch = b then { y with outcome := .queued } else y) } } := by
      cases l <;> rfl
    have tells := tell_fault_of_job [] runs rfl b ⟨y, List.mem_map.mpr ⟨y, listed, if_neg other⟩, other, unfinished⟩
    rw [queued, kick_fault (s := { showing .queued with orders := [⟨.rollCall, b, .hang l⟩] }) wire rfl owes rfl branch fault
      tells rfl]
    have twice : (h.branches.map (fun y => if y.branch = b then { y with outcome := CallOutcome.queued } else y)).map
        (fun y => if y.branch = b then { y with outcome := .failed .branchFault } else y) =
        h.branches.map (fun y => if y.branch = b then { y with outcome := .failed .branchFault } else y) := by
      rw [List.map_map]
      refine List.map_congr_left (fun z _ => ?_)
      by_cases same : z.branch = b <;> simp [same]
    dsimp only
    rw [twice, ← empty]
    cases l <;> rfl

theorem quiescent_of_wire {s : State} {w : Wire} (busy : s.wire = some w) : s.Quiescent := .inl (by rw [busy]; nofun)

/-- Settles O37: the take's place first, then the two events that give a place, with the transmitter free and with it
busy. -/
theorem transmitterTakesAndPlacesAreGiven : Obligations.TransmitterTakesAndPlacesAreGiven := by
  unfold Obligations.TransmitterTakesAndPlacesAreGiven
  refine ⟨fun s o rest x free oldest at_b => takes_with_a_place free oldest at_b,
    fun s b x g free empty space owed at_b orig => owed_gather_taken free empty space owed at_b orig,
    fun s l j h b x free empty owed space job work due others at_b =>
      roll_call_taken free empty owed space job work due others at_b,
    fun s => ⟨fun o rest x free oldest owed space at_b => ⟨fun kind idle => ?_, fun kind idle => ?_, fun kind ready => ?_,
      fun l orig kind alone busy works j h job work => ?_⟩, fun w b rest x o busy owed room at_b orig => ?_,
      fun w l rest j h b busy owed space room job work due => ?_⟩⟩
  · rw [exec_transmitterTake, kick_alone free oldest owed space
      (checkOrder_rollCall (s := { s with orders := rest }) at_b idle kind) (.inl nofun)]
    rfl
  · rw [exec_transmitterTake, kick_alone free oldest owed space
      (checkOrder_sweep (s := { s with orders := rest }) at_b idle kind) (.inl nofun)]
    rfl
  · rw [exec_transmitterTake, kick_alone free oldest owed space
      (checkOrder_gather (s := { s with orders := rest }) at_b ready kind) (.inl nofun)]
    rfl
  · subst alone
    have runs : (State.port { s with orders := [] } l).job = some j := by rw [port_orders, job]
    have tells := tell_hang_branchBusy runs work o.branch
    rw [port_orders, setPort_orders_comm, ← orig] at tells
    rw [exec_transmitterTake, kick_alone free oldest owed space
      ((checkOrder_rollCall_busy (s := { s with orders := [] }) at_b busy works kind).trans tells) (.inr rfl)]
  · rw [exec_owedGatherQueue owed room, giveOwed_of_orig at_b orig]
    exact congrArg Host.Outcome.next (kick_quiescent (quiescent_of_wire (w := w) busy))
  · have gives := giveWaiter_of_job (ls := rest) job work due
    dsimp only at gives
    rw [exec_spaceWaiterQueue owed space room, gives]
    exact congrArg Host.Outcome.next (kick_quiescent (quiescent_of_wire (w := w) ((State.setPort_wire s l _).trans busy)))

end Sys2Proof.Machine
end

section
/-! PROOFS. The desk's and the survey station's calls on the chain (R59, R62, R64). -/
namespace Sys2Proof.Machine

@[simp] theorem State.called_orders (s : State) (l : Link) : (s.called l).orders = s.orders := State.setPort_orders s l _

@[simp] theorem State.called_owed (s : State) (l : Link) : (s.called l).owed = s.owed := State.setPort_owed s l _

@[simp] theorem State.called_wire (s : State) (l : Link) : (s.called l).wire = s.wire := State.setPort_wire s l _

@[simp] theorem State.called_branches (s : State) (l : Link) : (s.called l).branches = s.branches :=
  State.setPort_branches s l _

@[simp] theorem State.called_idleWaits (s : State) (l : Link) : (s.called l).idleWaits = s.idleWaits :=
  State.setPort_idleWaits s l _

@[simp] theorem State.called_spaceWaiters (s : State) (l : Link) : (s.called l).spaceWaiters = s.spaceWaiters :=
  State.setPort_spaceWaiters s l _

theorem permits_both {code : Word} {job locked : Bool} {l : Link} (off_pl : l ≠ .pl) :
    (bothRow code job locked).permits l = true := by
  cases l with
  | pl => exact absurd rfl off_pl
  | dl => rfl
  | sl => rfl

/-! ### SWEEP NOW (R62) -/

theorem exec_sweepNow (l : Link) (f : Frame) (s : State) : exec (.sweepNow l f) s =
    .next (takeCall (bothRow 0x002B false false) false (hasLength 1) (ownSweepNow f.operands) l f s) := rfl

theorem exec_senseBranches (l : Link) (f : Frame) (s : State) : exec (.senseBranches l f) s =
    .next (takeCall (bothRow 0x002C false false) false (hasLength 1) (ownSenseBranches f.operands) l f s) := rfl

theorem exec_clearBranch (l : Link) (f : Frame) (s : State) : exec (.clearBranch l f) s =
    .next (takeCall (bothRow 0x002D false true) false (hasLength 1) (ownClearBranch f.operands) l f s) := rfl

theorem ownSweepNow_queues {w : Word} {s : State} (named : w.toNat ≤ 3) (room : s.orders.length < 8) :
    ownSweepNow [w] s = .accept .ok [wordOfNat (s.orders.length + 1)] (s.queueOrder ⟨.sweep, w.toNat, .sweepNow⟩) := by
  rw [ownSweepNow, if_neg (by omega)]
  exact if_neg (Nat.not_le.mpr room)

theorem queueOrder_of_wire {s : State} {w : Wire} (busy : s.wire = some w) (o : Order) :
    s.queueOrder o = { s with orders := s.orders ++ [o] } :=
  kick_quiescent (quiescent_of_wire (s := s.pushOrder o) (w := w) busy)

/-- A SWEEP queued to an empty queue goes out at once to an IDLE branch (R48, R52). -/
theorem queueOrder_sweep {s : State} {o : Order} {x : Branch} (free : s.wire = none) (empty : s.orders = [])
    (owed : s.owed = []) (space : s.spaceWaiters = []) (at_b : s.branches[o.branch]? = some x) (idle : x.state = .idle)
    (kind : o.kind = .sweep) : s.queueOrder o = { s with
      branches := s.branches.set o.branch { x with state := .starting, serial := (x.serial + 1) % 16, orig := some o.orig }
      wire := some o.sent } := by
  have alone : (s.pushOrder o).orders = [o] := by
    rw [State.pushOrder, empty]
    rfl
  rw [State.queueOrder, kick_alone (s := s.pushOrder o) free alone owed space
    (checkOrder_sweep (s := { s.pushOrder o with orders := [] }) at_b idle kind) (.inl nofun), ← empty]
  rfl

/-! ### SENSE BRANCHES (R63, R64) -/

/-- A branch with its flags cleared (R63). -/
def Branch.cleared (x : Branch) : Branch := { x with clash := false, timeout := false, excess := false }

theorem getElem?_clearFlags (s : State) (reset : List Nat) (b : Nat) :
    (s.clearFlags reset).branches[b]? = (s.branches[b]?).map (fun x => if b ∈ reset then x.cleared else x) := by
  induction reset generalizing s with
  | nil => simp [State.clearFlags]
  | cons c cs ih =>
    have first : (s.clearFlags (c :: cs)) = (s.modBranch c Branch.cleared).clearFlags cs := rfl
    rw [first, ih, State.modBranch, getElem?_updateAt]
    cases s.branches[b]? with
    | none => by_cases same : c = b <;> simp [same]
    | some x =>
      by_cases same : c = b
      · subst same
        by_cases again : c ∈ cs <;> simp [again, Branch.cleared]
      · simp [same, Ne.symm same]

theorem clearFlags_branches (s : State) (reset : List Nat) :
    s.clearFlags reset = { s with branches := (s.clearFlags reset).branches } := by
  induction reset generalizing s with
  | nil => rfl
  | cons c cs ih =>
    have first : (s.clearFlags (c :: cs)) = (s.modBranch c Branch.cleared).clearFlags cs := rfl
    rw [first, ih]
    rfl

theorem mem_setMembers {n b : Nat} {w : Word} : b ∈ setMembers n w ↔ b < n ∧ w.getLsbD b = true := by
  simp [setMembers]

theorem getLsbD_of_small {w : Word} (small : w.toNat ≤ 15) {b : Nat} (high : 4 ≤ b) : w.getLsbD b = false := by
  have below : w.toNat < 2 ^ b := calc w.toNat < 2 ^ 4 := by omega
    _ ≤ 2 ^ b := Nat.pow_le_pow_right (by decide) high
  rw [BitVec.getLsbD, Nat.testBit_lt_two_pow below]

/-- The reset set of SENSE BRANCHES, by its bits. -/
theorem mem_resetSet {w : Word} (small : w.toNat ≤ 15) (b : Nat) : b ∈ setMembers 4 w ↔ w.getLsbD b = true := by
  rw [mem_setMembers]
  refine ⟨fun h => h.2, fun bit => ⟨Classical.byContradiction fun high => ?_, bit⟩⟩
  rw [getLsbD_of_small small (Nat.not_lt.mp high)] at bit
  cases bit

theorem senseBranchesWords_eq (s : State) : senseBranchesWords s =
    [0, 1, 2, 3].flatMap (fun b =>
      let x := s.branches.getD b .atRest
      [x.state.word, if x.clash then 1 else 0, if x.timeout then 1 else 0, if x.excess then 1 else 0,
       wordOfNat x.lastCount, wordOfNat x.serial] ++ optWords (x.orig.map Originator.place) ++
        [if b ∈ s.owed then 1 else 0]) ++
    (match (generalizing := false) s.wire with
     | none => [0, 0, 0, 0]
     | some x => [1, x.order.kind.word, wordOfNat x.order.branch, wordOfNat x.order.orig.place]) ++
    wordOfNat s.orders.length ::
      s.orders.flatMap (fun o => [o.kind.word, wordOfNat o.branch, wordOfNat o.orig.place]) := by
  have mark (b : Bool) : markWord b = if b then 1 else 0 := by cases b <;> rfl
  have words : s.branchWords = fun b =>
      let x := s.branches.getD b .atRest
      [x.state.word, if x.clash then 1 else 0, if x.timeout then 1 else 0, if x.excess then 1 else 0,
       wordOfNat x.lastCount, wordOfNat x.serial] ++ optWords (x.orig.map Originator.place) ++
        [if b ∈ s.owed then 1 else 0] := by
    funext b
    simp only [State.branchWords, State.branch, mark, List.contains_iff_mem]
  rw [senseBranchesWords, words]
  rfl

/-! ### CLEAR BRANCH (R59) -/

/-- A branch on which no hang waits becomes IDLE (R60). -/
theorem tellIdle_none {s : State} {b : Nat} (nobody : ∀ e ∈ s.idleWaits, e.1 ≠ b) : s.tellIdle b = s := by
  have told : s.idleWaits.filter (fun e => decide (e.1 = b)) = [] :=
    List.filter_eq_nil_iff.mpr (fun e he => by simp [nobody e he])
  have left : s.idleWaits.filter (fun e => decide (e.1 ≠ b)) = s.idleWaits :=
    List.filter_eq_self.mpr (fun e he => by simp [nobody e he])
  rw [State.tellIdle, told, left]
  rfl

/-- Settles O36: each call reads the chain as it stands; a SWEEP joins the queue, and the transmitter takes what it can. -/
theorem chainCallsAnswer : Obligations.ChainCallsAnswer := by
  unfold Obligations.ChainCallsAnswer
  intro l f w s off_pl operands
  have one : hasLength 1 f.operands = true := hasLength_of operands
  refine ⟨fun takes => ?_, fun takes => ?_, fun takes unlocked => ?_⟩
  · have admits : s.Admits (bothRow 0x2B false false) l := admits_plain (permits_both off_pl)
    rw [exec_sweepNow, operands]
    refine ⟨fun beyond => congrArg _ (takeCall_declines takes admits one (if_pos beyond)), fun named full => ?_,
      fun x named room busy => ?_, fun x named free empty owed space at_b idle => ?_⟩
    · refine congrArg Host.Outcome.next (takeCall_declines takes admits one ?_)
      rw [ownSweepNow, if_neg (by omega), State.called_orders]
      exact if_pos full
    · refine congrArg Host.Outcome.next (takeCall_changes (fun u => { u with
        orders := s.orders ++ [⟨.sweep, w.toNat, .sweepNow⟩] }) (fun u => by cases l <;> rfl) takes admits one ?_)
      rw [ownSweepNow_queues named (by simpa using room), queueOrder_of_wire (w := x) (by simpa using busy), State.called_orders]
    · refine congrArg Host.Outcome.next (takeCall_changes (fun u => { u with
        branches := s.branches.set w.toNat { x with state := .starting, serial := (x.serial + 1) % 16, orig := some .sweepNow }
        wire := some ⟨⟨.sweep, w.toNat, .sweepNow⟩, false, false, false, 0, false, false, [], []⟩ })
        (fun u => by cases l <;> rfl) takes admits one ?_)
      rw [ownSweepNow_queues named (by simp [empty]), queueOrder_sweep (x := x) (by simpa using free) (by simpa using empty)
        (by simpa using owed) (by simpa using space) (by simpa using at_b) idle rfl, State.called_orders, State.called_branches,
        empty]
      rfl
  · have admits : s.Admits (bothRow 0x2C false false) l := admits_plain (permits_both off_pl)
    rw [exec_senseBranches, operands]
    refine ⟨fun beyond => ?_, fun small => ?_⟩
    · refine congrArg Host.Outcome.next (takeCall_declines takes admits one ?_)
      have bad : setOk 4 w = false := decide_eq_false (by omega)
      rw [ownSenseBranches, bad]
      rfl
    · have good : setOk 4 w = true := decide_eq_true (by omega)
      have words := senseBranchesWords_eq (s.called l)
      rw [State.called_branches, State.called_owed, State.called_wire, State.called_orders] at words
      have reads := takeCall_changes (c := bothRow 0x2C false false) (od := false) (len := hasLength 1)
        (own := ownSenseBranches [w]) (st := .ok) (ws := senseBranchesWords (s.called l))
        (fun u => { u with branches := ((s.called l).clearFlags (setMembers 4 w)).branches })
        (fun u => by cases l <;> rfl) takes admits one (by
          rw [ownSenseBranches, good, ← clearFlags_branches]
          rfl)
      rw [words] at reads
      refine ⟨_, congrArg Host.Outcome.next reads, rfl, fun b => ?_⟩
      dsimp only
      rw [getElem?_clearFlags, State.called_branches]
      refine congrArg (fun g => (s.branches[b]?).map g) (funext fun x => ?_)
      exact ite_congr_iff (mem_resetSet small b) rfl rfl
  · have admits : s.Admits (bothRow 0x2D false true) l :=
      ⟨permits_both off_pl, fun at_sl locked => (nomatch (unlocked at_sl).symm.trans locked), nofun⟩
    rw [exec_clearBranch, operands]
    refine ⟨fun beyond => congrArg _ (takeCall_declines takes admits one (if_pos beyond)), fun x named at_b works => ?_,
      fun x named at_b fault nobody quiet => ?_⟩
    · refine congrArg Host.Outcome.next (takeCall_answers takes admits one ?_)
      rw [ownClearBranch, if_neg (by omega), branch_of_getElem? (x := x) (by simpa using at_b)]
      exact congrArg _ (if_neg works)
    · refine congrArg Host.Outcome.next (takeCall_changes (fun u => { u with
        branches := s.branches.set w.toNat { x with state := .idle } }) (fun u => by cases l <;> rfl) takes admits one ?_)
      have at_b' : (s.called l).branches[w.toNat]? = some x := by simpa using at_b
      have clears := modBranch_of_getElem? at_b' (fun x => { x with state := .idle })
      rw [ownClearBranch, if_neg (by omega), branch_of_getElem? at_b', fault]
      refine congrArg (Answer.accept .ok _) ((if_pos rfl).trans ?_)
      rw [State.setBranchState, clears, tellIdle_none (by simpa using nobody), kick_quiescent, State.called_branches]
      rcases quiet with busy | empty
      · exact .inl (by simpa using busy)
      · exact .inr (by simpa using empty)

end Sys2Proof.Machine
end

section
/-! PROOFS. Sweeps and done reports (R43, R45, R52, R53, R55, R56). -/
namespace Sys2Proof.Machine

/-! ### The events' own tests -/

theorem wireOf_of_wire {s : State} {w : Wire} {b : Nat} (wire : s.wire = some w) (branch : w.order.branch = b) :
    s.wireOf b = some w := by
  rw [State.wireOf, wire]
  exact if_pos branch

theorem wireOf_eq_some {s : State} {w : Wire} {b : Nat} (on_b : s.wireOf b = some w) :
    s.wire = some w ∧ w.order.branch = b := by
  unfold State.wireOf at on_b
  cases wire : s.wire with
  | none => simp [wire] at on_b
  | some v =>
    simp only [wire] at on_b
    split at on_b
    · next branch =>
      cases on_b
      exact ⟨rfl, branch⟩
    · cases on_b

/-- A branch put in FAULT by a missing echo, its notice raised (R45). -/
def State.faulted (s : State) (b : Nat) (x : Branch) : State :=
  { s with
    branches := s.branches.set b { x with state := .fault, orig := none, sweepTimer := false }
    dl := s.dl.raise .branchFault, sl := s.sl.raise .branchFault }

/-- A branch put back to IDLE by its sweep timer, its notice raised (R55). -/
def State.timedOut (s : State) (b : Nat) (x : Branch) : State :=
  { s with
    branches := s.branches.set b { x with state := .idle, timeout := true, sweepTimer := false, orig := none }
    dl := s.dl.raise .sweepTimeout, sl := s.sl.raise .sweepTimeout }

section
variable {s : State} {w : Wire} {b : Nat} {x : Branch} (wire : s.wire = some w) (branch : w.order.branch = b)
  (at_b : s.branches[b]? = some x)
include wire

theorem exec_echoArrive {header : Word} (branch : w.order.branch = b) (at_b : s.branches[b]? = some x) :
    exec (.echoArrive b header) s = .next (
      if w.echoed = false ∧ header = headerWord w.order.kind x.serial then
        if w.order.kind = .sweep ∧ w.startPassed = true then s.enterSweeping b w.doneHeld
        else { s with wire := some { w with echoed := true } }
      else s) := by
  change execEchoArrive b header s = _
  rw [execEchoArrive, wireOf_of_wire wire branch, branch_of_getElem? at_b]

theorem exec_wireFault (silent : w.echoed = false) (branch : w.order.branch = b) (at_b : s.branches[b]? = some x) :
    exec .wireFault s = .next (
      if w.dropped then s.faulted b x else (s.faulted b x).tell w.order.orig b .branchFault).freeWire := by
  change execWireFault s = _
  subst branch
  rw [execWireFault, wire]
  dsimp only
  rw [silent, modBranch_of_getElem? at_b, raiseDlSl_eq]
  refine congrArg Host.Outcome.next ((if_neg Bool.false_ne_true).trans ?_)
  rfl

theorem exec_sweepStartPoint (kind : w.order.kind = .sweep) (early : w.startPassed = false) :
    exec .sweepStartPoint s = .next (
      if w.echoed then s.enterSweeping w.order.branch w.doneHeld
      else { s with wire := some { w with startPassed := true } }) := by
  change execSweepStartPoint s = _
  rw [execSweepStartPoint, wire]
  exact congrArg Host.Outcome.next (if_pos ⟨kind, early⟩)

end

theorem exec_doneReport {s : State} {b : Nat} {x : Branch} (at_b : s.branches[b]? = some x) (report : Word) :
    exec (.doneReport b report) s = .next (
      if report = doneWord x.serial then
        if x.state = .sweeping then s.takeDone b
        else match (generalizing := false) s.wireOf b with
          | none => s
          | some w =>
            if x.state = .starting ∧ w.order.kind = .sweep ∧ w.echoed = true then
              { s with wire := some { w with doneHeld := true } }
            else s
      else s) := by
  change execDoneReport b report s = _
  rw [execDoneReport, branch_of_getElem? at_b] <;> rfl

/-! ### The transmitter freed, and the automatic gather -/

theorem freeWire_of_empty {s : State} (empty : s.orders = []) : s.freeWire = { s with wire := none } :=
  kick_quiescent (.inr empty)

section
variable {s : State} {b : Nat} {x : Branch} {o : Originator}

theorem takeDone_eq (at_b : s.branches[b]? = some x) : s.takeDone b =
    ({ s with branches := s.branches.set b { x with state := .ready, sweepTimer := false } } : State).autoGather b := by
  rw [State.takeDone, modBranch_of_getElem? at_b]

theorem autoGather_owed (full : 8 ≤ s.orders.length ∨ s.owed ≠ []) : s.autoGather b = { s with owed := s.owed ++ [b] } := by
  refine if_neg (fun room => ?_)
  obtain ⟨few, none⟩ := room
  rcases full with full | owes
  · exact absurd few (Nat.not_lt.mpr full)
  · exact owes none

theorem autoGather_room (room : s.orders.length < 8) (owed : s.owed = []) (at_b : s.branches[b]? = some x)
    (orig : x.orig = some o) : s.autoGather b = s.queueOrder ⟨.gather, b, o⟩ := by
  rw [State.autoGather, if_pos ⟨room, owed⟩, gatherOrder_of_orig at_b orig]

theorem autoGather_free (free : s.wire = none) (empty : s.orders = []) (owed : s.owed = []) (space : s.spaceWaiters = [])
    (at_b : s.branches[b]? = some x) (orig : x.orig = some o) (ready : x.state = .ready) : s.autoGather b = { s with
      branches := s.branches.set b { x with state := .gathering }
      wire := some ⟨⟨.gather, b, o⟩, false, false, false, 0, false, false, [], []⟩ } := by
  have alone : (s.pushOrder ⟨.gather, b, o⟩).orders = [⟨.gather, b, o⟩] := by
    rw [State.pushOrder, empty]
    rfl
  rw [autoGather_room (by simp [empty]) owed at_b orig, State.queueOrder,
    kick_alone (s := s.pushOrder ⟨.gather, b, o⟩) free alone owed space
      (checkOrder_gather (s := { s.pushOrder ⟨.gather, b, o⟩ with orders := [] }) (o := ⟨.gather, b, o⟩) at_b ready rfl)
      (.inl nofun), ← empty]
  rfl

theorem getElem?_set_same {α : Type} {xs : List α} {i : Nat} {a : α} (at_i : xs[i]? = some a) (c : α) :
    (xs.set i c)[i]? = some c := by
  rw [List.getElem?_set_self (List.getElem?_eq_some_iff.mp at_i).1]

/-- A done report taken with the chain at rest: the branch's gather goes out (R53, R56). -/
theorem takeDone_free (free : s.wire = none) (empty : s.orders = []) (owed : s.owed = []) (space : s.spaceWaiters = [])
    (at_b : s.branches[b]? = some x) (orig : x.orig = some o) : s.takeDone b = { s with
      branches := s.branches.set b { x with state := .gathering, sweepTimer := false }
      wire := some ⟨⟨.gather, b, o⟩, false, false, false, 0, false, false, [], []⟩ } := by
  rw [takeDone_eq at_b, autoGather_free
    (s := { s with branches := s.branches.set b { x with state := .ready, sweepTimer := false } }) free empty owed space
    (getElem?_set_same at_b _) orig rfl]
  simp only [List.set_set]

/-- A done report taken while the transmitter is busy: the gather joins the queue, or is owed (R53, R56). -/
theorem takeDone_busy {w : Wire} (busy : s.wire = some w) (at_b : s.branches[b]? = some x) (orig : x.orig = some o) :
    s.takeDone b =
      (let t := { s with branches := s.branches.set b { x with state := .ready, sweepTimer := false } }
       if s.orders.length < 8 ∧ s.owed = [] then { t with orders := s.orders ++ [⟨.gather, b, o⟩] }
       else { t with owed := s.owed ++ [b] }) := by
  rw [takeDone_eq at_b]
  dsimp only
  split
  · next room =>
    obtain ⟨few, none⟩ := room
    have queues := autoGather_room (s := { s with branches := s.branches.set b { x with state := .ready, sweepTimer := false } })
      few none (getElem?_set_same at_b _) orig
    rw [queues]
    exact queueOrder_of_wire (s := { s with branches := s.branches.set b { x with state := .ready, sweepTimer := false } })
      (w := w) busy _
  · next full =>
    refine autoGather_owed ?_
    by_cases few : s.orders.length < 8
    · exact .inr (fun none => full ⟨few, none⟩)
    · exact .inl (Nat.not_lt.mp few)

theorem enterSweeping_eq (at_b : s.branches[b]? = some x) (held : Bool) : s.enterSweeping b held =
    (let t := ({ s with branches := s.branches.set b { x with state := .sweeping, sweepTimer := true } } : State).freeWire
     if held then t.takeDone b else t) := by
  rw [State.enterSweeping, modBranch_of_getElem? at_b]

theorem enterSweeping_empty (at_b : s.branches[b]? = some x) (empty : s.orders = []) : s.enterSweeping b false =
    { s with branches := s.branches.set b { x with state := .sweeping, sweepTimer := true }, wire := none } := by
  rw [enterSweeping_eq at_b, freeWire_of_empty
    (s := { s with branches := s.branches.set b { x with state := .sweeping, sweepTimer := true } }) empty]
  rfl

/-- A branch enters SWEEPING with its done report held (R53; log 22). -/
theorem enterSweeping_held (at_b : s.branches[b]? = some x) (orig : x.orig = some o) (owed : s.owed = [])
    (space : s.spaceWaiters = []) :
    (s.orders = [] → s.enterSweeping b true = { s with
      branches := s.branches.set b { x with state := .gathering, sweepTimer := false }
      wire := some ⟨⟨.gather, b, o⟩, false, false, false, 0, false, false, [], []⟩ }) ∧
    (∀ (q : Order) (y : Branch), s.orders = [q] → q.branch ≠ b → s.branches[q.branch]? = some y → y.state = .idle →
      q.kind = .rollCall → s.enterSweeping b true = { s with
        branches := (s.branches.set b { x with state := .ready, sweepTimer := false }).set q.branch
          { y with state := .calling }
        wire := some ⟨q, false, false, false, 0, false, false, [], []⟩, orders := [⟨.gather, b, o⟩] }) := by
  refine ⟨fun empty => ?_, fun q y alone other at_q idle kind => ?_⟩
  · rw [enterSweeping_eq at_b, freeWire_of_empty
      (s := { s with branches := s.branches.set b { x with state := .sweeping, sweepTimer := true } }) empty]
    refine (if_pos rfl).trans ?_
    rw [takeDone_free (s := { s with
      branches := s.branches.set b { x with state := .sweeping, sweepTimer := true }, wire := none })
      (x := { x with state := .sweeping, sweepTimer := true }) rfl empty owed space (getElem?_set_same at_b _) orig]
    simp only [List.set_set]
  · have at_q' : (s.branches.set b { x with state := .sweeping, sweepTimer := true })[q.branch]? = some y := by
      rw [List.getElem?_set_ne (Ne.symm other), at_q]
    have freed : ({ s with branches := s.branches.set b { x with state := .sweeping, sweepTimer := true } } : State).freeWire =
        { s with
          orders := []
          branches := (s.branches.set b { x with state := .sweeping, sweepTimer := true }).set q.branch
            { y with state := .calling }
          wire := some q.sent } :=
      kick_alone (s := { s with
        branches := s.branches.set b { x with state := .sweeping, sweepTimer := true }, wire := none }) rfl alone owed space
        (checkOrder_rollCall (s := { s with
          branches := s.branches.set b { x with state := .sweeping, sweepTimer := true }, wire := none, orders := [] })
          at_q' idle kind) (.inl nofun)
    have still : ((s.branches.set b { x with state := .sweeping, sweepTimer := true }).set q.branch
        { y with state := .calling })[b]? = some { x with state := .sweeping, sweepTimer := true } := by
      rw [List.getElem?_set_ne other, getElem?_set_same at_b]
    rw [enterSweeping_eq at_b, freed]
    refine (if_pos rfl).trans ((takeDone_busy (x := { x with state := .sweeping, sweepTimer := true }) (w := q.sent) rfl still
      orig).trans ?_)
    dsimp only
    rw [if_pos ⟨by simp, owed⟩, List.set_comm _ _ other, List.set_set, List.set_comm _ _ (Ne.symm other)]
    rw [List.set_comm _ _ other]
    rfl

end

/-! ### A wire fault and a sweep timeout (R45, R55) -/

theorem port_branches (s : State) (bs : List Branch) (l : Link) : State.port { s with branches := bs } l = s.port l := by
  cases l <;> rfl

/-- A hang told of the fault of its branch (R45, R69). -/
theorem wireFault_hang {s : State} {w : Wire} {b : Nat} {x : Branch} {l : Link} {j : Job} {h : HangWork}
    (wire : s.wire = some w) (branch : w.order.branch = b) (silent : w.echoed = false) (at_b : s.branches[b]? = some x)
    (empty : s.orders = []) (orig : w.order.orig = .hang l) (kept : w.dropped = false) (job : (s.port l).job = some j)
    (work : j.work = .hang h) (out : ∃ y ∈ h.branches, y.branch ≠ b ∧ y.outcome.isFinal = false) :
    exec .wireFault s = .next (
      let told := s.setPort l { s.port l with job := some { j with work := .hang { h with
        branches := h.branches.map (fun y => if y.branch = b then { y with outcome := .failed .branchFault } else y) } } }
      { told with
        branches := s.branches.set b { x with state := .fault, orig := none, sweepTimer := false }
        wire := none, dl := told.dl.raise .branchFault, sl := told.sl.raise .branchFault }) := by
  have runs : ((s.faulted b x).port l).job = some j := by
    rw [← job]
    cases l <;> rfl
  have tells := tell_hang_branchFault runs work b out
  rw [exec_wireFault wire silent branch at_b, orig, kept, if_neg Bool.false_ne_true, tells,
    freeWire_of_empty (s := (s.faulted b x).setPort l _) ((State.setPort_orders _ _ _).trans empty)]
  cases l <;> rfl

/-- A fault that no hang is told of (R45, R47). -/
theorem wireFault_sweeper {s : State} {w : Wire} {b : Nat} {x : Branch} (wire : s.wire = some w)
    (branch : w.order.branch = b) (silent : w.echoed = false) (at_b : s.branches[b]? = some x) (empty : s.orders = [])
    (sweeper : w.order.orig = .drift ∨ w.order.orig = .sweepNow ∨ w.dropped = true) : exec .wireFault s = .next { s with
      branches := s.branches.set b { x with state := .fault, orig := none, sweepTimer := false }
      wire := none
      awaiting := if w.order.orig = .drift ∧ w.dropped = false then s.awaiting.filter (fun a => decide (a ≠ b))
        else s.awaiting
      dl := s.dl.raise .branchFault, sl := s.sl.raise .branchFault } := by
  rw [exec_wireFault wire silent branch at_b]
  cases dropped : w.dropped with
  | true =>
    rw [if_pos rfl, if_neg (by simp), freeWire_of_empty (s := s.faulted b x) empty]
    rfl
  | false =>
    have orig : w.order.orig = .drift ∨ w.order.orig = .sweepNow := by simpa [dropped] using sweeper
    rw [if_neg Bool.false_ne_true, tell_sweeper _ _ orig (.inr (.inr (.inl rfl)))]
    refine congrArg Host.Outcome.next ((freeWire_of_empty (s := { s.faulted b x with
      awaiting := if w.order.orig = .drift then s.awaiting.filter (fun a => decide (a ≠ b)) else s.awaiting }) empty).trans ?_)
    simp only [and_true]
    rfl

theorem exec_sweepTimeout {s : State} {b : Nat} {x : Branch} (at_b : s.branches[b]? = some x) (sweeping : x.state = .sweeping) :
    exec (.sweepTimeout b) s = .next (
      ((match (generalizing := false) x.orig with
        | none => s.timedOut b x
        | some o => (s.timedOut b x).tell o b .timedOut).tellIdle b).kick) := by
  change execSweepTimeout b s = _
  rw [execSweepTimeout, branch_of_getElem? at_b, modBranch_of_getElem? at_b, raiseDlSl_eq]
  exact congrArg Host.Outcome.next ((if_pos sweeping).trans rfl)

theorem sweepTimeout_sweeper {s : State} {b : Nat} {x : Branch} (at_b : s.branches[b]? = some x)
    (sweeping : x.state = .sweeping) (nobody : ∀ e ∈ s.idleWaits, e.1 ≠ b) (quiet : s.wire ≠ none ∨ s.orders = [])
    (no_hang : ∀ l, x.orig ≠ some (.hang l)) : exec (.sweepTimeout b) s = .next { s with
      branches := s.branches.set b { x with state := .idle, timeout := true, sweepTimer := false, orig := none }
      awaiting := if x.orig = some .drift then s.awaiting.filter (fun a => decide (a ≠ b)) else s.awaiting
      dl := s.dl.raise .sweepTimeout, sl := s.sl.raise .sweepTimeout } := by
  have told : (match (generalizing := false) x.orig with
      | none => s.timedOut b x
      | some o => (s.timedOut b x).tell o b .timedOut) = { s.timedOut b x with
        awaiting := if x.orig = some .drift then s.awaiting.filter (fun a => decide (a ≠ b)) else s.awaiting } := by
    cases orig : x.orig with
    | none => rfl
    | some o =>
      have sweeper : o = .drift ∨ o = .sweepNow := by
        cases o with
        | hang l => exact absurd orig (no_hang l)
        | drift => exact .inl rfl
        | sweepNow => exact .inr rfl
      dsimp only
      rw [tell_sweeper _ _ sweeper (.inr (.inl rfl))]
      simp only [Option.some.injEq]
      rfl
  rw [exec_sweepTimeout at_b sweeping, told, tellIdle_none (s := { s.timedOut b x with
    awaiting := if x.orig = some .drift then s.awaiting.filter (fun a => decide (a ≠ b)) else s.awaiting }) nobody]
  exact congrArg Host.Outcome.next (kick_quiescent quiet)

/-! ### The obligation -/

/-- Settles O39: the wire's events in turn, each by the branch's state and the order on the wire. -/
theorem sweepEventsMoveTheBranch : Obligations.SweepEventsMoveTheBranch := by
  unfold Obligations.SweepEventsMoveTheBranch
  intro s b x at_b
  refine ⟨fun w wire branch silent => ⟨fun hw other => ?_, fun plain => ?_, fun empty sweeper => ?_,
      fun l j h empty orig kept job work _ out => ?_⟩,
    fun w wire branch kind empty held => ⟨fun early echoed => ?_, fun early silent => ?_, fun late silent => ?_⟩,
    fun w o c wire branch kind held orig owed space event => ?_, fun hw other => ?_,
    fun w wire branch kind starting echoed => ?_, fun off unheld => ?_,
    fun sweeping => ⟨fun o free empty owed space orig => ?_, fun full => ?_, fun w o busy orig => ?_,
      fun nobody quiet no_hang => ?_⟩⟩
  · rw [exec_echoArrive wire branch at_b, if_neg (fun h => other h.2)]
  · rw [exec_echoArrive wire branch at_b, if_pos ⟨silent, rfl⟩, if_neg (fun h => by
      rcases plain with other | early
      · exact other h.1
      · rw [early] at h; cases h.2)]
  · refine ⟨_, wireFault_sweeper wire branch silent at_b empty sweeper, hasFlag_raise_same _ _, hasFlag_raise_same _ _,
      fun n other => ⟨hasFlag_raise_other _ other, hasFlag_raise_other _ other⟩, rfl⟩
  · have flags (p : Port) (n : Notice) : (s.setPort l { s.port l with job := p.job }).dl.hasFlag n = s.dl.hasFlag n ∧
        (s.setPort l { s.port l with job := p.job }).sl.hasFlag n = s.sl.hasFlag n := by
      cases l <;> exact ⟨rfl, rfl⟩
    refine ⟨_, wireFault_hang wire branch silent at_b empty orig kept job work out, hasFlag_raise_same _ _,
      hasFlag_raise_same _ _, fun n other => ?_, rfl⟩
    have same := flags { s.port l with job := some { j with work := .hang { h with
      branches := h.branches.map (fun y => if y.branch = b then { y with outcome := .failed .branchFault } else y) } } } n
    exact ⟨(hasFlag_raise_other _ other).trans same.1, (hasFlag_raise_other _ other).trans same.2⟩
  · rw [exec_sweepStartPoint wire kind early, echoed, held, branch, if_pos rfl, enterSweeping_empty at_b empty]
  · rw [exec_sweepStartPoint wire kind early, silent, if_neg Bool.false_ne_true]
  · rw [exec_echoArrive wire branch at_b, kind, if_pos ⟨silent, rfl⟩, if_pos ⟨rfl, late⟩, held, enterSweeping_empty at_b empty]
  · have enters : exec c s = .next (s.enterSweeping b true) := by
      rcases event with ⟨rfl, early, echoed⟩ | ⟨rfl, late, silent⟩
      · rw [exec_sweepStartPoint wire kind early, echoed, held, branch, if_pos rfl]
      · rw [exec_echoArrive wire branch at_b, kind, if_pos ⟨silent, rfl⟩, if_pos ⟨rfl, late⟩, held]
    obtain ⟨at_rest, behind⟩ := enterSweeping_held at_b orig owed space
    exact ⟨fun empty => by rw [enters, at_rest empty],
      fun q y alone other at_q idle rolls => by rw [enters, behind q y alone other at_q idle rolls]⟩
  · rw [exec_doneReport at_b, if_neg other]
  · rw [exec_doneReport at_b, if_pos rfl, if_neg (by rw [starting]; nofun), wireOf_of_wire wire branch]
    exact congrArg Host.Outcome.next (if_pos ⟨starting, kind, echoed⟩)
  · rw [exec_doneReport at_b, if_pos rfl, if_neg off]
    cases on_b : s.wireOf b with
    | none => rfl
    | some w =>
      obtain ⟨wire, branch⟩ := wireOf_eq_some on_b
      refine congrArg Host.Outcome.next (if_neg (fun h => ?_))
      obtain ⟨starting, kind, echoed⟩ := h
      rw [unheld starting w wire branch kind] at echoed
      cases echoed
  · rw [exec_doneReport at_b, if_pos rfl, if_pos sweeping, takeDone_free free empty owed space at_b orig]
  · rw [exec_doneReport at_b, if_pos rfl, if_pos sweeping, takeDone_eq at_b]
    exact congrArg Host.Outcome.next (autoGather_owed full)
  · rw [exec_doneReport at_b, if_pos rfl, if_pos sweeping, takeDone_busy busy at_b orig]
  · exact ⟨_, sweepTimeout_sweeper at_b sweeping nobody quiet no_hang, hasFlag_raise_same _ _, hasFlag_raise_same _ _,
      fun n other => ⟨hasFlag_raise_other _ other, hasFlag_raise_other _ other⟩, rfl⟩

end Sys2Proof.Machine
end

section
/-! PROOFS. Answers and the ends of answer streams (R43, R50, R51, R57, R58). -/
namespace Sys2Proof.Machine

/-! ### What a gather result touches (R91, R94) -/

/-- `s` with the Tile Status table, the dirty set, the discard counter and the notices of DL and SL as `t` has them. -/
def State.gatheredFrom (s t : State) : State :=
  { s with
    tiles := t.tiles, dirty := t.dirty, resultsDiscarded := t.resultsDiscarded
    dl := { s.dl with flags := t.dl.flags }, sl := { s.sl with flags := t.sl.flags } }

theorem gatheredFrom_trans {s t u : State} (h : t = s.gatheredFrom t) (k : u = t.gatheredFrom u) : u = s.gatheredFrom u :=
  calc u = t.gatheredFrom u := k
    _ = (s.gatheredFrom t).gatheredFrom u := by rw [← h]
    _ = s.gatheredFrom u := rfl

theorem markTag_gatheredFrom (s : State) (tag : Nat) : s.markTag tag = s.gatheredFrom (s.markTag tag) := by
  unfold State.markTag
  split
  · split <;> rfl
  · rfl

theorem takeSample_gatheredFrom (a : State × List Nat) (x : Sample) :
    (takeSample a x).1 = a.1.gatheredFrom (takeSample a x).1 := by
  unfold takeSample
  split
  · rfl
  · split
    · rfl
    · exact gatheredFrom_trans (t := { a.1 with
        tiles := updateStatus (TileStatus.takeAnswer a.1.settings.depth x) x.tag a.1.tiles }) rfl (markTag_gatheredFrom _ _)

theorem takeSamples_gatheredFrom (xs : List Sample) (a : State × List Nat) :
    (xs.foldl takeSample a).1 = a.1.gatheredFrom (xs.foldl takeSample a).1 := by
  induction xs generalizing a with
  | nil => rfl
  | cons x xs ih => exact gatheredFrom_trans (takeSample_gatheredFrom a x) (ih (takeSample a x))

theorem missTag_gatheredFrom (s : State) (tag : Nat) : s.missTag tag = s.gatheredFrom (s.missTag tag) := by
  unfold State.missTag
  split
  · rfl
  · split
    · dsimp only
      split <;> rfl
    · rfl

theorem missTags_gatheredFrom (tags : List Nat) (s : State) :
    tags.foldl State.missTag s = s.gatheredFrom (tags.foldl State.missTag s) := by
  induction tags generalizing s with
  | nil => rfl
  | cons tag tags ih => exact gatheredFrom_trans (missTag_gatheredFrom s tag) (ih (s.missTag tag))

theorem useGather_gatheredFrom (s : State) (b : Nat) (xs : List Sample) : s.useGather b xs = s.gatheredFrom (s.useGather b xs) :=
  gatheredFrom_trans (takeSamples_gatheredFrom xs (s, [])) (missTags_gatheredFrom _ _)

/-! ### Answers (R44) -/

theorem nat32_ne_zero (hi lo : Word) : nat32 hi lo ≠ 0 ↔ hi ≠ 0 ∨ lo ≠ 0 := by
  have zero (w : Word) : w = 0 ↔ w.toNat = 0 := by
    rw [← BitVec.toNat_inj]
    rfl
  rw [nat32, ne_eq, ne_eq, ne_eq, zero hi, zero lo]
  omega

theorem rollAnswerOf_eq (hi lo bw c : Word) : rollAnswerOf [1, hi, lo, bw, c] =
    if c = 1 + hi + lo + bw ∧ (hi ≠ 0 ∨ lo ≠ 0) ∧ bw.toNat % 256 ≤ 15 ∧ bw.toNat / 256 % 4 ≤ 1 then
      some (hi.toNat * 65536 + lo.toNat, bw.toNat % 256, if bw.toNat / 256 % 4 = 0 then .normal else .turned)
    else none := by
  have sum : checkSum [1, hi, lo, bw] = 1 + hi + lo + bw := by simp [checkSum]
  rw [rollAnswerOf]
  simp only [sum, nat32_ne_zero, true_and]
  rfl

theorem sampleOf_eq (hi lo temp hours mark c : Word) : sampleOf [1, hi, lo, temp, hours, mark, c] =
    if c = 1 + hi + lo + temp + hours + mark ∧ (hi ≠ 0 ∨ lo ≠ 0) ∧ -400 ≤ temp.toInt ∧ temp.toInt ≤ 1250 then
      some ⟨hi.toNat * 65536 + lo.toNat, temp.toInt, hours.toNat, mark.getLsbD 0⟩
    else none := by
  have sum : checkSum [1, hi, lo, temp, hours, mark] = 1 + hi + lo + temp + hours + mark := by simp [checkSum]
  rw [sampleOf]
  simp only [sum, nat32_ne_zero, true_and, inRange, decide_eq_true_eq]
  rfl

section
variable {s : State} {w : Wire} {b : Nat} (wire : s.wire = some w) (branch : w.order.branch = b) (echoed : w.echoed = true)
include wire branch echoed

theorem exec_tileAnswer (rest : List Word) : exec (.tileAnswer b (1 :: rest)) s =
    .next { s with wire := some (w.takeAnswer (1 :: rest)) } := by
  change execTileAnswer b (1 :: rest) s = _
  unfold execTileAnswer
  rw [wireOf_of_wire wire branch]
  exact congrArg Host.Outcome.next (if_pos ⟨echoed, by decide⟩)

theorem exec_endMarker : exec (.endMarker b) s = .next (s.endStream w false) := by
  change execEndMarker b s = _
  rw [execEndMarker, wireOf_of_wire wire branch]
  exact congrArg Host.Outcome.next (if_pos echoed)

omit branch in
theorem exec_answerStreamBreak : exec .answerStreamBreak s = .next (s.endStream w true) := by
  change execAnswerStreamBreak s = _
  rw [execAnswerStreamBreak, wire]
  exact congrArg Host.Outcome.next (if_pos echoed)

end

theorem takeAnswer_rollCall {w : Wire} (kind : w.order.kind = .rollCall) (sound : w.bad = false) (words : List Word) :
    w.takeAnswer words = (match (generalizing := false) rollAnswerOf words with
      | none => { w with count := w.count + 1, bad := true }
      | some (tag, batch, o) => { w with
        count := w.count + 1
        rolls := if w.count < 128 then w.rolls ++ [⟨w.count, tag, batch, o⟩] else w.rolls }) := by
  rw [Wire.takeAnswer, kind, sound]
  exact if_neg Bool.false_ne_true

theorem takeAnswer_gather {w : Wire} (kind : w.order.kind = .gather) (words : List Word) :
    w.takeAnswer words = (match (generalizing := false) sampleOf words with
      | none => { w with count := w.count + 1 }
      | some x => { w with
        count := w.count + 1, samples := if w.count < 128 then w.samples ++ [x] else w.samples }) := by
  rw [Wire.takeAnswer, kind]
  rfl

/-! ### The end of a stream (R50, R51, R58) -/

/-- A branch at the end of an answer stream of `count` answers (R63). -/
def Branch.counted (x : Branch) (count : Nat) : Branch :=
  { x with state := .idle, lastCount := min count 128, excess := x.excess || decide (128 < count) }

theorem idle_counted {s : State} {b : Nat} {x : Branch} (at_b : s.branches[b]? = some x) (count : Nat) :
    (s.setBranchState b .idle).countAnswers b count = { s with branches := s.branches.set b (x.counted count) } := by
  rw [State.setBranchState, modBranch_of_getElem? at_b, State.countAnswers, modBranch_of_getElem? (s := { s with
    branches := s.branches.set b { x with state := .idle } }) (getElem?_set_same at_b _)]
  simp only [List.set_set]
  rfl

theorem endStream_rollCall {s : State} {w : Wire} {b : Nat} {x : Branch} (kind : w.order.kind = .rollCall)
    (branch : w.order.branch = b) (at_b : s.branches[b]? = some x) (broken : Bool) : s.endStream w broken =
      ((if w.dropped then ({ s with branches := s.branches.set b (x.counted w.count) } : State)
        else ({ s with branches := s.branches.set b (x.counted w.count) } : State).tell w.order.orig b
          (rollReport w broken)).tellIdle b).freeWire := by
  subst branch
  rw [State.endStream, kind, ← idle_counted at_b w.count]

theorem endStream_gather {s : State} {w : Wire} {b : Nat} {x : Branch} (kind : w.order.kind = .gather)
    (branch : w.order.branch = b) (at_b : (s.useGather b w.samples).branches[b]? = some x) (broken : Bool) :
    s.endStream w broken =
      ((({ s.useGather b w.samples with
        branches := (s.useGather b w.samples).branches.set b { x.counted w.count with orig := none } } : State).tell
          w.order.orig b (.gathered broken)).tellIdle b).freeWire := by
  subst branch
  rw [State.endStream, kind]
  dsimp only
  rw [modBranch_of_getElem? at_b, State.countAnswers, modBranch_of_getElem? (s := { s.useGather w.order.branch w.samples with
    branches := (s.useGather w.order.branch w.samples).branches.set w.order.branch { x with state := .idle, orig := none } })
    (getElem?_set_same at_b _)]
  simp only [List.set_set]
  rfl

/-- Settles O40: an answer is judged by its words; at the end the branch is IDLE, the originator is told, and the
transmitter is free. -/
theorem answerStreamsEnd : Obligations.AnswerStreamsEnd := by
  unfold Obligations.AnswerStreamsEnd
  intro s w b x wire branch echoed at_b
  refine ⟨fun hi lo bw kind sound => ?_, fun hi lo temp hours mark kind => ?_, fun empty nobody => ?_⟩
  · intro check good
    refine ⟨fun fits => ?_, fun c bad => ?_⟩
    · rw [exec_tileAnswer wire branch echoed, takeAnswer_rollCall kind sound, rollAnswerOf_eq, if_pos ⟨rfl, fits⟩]
    · rw [exec_tileAnswer wire branch echoed, takeAnswer_rollCall kind sound, rollAnswerOf_eq,
        if_neg (fun h => bad.elim (fun other => other h.1) (fun unfit => unfit h.2))]
  · intro check good
    refine ⟨fun fits => ?_, fun c bad => ?_⟩
    · rw [exec_tileAnswer wire branch echoed, takeAnswer_gather kind, sampleOf_eq, if_pos ⟨rfl, fits⟩]
    · rw [exec_tileAnswer wire branch echoed, takeAnswer_gather kind, sampleOf_eq,
        if_neg (fun h => bad.elim (fun other => other h.1) (fun unfit => unfit h.2))]
  · intro ended
    have counted : x.counted w.count = ended := rfl
    have idled (t : State) (waits : t.idleWaits = s.idleWaits) (orders : t.orders = s.orders) :
        (t.tellIdle b).freeWire = { t with wire := none } := by
      rw [tellIdle_none (by rw [waits]; exact nobody), freeWire_of_empty (orders.trans empty)]
    refine ⟨fun kind dropped c event => ?_, fun l j h kind kept orig job work _ out broken => ?_, fun kind orig c event => ?_⟩
    · have ends : ∃ broken, exec c s = .next (s.endStream w broken) := by
        rcases event with rfl | rfl
        · exact ⟨false, exec_endMarker wire branch echoed⟩
        · exact ⟨true, exec_answerStreamBreak wire echoed⟩
      obtain ⟨broken, ends⟩ := ends
      rw [ends, endStream_rollCall kind branch at_b, dropped, counted, if_pos rfl, idled { s with
        branches := s.branches.set b ended } rfl rfl]
    · have ends : exec (if broken then .answerStreamBreak else .endMarker b) s = .next (s.endStream w broken) := by
        cases broken
        · exact exec_endMarker wire branch echoed
        · exact exec_answerStreamBreak wire echoed
      have runs : (State.port { s with branches := s.branches.set b ended } l).job = some j := by rw [port_branches, job]
      have told : ({ s with branches := s.branches.set b ended } : State).tell (.hang l) b (rollReport w broken) =
          ({ s with branches := s.branches.set b ended } : State).setPort l { s.port l with
            job := some { j with work := .hang { h with branches := h.branches.map (fun y =>
              if y.branch = b then
                (if w.bad then { y with outcome := .failed .badAnswer }
                 else if broken then { y with outcome := .failed .broken }
                 else { y with outcome := .reported, list := w.rolls, excess := decide (128 < w.count) })
              else y) } } } := by
        rw [rollReport]
        cases bad : w.bad with
        | true => exact (hangOutcome_calling runs work b _ out).trans (by rw [port_branches]; rfl)
        | false =>
          cases broken with
          | true => exact (hangOutcome_calling runs work b _ out).trans (by rw [port_branches]; rfl)
          | false => exact (hangOutcome_calling runs work b _ out).trans (by rw [port_branches]; rfl)
      rw [ends, endStream_rollCall kind branch at_b, kept, counted, if_neg Bool.false_ne_true, orig, told,
        idled (({ s with branches := s.branches.set b ended } : State).setPort l _) (State.setPort_idleWaits _ _ _)
          (State.setPort_orders _ _ _)]
      cases l <;> rfl
    · have ends : ∃ broken, exec c s = .next (s.endStream w broken) := by
        rcases event with rfl | rfl
        · exact ⟨false, exec_endMarker wire branch echoed⟩
        · exact ⟨true, exec_answerStreamBreak wire echoed⟩
      obtain ⟨broken, ends⟩ := ends
      have touched := useGather_gatheredFrom s b w.samples
      have branches : (s.useGather b w.samples).branches = s.branches := by rw [touched]; rfl
      have awaiting : (s.useGather b w.samples).awaiting = s.awaiting := by rw [touched]; rfl
      have waits : (s.useGather b w.samples).idleWaits = s.idleWaits := by rw [touched]; rfl
      have orders : (s.useGather b w.samples).orders = s.orders := by rw [touched]; rfl
      refine ⟨_, by rw [ends, endStream_gather kind branch (by rw [branches, at_b])], ?_⟩
      rw [tell_sweeper _ _ orig (.inr (.inr (.inr ⟨broken, rfl⟩))), counted]
      refine (idled { s.useGather b w.samples with
        branches := (s.useGather b w.samples).branches.set b { ended with orig := none }
        awaiting := if w.order.orig = .drift then (s.useGather b w.samples).awaiting.filter (fun a => decide (a ≠ b))
          else (s.useGather b w.samples).awaiting } waits orders).trans ?_
      dsimp only
      rw [branches, awaiting]

end Sys2Proof.Machine
end

section
/-! PROOFS. A gather result's answers, one after another (R91 to R93, R95). -/
namespace Sys2Proof.Machine

/-! ### One entry of the Tile Status table -/

theorem statusOf_tag {tiles : List TileStatus} {tag : Nat} {st : TileStatus} (found : statusOf tiles tag = some st) :
    st.tag = tag := by
  simpa using List.find?_some found

theorem statusOf_updateStatus {f : TileStatus → TileStatus} (keep : ∀ x, (f x).tag = x.tag) (tiles : List TileStatus)
    (tag k : Nat) : statusOf (updateStatus f k tiles) tag = (statusOf tiles tag).map (fun t => if tag = k then f t else t) := by
  have keeps (x : TileStatus) : (if x.tag = k then f x else x).tag = x.tag := by
    split
    · exact keep x
    · rfl
  rw [updateStatus, statusOf_map keeps]
  cases found : statusOf tiles tag with
  | none => rfl
  | some st => simp only [Option.map_some, statusOf_tag found]

/-- The marking test of R95. -/
theorem marked_iff (deadband : Nat) (t : TileStatus) : t.marked deadband = true ↔ t.miss < 3 ∧
    ((∃ e, t.e = some e ∧ (t.ePosted = none ∨ ∃ q, t.ePosted = some q ∧ deadband ≤ (e - q).natAbs)) ∨
     (∃ h, t.h = some h ∧ (t.hPosted = none ∨ ∃ q, t.hPosted = some q ∧ q + 10 ≤ h))) := by
  unfold TileStatus.marked
  rw [Bool.and_eq_true, decide_eq_true_iff, Bool.or_eq_true]
  refine and_congr_right (fun _ => or_congr ?_ ?_)
  · cases t.e <;> cases t.ePosted <;> simp
  · cases t.h <;> cases t.hPosted <;> simp

/-! ### The first answers of a result -/

/-- The first answer for a tag. -/
def firstOf (xs : List Sample) (tag : Nat) : Option Sample := xs.find? (fun x => x.tag == tag)

theorem firstOf_append (xs : List Sample) (x : Sample) (tag : Nat) :
    firstOf (xs ++ [x]) tag = (firstOf xs tag).or (if x.tag = tag then some x else none) := by
  rw [firstOf, List.find?_append, firstOf]
  congr 1
  by_cases same : x.tag = tag <;> simp [same]

/-- The answer in place `k` is not used: its tag has no entry, or was answered before. -/
def unusedAt (tiles : List TileStatus) (xs : List Sample) (k : Nat) : Bool :=
  (xs[k]?).any (fun x => (statusOf tiles x.tag).isNone || (xs.take k).any (fun y => y.tag == x.tag))

theorem unusedAt_append {tiles : List TileStatus} {xs : List Sample} {x : Sample} {k : Nat} (below : k < xs.length) :
    unusedAt tiles (xs ++ [x]) k = unusedAt tiles xs k := by
  rw [unusedAt, unusedAt, List.getElem?_append_left below, List.take_append_of_le_length (Nat.le_of_lt below)]

theorem any_tag_eq (xs : List Sample) (tag : Nat) : xs.any (fun y => y.tag == tag) = (firstOf xs tag).isSome := by
  rw [firstOf, List.isSome_find?]

/-- How many answers of a result are not used. -/
def unusedCount (tiles : List TileStatus) (xs : List Sample) : Nat :=
  ((List.range xs.length).filter (unusedAt tiles xs)).length

theorem unusedCount_append (tiles : List TileStatus) (xs : List Sample) (x : Sample) : unusedCount tiles (xs ++ [x]) =
    unusedCount tiles xs + if (statusOf tiles x.tag).isNone || (firstOf xs x.tag).isSome then 1 else 0 := by
  have last : unusedAt tiles (xs ++ [x]) xs.length = ((statusOf tiles x.tag).isNone || (firstOf xs x.tag).isSome) := by
    rw [unusedAt, List.getElem?_concat_length, List.take_left, Option.any_some, any_tag_eq]
  have before : (List.range xs.length).filter (unusedAt tiles (xs ++ [x])) =
      (List.range xs.length).filter (unusedAt tiles xs) :=
    List.filter_congr (fun k hk => unusedAt_append (List.mem_range.mp hk))
  rw [unusedCount, List.length_append, List.length_singleton, List.range_succ, List.filter_append, List.length_append, before,
    unusedCount]
  congr 1
  rw [List.filter_cons, last, List.filter_nil]
  cases (statusOf tiles x.tag).isNone || (firstOf xs x.tag).isSome <;> rfl

/-- A 16-bit counter raised `n` times (R93). -/
def satAdd (c n : Nat) : Nat := if n = 0 then c else min 65535 (c + n)

theorem satAdd_succ (c n : Nat) : satSucc (satAdd c n) = satAdd c (n + 1) := by
  have most : Config.counterMax = 65535 := rfl
  rw [satSucc, satAdd, satAdd, most, if_neg (Nat.succ_ne_zero n)]
  by_cases zero : n = 0
  · subst zero
    simp only [if_true]
    split <;> omega
  · rw [if_neg zero]
    split <;> omega

/-! ### Marking (R95) -/

theorem markTag_eq (s : State) (tag : Nat) : s.markTag tag = { s with dirty := (s.markTag tag).dirty } := by
  unfold State.markTag
  split
  · split <;> rfl
  · rfl

theorem mem_dirty_markTag (s : State) (tag i : Nat) : i ∈ (s.markTag tag).dirty ↔ i ∈ s.dirty ∨
    ∃ st, statusOf s.tiles tag = some st ∧ s.positionOf tag = some i ∧ st.marked s.settings.deadband = true := by
  unfold State.markTag
  cases statusOf s.tiles tag with
  | none => simp
  | some st =>
    cases s.positionOf tag with
    | none => simp
    | some k =>
      by_cases marked : st.marked s.settings.deadband = true
      · dsimp only
        rw [if_pos marked]
        rw [mem_insertAsc, or_comm]
        exact or_congr_right ⟨fun same => ⟨st, rfl, congrArg some same.symm, marked⟩,
          fun ⟨_, _, same, _⟩ => (Option.some.inj same).symm⟩
      · dsimp only
        rw [if_neg marked]
        simp [marked]

/-! ### The fold over the answers -/

/-- What the answers `xs` make of the state `s`, and the tags they have answered. -/
structure State.Answered (s : State) (xs : List Sample) (a : State × List Nat) : Prop where
  tags : a.1.tiles.map TileStatus.tag = s.tiles.map TileStatus.tag
  status : ∀ tag, statusOf a.1.tiles tag = (statusOf s.tiles tag).map (fun st =>
    ((firstOf xs tag).map (fun x => st.takeAnswer s.settings.depth x)).getD st)
  answered : ∀ tag, tag ∈ a.2 ↔ (statusOf s.tiles tag).isSome = true ∧ (firstOf xs tag).isSome = true
  dirty : ∀ i, i ∈ a.1.dirty ↔ i ∈ s.dirty ∨ ∃ x st, firstOf xs x.tag = some x ∧ statusOf s.tiles x.tag = some st ∧
    s.positionOf x.tag = some i ∧ (st.takeAnswer s.settings.depth x).marked s.settings.deadband = true
  discarded : a.1.resultsDiscarded = satAdd s.resultsDiscarded (unusedCount s.tiles xs)
  kept : a.1 = { s with tiles := a.1.tiles, dirty := a.1.dirty, resultsDiscarded := a.1.resultsDiscarded }

theorem answered_nil (s : State) : s.Answered [] (s, []) := {
  tags := rfl
  status := fun tag => by simp [firstOf]
  answered := fun tag => by simp [firstOf]
  dirty := fun i => by simp [firstOf]
  discarded := rfl
  kept := rfl }

/-- An answer that is not used counts as discarded, and is no first one that counts. -/
theorem State.Answered.discard {s : State} {xs : List Sample} {a : State × List Nat} (h : s.Answered xs a) {x : Sample}
    (unused : (statusOf s.tiles x.tag).isNone = true ∨ (firstOf xs x.tag).isSome = true) :
    s.Answered (xs ++ [x]) ({ a.1 with resultsDiscarded := satSucc a.1.resultsDiscarded }, a.2) := by
  have first (tag : Nat) (st : TileStatus) (found : statusOf s.tiles tag = some st) :
      firstOf (xs ++ [x]) tag = firstOf xs tag := by
    rw [firstOf_append]
    by_cases same : x.tag = tag
    · subst same
      rcases unused with none | some
      · rw [found] at none
        cases none
      · obtain ⟨y, hy⟩ := Option.isSome_iff_exists.mp some
        rw [hy, Option.some_or]
    · rw [if_neg same, Option.or_none]
  exact {
    tags := h.tags
    status := fun tag => by
      rw [h.status]
      cases found : statusOf s.tiles tag with
      | none => rfl
      | some st => rw [Option.map_some, Option.map_some, first tag st found]
    answered := fun tag => by
      rw [h.answered]
      refine and_congr_right (fun some => ?_)
      obtain ⟨st, found⟩ := Option.isSome_iff_exists.mp some
      rw [first tag st found]
    dirty := fun i => by
      rw [h.dirty]
      refine or_congr_right (exists_congr fun y => exists_congr fun st => ?_)
      constructor
      · rintro ⟨at_first, found, place, marked⟩
        exact ⟨(first _ st found).trans at_first, found, place, marked⟩
      · rintro ⟨at_first, found, place, marked⟩
        exact ⟨(first _ st found).symm.trans at_first, found, place, marked⟩
    discarded := by
      dsimp only
      rw [h.discarded, unusedCount_append, if_pos (by simpa using unused), satAdd_succ]
    kept := by rw [h.kept] }

/-- The first answer for an entry is taken (R92). -/
theorem State.Answered.take {s : State} {xs : List Sample} {a : State × List Nat} (h : s.Answered xs a) {x : Sample}
    {st : TileStatus} (found : statusOf s.tiles x.tag = some st) (fresh : firstOf xs x.tag = none) :
    s.Answered (xs ++ [x]) (({ a.1 with tiles := updateStatus (TileStatus.takeAnswer a.1.settings.depth x) x.tag a.1.tiles } :
      State).markTag x.tag, a.2 ++ [x.tag]) := by
  have settings : a.1.settings = s.settings := by rw [h.kept]
  have positions (T : List TileStatus) (tag : Nat) : State.positionOf { a.1 with tiles := T } tag = s.positionOf tag := by
    rw [h.kept]
    rfl
  have mark := markTag_eq { a.1 with tiles := updateStatus (TileStatus.takeAnswer a.1.settings.depth x) x.tag a.1.tiles } x.tag
  have tiles := congrArg State.tiles mark
  have discarded := congrArg State.resultsDiscarded mark
  have status (tag : Nat) : statusOf (updateStatus (TileStatus.takeAnswer a.1.settings.depth x) x.tag a.1.tiles) tag =
      (statusOf s.tiles tag).map (fun st =>
        ((firstOf (xs ++ [x]) tag).map (fun y => st.takeAnswer s.settings.depth y)).getD st) := by
    rw [statusOf_updateStatus (takeAnswer_tag _ _), h.status, settings, firstOf_append, Option.map_map]
    refine congrArg (fun g => (statusOf s.tiles tag).map g) (funext fun st => ?_)
    by_cases same : x.tag = tag
    · subst same
      simp [fresh]
    · simp [same, Ne.symm same]
  have first (y : Sample) : firstOf (xs ++ [x]) y.tag = some y ↔ firstOf xs y.tag = some y ∨ y = x := by
    rw [firstOf_append]
    by_cases same : x.tag = y.tag
    · rw [← same, fresh]
      simp [eq_comm]
    · have apart : y ≠ x := fun h => same (h ▸ rfl)
      simp [same, apart]
  exact {
    tags := by
      rw [tiles]
      exact (tags_updateStatus _ (takeAnswer_tag _ _) _ _).trans h.tags
    status := fun tag => by
      rw [tiles]
      exact status tag
    answered := fun tag => by
      rw [List.mem_append, List.mem_singleton, h.answered, firstOf_append]
      by_cases same : x.tag = tag
      · subst same
        simp [found]
      · simp [same, Ne.symm same]
    dirty := fun i => by
      rw [mem_dirty_markTag, h.dirty, positions, status, found]
      dsimp only [Option.map_some]
      rw [(first x).mpr (.inr rfl), settings, or_assoc]
      refine or_congr_right ?_
      constructor
      · rintro (⟨y, st', at_first, rest⟩ | ⟨st', new, place, marked⟩)
        · exact ⟨y, st', (first y).mpr (.inl at_first), rest⟩
        · cases new
          exact ⟨x, st, (first x).mpr (.inr rfl), found, place, marked⟩
      · rintro ⟨y, st', at_first, found', rest⟩
        rcases (first y).mp at_first with before | rfl
        · exact .inl ⟨y, st', before, found', rest⟩
        · cases found.symm.trans found'
          exact .inr ⟨_, rfl, rest⟩
    discarded := by
      refine discarded.trans (h.discarded.trans ?_)
      rw [unusedCount_append, found, fresh]
      rfl
    kept := by
      rw [mark, h.kept] }

theorem answered_foldl (s : State) (xs : List Sample) : s.Answered xs (xs.foldl takeSample (s, [])) := by
  induction xs using snoc_induction with
  | nil => exact answered_nil s
  | snoc xs x ih =>
    rw [List.foldl_append, List.foldl_cons, List.foldl_nil]
    generalize xs.foldl takeSample (s, []) = a at ih ⊢
    have status := ih.status x.tag
    unfold takeSample
    cases found : statusOf s.tiles x.tag with
    | none =>
      rw [found] at status
      rw [status]
      exact ih.discard (.inl (by rw [found]; rfl))
    | some st =>
      rw [found] at status
      rw [status]
      dsimp only [Option.map_some]
      by_cases again : (firstOf xs x.tag).isSome = true
      · rw [if_pos (by rw [List.contains_iff_mem, ih.answered, found]; exact ⟨rfl, again⟩)]
        exact ih.discard (.inr again)
      · rw [if_neg (by rw [List.contains_iff_mem, ih.answered]; exact fun h => again h.2)]
        exact ih.take found (by simpa using again)

end Sys2Proof.Machine
end

section
/-! PROOFS. The tags a gather missed (R94), and the whole of a gather result (R91). -/
namespace Sys2Proof.Machine

/-! ### Misses -/

/-- An entry after `n` misses (R94). -/
def TileStatus.missed (st : TileStatus) (n : Nat) : TileStatus :=
  if st.miss < 3 then { st with miss := min 3 (st.miss + n) } else st

theorem missed_zero (st : TileStatus) : st.missed 0 = st := by
  rw [TileStatus.missed]
  split
  · next below => rw [Nat.add_zero, Nat.min_eq_right (by omega)]
  · rfl

theorem missed_add (st : TileStatus) (m n : Nat) : (st.missed m).missed n = st.missed (m + n) := by
  unfold TileStatus.missed
  by_cases below : st.miss < 3
  · rw [if_pos below, if_pos below]
    dsimp only
    by_cases more : min 3 (st.miss + m) < 3
    · rw [if_pos more]
      congr 1
      omega
    · rw [if_neg more]
      congr 1
      omega
  · rw [if_neg below, if_neg below, if_neg below]

/-- What misses of the tags `ms` make of the state `s`. -/
structure State.Missed (s t : State) (ms : List Nat) : Prop where
  tags : t.tiles.map TileStatus.tag = s.tiles.map TileStatus.tag
  status : ∀ tag, statusOf t.tiles tag = (statusOf s.tiles tag).map (fun st => st.missed (ms.count tag))
  dirty : t.dirty = s.dirty
  discarded : t.resultsDiscarded = s.resultsDiscarded
  mute : ∀ l, l ≠ .pl → ((t.port l).hasFlag .tileMute = true ↔ (s.port l).hasFlag .tileMute = true ∨
    ∃ tag st, statusOf s.tiles tag = some st ∧ st.miss < 3 ∧ (st.missed (ms.count tag)).miss = 3)
  quiet : ∀ l n, n ≠ .tileMute → (t.port l).hasFlag n = (s.port l).hasFlag n

theorem missed_nil (s : State) : s.Missed s [] := {
  tags := rfl
  status := fun tag => by simp [missed_zero]
  dirty := rfl
  discarded := rfl
  mute := fun l _ => by
    refine ⟨.inl, fun h => h.resolve_right ?_⟩
    rintro ⟨tag, st, -, below, third⟩
    rw [List.count_nil, missed_zero] at third
    omega
  quiet := fun l n _ => rfl }

theorem missed_one {st : TileStatus} (below : st.miss < 3) : st.missed 1 = { st with miss := st.miss + 1 } := by
  rw [TileStatus.missed, if_pos below, Nat.min_eq_right (by omega)]

theorem missed_full {st : TileStatus} (full : ¬st.miss < 3) (n : Nat) : st.missed n = st := if_neg full

theorem count_singleton_eq (tag m : Nat) : [m].count tag = if tag = m then 1 else 0 := by
  rw [List.count_singleton]
  by_cases same : tag = m
  · simp [same]
  · simp [same, Ne.symm same]

/-- A miss that changes no entry (R94). -/
theorem missed_unchanged {s : State} {m : Nat} (full : ∀ st, statusOf s.tiles m = some st → ¬st.miss < 3) :
    s.Missed s [m] := by
  have same (tag : Nat) (st : TileStatus) (found : statusOf s.tiles tag = some st) : st.missed ([m].count tag) = st := by
    rw [count_singleton_eq]
    by_cases at_m : tag = m
    · subst at_m
      exact missed_full (full st found) _
    · rw [if_neg at_m, missed_zero]
  exact {
    tags := rfl
    status := fun tag => by
      cases found : statusOf s.tiles tag with
      | none => rfl
      | some st => rw [Option.map_some, same tag st found]
    dirty := rfl
    discarded := rfl
    mute := fun l _ => by
      refine ⟨.inl, fun h => h.resolve_right ?_⟩
      rintro ⟨tag, st, found, below, third⟩
      rw [same tag st found] at third
      omega
    quiet := fun l n _ => rfl }

/-- The notice of a third miss (R94). -/
theorem hasFlag_mute (s : State) (raises : Prop) [Decidable raises] (l : Link) (n : Notice) :
    ((if raises then s.raiseDlSl .tileMute else s).port l).hasFlag n =
      ((s.port l).hasFlag n || decide (raises ∧ l ≠ .pl ∧ n = .tileMute)) := by
  by_cases h : raises
  · rw [if_pos h, raiseDlSl_eq]
    cases l with
    | pl => simp [State.port]
    | dl =>
      refine (hasFlag_raise _ _ _).trans ?_
      simp [h, State.port]
    | sl =>
      refine (hasFlag_raise _ _ _).trans ?_
      simp [h, State.port, eq_comm]
  · rw [if_neg h]
    simp [h]

/-- One tag's miss (R94). -/
theorem missed_missTag (s : State) (m : Nat) : s.Missed (s.missTag m) [m] := by
  unfold State.missTag
  cases found : statusOf s.tiles m with
  | none => exact missed_unchanged (fun st here => by rw [found] at here; cases here)
  | some t =>
    dsimp only
    by_cases below : t.miss < 3
    · rw [if_pos below]
      generalize missed_tiles : updateStatus (fun t => { t with miss := t.miss + 1 }) m s.tiles = tiles
      have status (tag : Nat) : statusOf tiles tag = (statusOf s.tiles tag).map (fun st => st.missed ([m].count tag)) := by
        rw [← missed_tiles, statusOf_updateStatus (f := fun t => { t with miss := t.miss + 1 }) (fun _ => rfl), count_singleton_eq]
        by_cases at_m : tag = m
        · subst at_m
          simp [found, missed_one below]
        · simp [at_m, missed_zero]
      have third : (∃ tag st, statusOf s.tiles tag = some st ∧ st.miss < 3 ∧ (st.missed ([m].count tag)).miss = 3) ↔
          t.miss = 2 := by
        constructor
        · rintro ⟨tag, st, found', below', third⟩
          rw [count_singleton_eq] at third
          by_cases at_m : tag = m
          · subst at_m
            cases found.symm.trans found'
            rw [if_pos rfl, missed_one below] at third
            dsimp only at third
            omega
          · rw [if_neg at_m, missed_zero] at third
            omega
        · intro two
          refine ⟨m, t, found, below, ?_⟩
          rw [count_singleton_eq, if_pos rfl, missed_one below, two]
      have port (l : Link) : State.port { s with tiles := tiles } l = s.port l := by cases l <;> rfl
      have kept : (if t.miss = 2 then State.raiseDlSl { s with tiles := tiles } .tileMute else { s with tiles := tiles }).tiles =
          tiles ∧ (if t.miss = 2 then State.raiseDlSl { s with tiles := tiles } .tileMute else { s with tiles := tiles }).dirty =
          s.dirty ∧ (if t.miss = 2 then State.raiseDlSl { s with tiles := tiles } .tileMute
            else { s with tiles := tiles }).resultsDiscarded = s.resultsDiscarded := by
        split <;> exact ⟨rfl, rfl, rfl⟩
      obtain ⟨at_tiles, at_dirty, at_discarded⟩ := kept
      exact {
        tags := by
          rw [at_tiles, ← missed_tiles]
          exact tags_updateStatus (fun t => { t with miss := t.miss + 1 }) (fun _ => rfl) m s.tiles
        status := fun tag => by rw [at_tiles, status]
        dirty := at_dirty
        discarded := at_discarded
        mute := fun l off_pl => by
          rw [hasFlag_mute, port, third]
          simp [off_pl]
        quiet := fun l n other => by
          rw [hasFlag_mute, port]
          simp [other] }
    · rw [if_neg below]
      refine missed_unchanged (fun st here => ?_)
      cases found.symm.trans here
      exact below

theorem State.Missed.trans {s t u : State} {m : Nat} {ms : List Nat} (h : s.Missed t [m]) (k : t.Missed u ms) :
    s.Missed u (m :: ms) := by
  have count (tag : Nat) : (m :: ms).count tag = [m].count tag + ms.count tag := List.count_append (l₁ := [m]) (l₂ := ms)
  exact {
    tags := k.tags.trans h.tags
    status := fun tag => by
      rw [k.status, h.status, Option.map_map, count]
      exact congrArg (fun g => (statusOf s.tiles tag).map g) (funext fun st => missed_add st _ _)
    dirty := k.dirty.trans h.dirty
    discarded := k.discarded.trans h.discarded
    mute := fun l off_pl => by
      rw [k.mute l off_pl, h.mute l off_pl, or_assoc]
      refine or_congr_right ?_
      constructor
      · rintro (⟨tag, st, found, below, third⟩ | ⟨tag, st, found, below, third⟩)
        · refine ⟨tag, st, found, below, ?_⟩
          rw [count, ← missed_add, TileStatus.missed, third]
          exact third
        · rw [h.status] at found
          obtain ⟨st', found', rfl⟩ := Option.map_eq_some_iff.mp found
          refine ⟨tag, st', found', Classical.byContradiction fun high => ?_, by rw [count, ← missed_add]; exact third⟩
          rw [TileStatus.missed, if_neg high] at below
          exact high below
      · rintro ⟨tag, st, found, below, third⟩
        rw [count, ← missed_add] at third
        by_cases first : (st.missed ([m].count tag)).miss = 3
        · exact .inl ⟨tag, st, found, below, first⟩
        · refine .inr ⟨tag, st.missed ([m].count tag), by rw [h.status, found]; rfl, ?_, third⟩
          rw [TileStatus.missed, if_pos below] at first ⊢
          dsimp only at first ⊢
          omega
    quiet := fun l n other => (k.quiet l n other).trans (h.quiet l n other) }

theorem missed_foldl (ms : List Nat) (s : State) : s.Missed (ms.foldl State.missTag s) ms := by
  induction ms generalizing s with
  | nil => exact missed_nil s
  | cons m ms ih => exact (missed_missTag s m).trans (ih (s.missTag m))

/-! ### The tags missed -/

theorem count_filterMap_ite {α : Type} (f : α → Option Nat) (xs : List α) (tag : Nat) :
    (xs.filterMap f).count tag = (xs.filter (fun x => decide (f x = some tag))).length := by
  induction xs with
  | nil => rfl
  | cons x xs ih =>
    cases fx : f x with
    | none => simp [fx, ih]
    | some k =>
      by_cases same : k = tag
      · simp [fx, same, ih]
      · simp [fx, same, ih]

/-- How often a tag is missed: once for each position it occupies on the branch, unless it was answered. -/
theorem count_missedTags (live : List Position) (b : Nat) (answered : List Nat) (tag : Nat) :
    (missedTags live b answered).count tag = if tag ∈ answered then 0 else
      (live.filter (fun p => decide (p.hung.occupant.map (fun u => (u.tag, u.branch)) = some (tag, b)))).length := by
  rw [missedTags, count_filterMap_ite]
  by_cases listed : tag ∈ answered
  · rw [if_pos listed, List.length_eq_zero_iff, List.filter_eq_nil_iff]
    intro p _
    cases p.hung.occupant with
    | none => simp
    | some u =>
      simp only [decide_eq_true_eq]
      split
      · next missed =>
        rintro ⟨⟩
        rw [List.contains_iff_mem.mpr listed] at missed
        cases missed.2
      · nofun
  · rw [if_neg listed]
    refine congrArg List.length (List.filter_congr (fun p _ => ?_))
    rw [decide_eq_decide]
    cases p.hung.occupant with
    | none => simp
    | some u =>
      simp only [Option.map_some, Option.some.injEq, Prod.mk.injEq]
      by_cases same : u.tag = tag
      · subst same
        simp [listed]
      · split <;> simp [same]

/-- How often a gather result misses a tag. -/
def State.misses (s : State) (b : Nat) (xs : List Sample) (tag : Nat) : Nat :=
  if (firstOf xs tag).isSome then 0
  else (s.positions.filter (fun p =>
    decide (p.hung.occupant.map (fun u => (u.tag, u.branch)) = some (tag, b)))).length

/-- What a gather result makes of the state (R91 to R95). -/
structure State.Gathered (s t : State) (b : Nat) (xs : List Sample) : Prop where
  discarded : t.resultsDiscarded = satAdd s.resultsDiscarded (unusedCount s.tiles xs)
  tags : t.tiles.map TileStatus.tag = s.tiles.map TileStatus.tag
  answered : ∀ (x : Sample) (st : TileStatus), firstOf xs x.tag = some x → statusOf s.tiles x.tag = some st →
    statusOf t.tiles x.tag = some (st.takeAnswer s.settings.depth x)
  missed : ∀ (tag : Nat) (st : TileStatus), firstOf xs tag = none → statusOf s.tiles tag = some st →
    statusOf t.tiles tag = some (st.missed (s.misses b xs tag))
  dirty : ∀ i, i ∈ t.dirty ↔ i ∈ s.dirty ∨ ∃ x st, firstOf xs x.tag = some x ∧ statusOf s.tiles x.tag = some st ∧
    s.positionOf x.tag = some i ∧ (st.takeAnswer s.settings.depth x).marked s.settings.deadband = true
  mute : ∀ l, l ≠ .pl → ((t.port l).hasFlag .tileMute = true ↔ (s.port l).hasFlag .tileMute = true ∨
    ∃ tag st, statusOf s.tiles tag = some st ∧ st.miss < 3 ∧ (st.missed (s.misses b xs tag)).miss = 3)
  quiet : ∀ l n, n ≠ .tileMute → (t.port l).hasFlag n = (s.port l).hasFlag n

theorem gathered_useGather (s : State) (b : Nat) (xs : List Sample) : s.Gathered (s.useGather b xs) b xs := by
  have answers := answered_foldl s xs
  have uses : s.useGather b xs = (missedTags (xs.foldl takeSample (s, [])).1.positions b (xs.foldl takeSample (s, [])).2).foldl
      State.missTag (xs.foldl takeSample (s, [])).1 := rfl
  rw [uses]
  generalize xs.foldl takeSample (s, []) = a at answers ⊢
  have positions : a.1.positions = s.positions := by rw [answers.kept]
  have port (l : Link) : a.1.port l = s.port l := by
    rw [answers.kept]
    cases l <;> rfl
  have misses := missed_foldl (missedTags a.1.positions b a.2) a.1
  have count (tag : Nat) (st : TileStatus) (found : statusOf s.tiles tag = some st) :
      (missedTags a.1.positions b a.2).count tag = s.misses b xs tag := by
    rw [count_missedTags, positions, State.misses]
    exact ite_congr_iff ((answers.answered tag).trans (by simp [found])) rfl rfl
  have answered_misses (tag : Nat) {x : Sample} (first : firstOf xs tag = some x) : s.misses b xs tag = 0 :=
    if_pos (by rw [first]; rfl)
  exact {
    discarded := misses.discarded.trans answers.discarded
    tags := misses.tags.trans answers.tags
    answered := fun x st first found => by
      rw [misses.status, answers.status, found, count _ _ found, first, answered_misses _ first]
      simp [missed_zero]
    missed := fun tag st none found => by
      rw [misses.status, answers.status, found, count _ _ found, none]
      rfl
    dirty := fun i => by rw [misses.dirty, answers.dirty]
    mute := fun l off_pl => by
      rw [misses.mute l off_pl, port]
      refine or_congr_right ⟨?_, ?_⟩
      · rintro ⟨tag, st', found', below, third⟩
        rw [answers.status] at found'
        obtain ⟨st, found, rfl⟩ := Option.map_eq_some_iff.mp found'
        rw [count tag st found] at third
        cases first : firstOf xs tag with
        | none =>
          rw [first] at below third
          exact ⟨tag, st, found, below, third⟩
        | some x =>
          rw [answered_misses tag first, missed_zero] at third
          omega
      · rintro ⟨tag, st, found, below, third⟩
        cases first : firstOf xs tag with
        | none =>
          refine ⟨tag, st, by rw [answers.status, found, first]; rfl, below, ?_⟩
          rw [count tag st found, third]
        | some x =>
          rw [answered_misses tag first, missed_zero] at third
          omega
    quiet := fun l n other => (misses.quiet l n other).trans (by rw [port]) }

end Sys2Proof.Machine
end

section
/-! PROOFS. Gather results and the Tile Status table (R91 to R95). -/
namespace Sys2Proof.Machine

/-- An answer taken for an entry (R92, R93). -/
theorem takeAnswer_eq (depth : Nat) (x : Sample) (st : TileStatus) : st.takeAnswer depth x =
    if x.fresh then { st with
      e := some (match st.e with
        | none => x.temp
        | some e => if st.miss = 3 then x.temp else e + (x.temp - e).tdiv (2 ^ depth))
      h := some x.hours, miss := 0, fresh := if st.fresh < 65535 then st.fresh + 1 else 65535 }
    else { st with h := some x.hours } := by
  unfold TileStatus.takeAnswer TileStatus.takeFresh
  cases x.fresh with
  | false => rfl
  | true =>
    cases st.e with
    | none => rfl
    | some e => by_cases mute : st.miss = 3 <;> simp [mute] <;> rfl

theorem takeAnswer_posted (depth : Nat) (x : Sample) (st : TileStatus) :
    (st.takeAnswer depth x).h = some x.hours ∧ (st.takeAnswer depth x).ePosted = st.ePosted ∧
      (st.takeAnswer depth x).hPosted = st.hPosted := by
  rw [takeAnswer_eq]
  split <;> exact ⟨rfl, rfl, rfl⟩

/-- The marking test on an entry that has just taken an answer. -/
theorem marked_takeAnswer (deadband depth : Nat) (x : Sample) (st : TileStatus) :
    (st.takeAnswer depth x).marked deadband = true ↔ (st.takeAnswer depth x).miss < 3 ∧
      ((∃ e, (st.takeAnswer depth x).e = some e ∧ (st.ePosted = none ∨ ∃ q, st.ePosted = some q ∧
          deadband ≤ (e - q).natAbs)) ∨
       (st.hPosted = none ∨ ∃ q, st.hPosted = some q ∧ q + 10 ≤ x.hours)) := by
  obtain ⟨hours, ePosted, hPosted⟩ := takeAnswer_posted depth x st
  rw [marked_iff, hours, ePosted, hPosted]
  simp only [Option.some.injEq, exists_eq_left']

theorem firstOf_single (x : Sample) (tag : Nat) : firstOf [x] tag = if x.tag = tag then some x else none := by
  exact firstOf_append [] x tag

theorem unusedCount_single (tiles : List TileStatus) (x : Sample) :
    unusedCount tiles [x] = if (statusOf tiles x.tag).isNone then 1 else 0 := by
  have from_nil := unusedCount_append tiles [] x
  simpa [unusedCount, firstOf] using from_nil

/-- The only position that a tag occupies. -/
theorem length_filter_of_only {live : List Position} {i : Nat} {p : Position} {u : TileAt} (at_i : live[i]? = some p)
    (occupied : p.hung.occupant = some u)
    (only : ∀ (j : Nat) (q : Position), live[j]? = some q → q.hung.tag = some u.tag → j = i) :
    (live.filter (fun p => decide (p.hung.occupant.map (fun v => (v.tag, v.branch)) = some (u.tag, u.branch)))).length = 1 := by
  have below : i < live.length := (List.getElem?_eq_some_iff.mp at_i).1
  have same : live[i] = p := (List.getElem?_eq_some_iff.mp at_i).2
  have cut : live = live.take i ++ p :: live.drop (i + 1) := by
    rw [← same, List.getElem_cons_drop, List.take_append_drop]
  have other (j : Nat) (q : Position) (at_j : live[j]? = some q) (apart : j ≠ i) :
      decide (q.hung.occupant.map (fun v => (v.tag, v.branch)) = some (u.tag, u.branch)) = false := by
    rw [decide_eq_false_iff_not]
    intro here
    obtain ⟨v, occupies, tag⟩ := Option.map_eq_some_iff.mp here
    refine apart (only j q at_j ?_)
    rw [Hung.tag, occupies, Option.map_some, (Prod.mk.inj tag).1]
  have before : (live.take i).filter
      (fun p => decide (p.hung.occupant.map (fun v => (v.tag, v.branch)) = some (u.tag, u.branch))) = [] := by
    refine List.filter_eq_nil_iff.mpr (fun q hq => ?_)
    obtain ⟨j, at_j⟩ := List.mem_iff_getElem?.mp hq
    rw [List.getElem?_take] at at_j
    split at at_j
    · next lt => rw [other j q at_j (by omega)]; simp
    · cases at_j
  have after : (live.drop (i + 1)).filter
      (fun p => decide (p.hung.occupant.map (fun v => (v.tag, v.branch)) = some (u.tag, u.branch))) = [] := by
    refine List.filter_eq_nil_iff.mpr (fun q hq => ?_)
    obtain ⟨j, at_j⟩ := List.mem_iff_getElem?.mp hq
    rw [List.getElem?_drop] at at_j
    rw [other _ q at_j (by omega)]
    simp
  rw [cut, List.filter_append, before, List.filter_cons, after, occupied]
  simp

/-- Settles O41: the answers in order (`answered_foldl`), then the tags that none of them named (`missed_foldl`). -/
theorem gatherResultsUpdateTheTable : Obligations.GatherResultsUpdateTheTable := by
  unfold Obligations.GatherResultsUpdateTheTable
  intro s b x
  have one := gathered_useGather s b [x]
  refine ⟨fun none => ?_, fun st found => ?_, fun i p u st at_i occupied on_b other found only => ?_, fun xs => ?_,
    fun xs => useGather_gatheredFrom s b xs⟩
  · rw [one.discarded, unusedCount_single, none]
    exact (satAdd_succ s.resultsDiscarded 0).symm
  · intro fresh new
    have taken : st.takeAnswer s.settings.depth x = new := takeAnswer_eq _ _ _
    have first : firstOf [x] x.tag = some x := by rw [firstOf_single, if_pos rfl]
    refine ⟨by rw [one.answered x st first found, taken], ?_, fun i => ?_⟩
    · rw [one.discarded, unusedCount_single, found]
      rfl
    · rw [one.dirty, ← marked_iff]
      refine or_congr_right ⟨?_, fun h => ⟨x, st, first, found, h.1, by rw [taken]; exact h.2⟩⟩
      rintro ⟨y, st', first', found', place, marked⟩
      rw [firstOf_single] at first'
      split at first'
      · cases first'
        cases found.symm.trans found'
        exact ⟨place, taken ▸ marked⟩
      · cases first'
  · have unanswered : firstOf [x] u.tag = none := by rw [firstOf_single, if_neg (Ne.symm other)]
    have once : s.misses b [x] u.tag = 1 := by
      rw [State.misses, unanswered, ← on_b]
      exact length_filter_of_only at_i occupied only
    have after := one.missed u.tag st unanswered found
    rw [once] at after
    refine ⟨?_, fun two => ?_⟩
    · rw [after]
      by_cases below : st.miss < 3
      · rw [missed_one below, if_pos below]
      · rw [missed_full below, if_neg below]
    · have third : ∃ tag st, statusOf s.tiles tag = some st ∧ st.miss < 3 ∧ (st.missed (s.misses b [x] tag)).miss = 3 :=
        ⟨u.tag, st, found, by omega, by rw [once, missed_one (by omega), two]⟩
      exact ⟨(one.mute .dl nofun).mpr (.inr third), (one.mute .sl nofun).mpr (.inr third)⟩
  · intro t first unused new unanswered missed
    have all := gathered_useGather s b xs
    have taken (x : Sample) (st : TileStatus) : st.takeAnswer s.settings.depth x = new x st := takeAnswer_eq _ _ _
    refine ⟨all.discarded, all.tags, fun x st at_first found => ?_, fun tag st none found => all.missed tag st none found,
      fun i => ?_, all.mute, all.quiet⟩
    · rw [← taken]
      exact all.answered x st at_first found
    · rw [all.dirty]
      refine or_congr_right (exists_congr fun x => exists_congr fun st => ?_)
      rw [marked_takeAnswer, taken]
      exact Iff.rfl

end Sys2Proof.Machine
end

section
/-! PROOFS. A record's PENDING flag re-evaluated (R37), a record marked DAMAGED (R20), and the lock an audit lets go
(R7). -/
namespace Sys2Proof.Machine

/-! ### PENDING re-evaluated for a tag -/

/-- Pending reasons are read off the pool's index and the working settings. -/
theorem pendingReason_congr {s t : State} (index : t.pool.index = s.pool.index) (settings : t.settings = s.settings)
    (p : Position) : t.pendingReason p = s.pendingReason p := by
  have conditions (tag : Nat) : t.condition tag = s.condition tag := by
    rw [State.condition, State.condition, State.findEntry, State.findEntry, index]
  have defaults (batch : Nat) : t.batchDefault batch = s.batchDefault batch := by
    rw [State.batchDefault, State.batchDefault, settings]
  have reasons (a : Adopted) : t.reasonOf a = s.reasonOf a := by
    rw [State.reasonOf, State.reasonOf, conditions, State.batchReason, State.batchReason, State.batchDiffers,
      State.batchDiffers, defaults]
  simp only [State.pendingReason, reasons]

/-- The positions with the PENDING flag of the one a tag occupies re-evaluated. -/
def State.refreshed (s : State) (tag : Nat) : List Position :=
  match s.positionOf tag with
  | none => s.positions
  | some i => updateAt (fun p => { p with pending := (s.pendingReason p).isSome }) i s.positions

theorem refreshTag_eq (s : State) (tag : Nat) : s.refreshTag tag = { s with positions := s.refreshed tag } := by
  unfold State.refreshTag State.refreshed
  cases s.positionOf tag <;> rfl

theorem length_refreshed (s : State) (tag : Nat) : (s.refreshed tag).length = s.positions.length := by
  unfold State.refreshed
  cases s.positionOf tag with
  | none => rfl
  | some i => exact length_updateAt _ i s.positions

theorem refreshed_at {s : State} {tag i : Nat} {p q : Position} (before : s.positions[i]? = some p)
    (after : (s.refreshed tag)[i]? = some q) :
    q = { p with pending := if s.positionOf tag = some i then (s.pendingReason p).isSome else p.pending } := by
  unfold State.refreshed at after
  cases found : s.positionOf tag with
  | none =>
    rw [found] at after
    rw [if_neg nofun]
    exact Option.some.inj (after.symm.trans before)
  | some k =>
    rw [found] at after
    dsimp only at after
    rw [getElem?_updateAt, before] at after
    by_cases same : k = i
    · rw [if_pos same] at after
      rw [if_pos (congrArg some same)]
      exact (Option.some.inj after).symm
    · rw [if_neg same] at after
      rw [if_neg fun h => same (Option.some.inj h)]
      exact (Option.some.inj after).symm

/-! ### A record marked DAMAGED -/

/-- The state with a record's status DAMAGED in both indexes. -/
def State.marksDamaged (s : State) (tag : Nat) : State :=
  { s with
    nv := { s.nv with index := s.nv.index.map (fun e => if e.tag = tag then { e with status := .damaged } else e) }
    pool := { s.pool with index := s.pool.index.map (fun e => if e.tag = tag then { e with status := .damaged } else e) } }

theorem damageRecord_eq (s : State) (tag : Nat) : s.damageRecord tag = { s.marksDamaged tag with
    positions := (s.marksDamaged tag).refreshed tag, sl := s.sl.raise .recordDamaged } := by
  rw [State.damageRecord]
  exact congrArg (State.raise · .sl .recordDamaged) (refreshTag_eq (s.marksDamaged tag) tag)

/-- Marking a record changes no tag. -/
theorem tag_of_mem_marked {s : State} {tag : Nat} {e : IndexEntry} (mem : e ∈ (s.marksDamaged tag).pool.index) :
    ∃ x ∈ s.pool.index, x.tag = e.tag := by
  obtain ⟨x, inIndex, rfl⟩ := List.mem_map.mp mem
  refine ⟨x, inIndex, ?_⟩
  split <;> rfl

/-! ### The lock an audit lets go -/

/-- An audit between two records locks none: of every tag but the one it was reading the locks are as before. -/
theorem isLocked_release {s u : State} {l : Link} {j : Job} {a b : AuditWork} {tag : Nat} (job : (s.port l).job = some j)
    (work : j.work = .audit a) (jobs : ∀ m, (u.port m).job = (s.port m).job) (orphan : u.nvPort.orphan = s.nvPort.orphan)
    (idle : b.reading = none) (other : a.reading.map AuditRead.tag ≠ some tag) :
    (u.setWork l (.audit b)).isLocked tag = s.isLocked tag := by
  rw [setWork_eq ((jobs l).trans job), Bool.eq_iff_iff, isLocked_setPort_iff, isLocked_iff, orphan]
  · refine or_congr ⟨fun ⟨m, k, _, runs, lock⟩ => ⟨m, k, jobs m ▸ runs, lock⟩, fun ⟨m, k, runs, lock⟩ => ?_⟩ Iff.rfl
    refine ⟨m, k, fun same => other ?_, (jobs m).trans runs, lock⟩
    subst same
    cases job.symm.trans runs
    rw [work] at lock
    exact lock
  · rintro _ ⟨⟩
    rw [JobWork.lock, idle]
    rfl

end Sys2Proof.Machine
end

section
/-! PROOFS. AUDIT_CHECK_READ_COMPLETE, AUDIT_STATUS_WRITE_COMPLETE and SETTINGS_CELL_WRITE_COMPLETE (O45). -/
namespace Sys2Proof.Machine

/-! ### One check read (R19) -/

/-- What a record being read holds in the groups to come, when the cell read fits it (R19). -/
def AuditRead.Fits (r : AuditRead) (good : Bool) (held : Option Group) (nvEntry volEntry : ChainEntry)
    (due : List CellKind) : Prop :=
  good = true ∧ volEntry = nvEntry ∧
    ((r.visited = [] ∧ ∃ batch base p, held = some (.head r.tag batch base p) ∧
        due = (if p.survey then [.survey] else []) ++ (if p.drift then [.drift] else []) ++
          (if p.trim then [.trim] else [])) ∨
      (r.visited ≠ [] ∧ ∃ g, held = some g ∧ r.expected = g.kind :: due))

/-- The cell the chain leads on to can belong to the record (R19). -/
def AuditRead.LeadsTo (r : AuditRead) (entry : ChainEntry) (retired : List Nat) (c : Nat) : Prop :=
  entry = .next c ∧ c < 1536 ∧ c ∉ retired ∧ c ≠ r.cell ∧ c ∉ r.visited ∧ r.visited.length < 3

/-- The kinds still due after a cell that holds `g`, if `g` is one the record can hold there. -/
def AuditRead.kindsAfter (r : AuditRead) (g : Option Group) : Option (List CellKind) :=
  match g, r.visited with
  | none, _ => none
  | some (.head tag _ _ p), [] => if tag = r.tag then some p.kinds else none
  | some _, [] => none
  | some g, _ :: _ => match r.expected with
    | [] => none
    | k :: ks => if g.kind = k then some ks else none

theorem kindsAfter_eq_some (r : AuditRead) (g : Option Group) (due : List CellKind) : r.kindsAfter g = some due ↔
    (r.visited = [] ∧ ∃ batch base p, g = some (.head r.tag batch base p) ∧ due = p.kinds) ∨
      (r.visited ≠ [] ∧ ∃ x, g = some x ∧ r.expected = x.kind :: due) := by
  unfold AuditRead.kindsAfter
  cases g with
  | none => simp
  | some x =>
    cases visited : r.visited with
    | nil =>
      cases x with
      | head tag batch base p =>
        by_cases same : tag = r.tag
        · show (if tag = r.tag then some p.kinds else none) = some due ↔ _
          rw [if_pos same]
          constructor
          · intro kinds
            exact .inl ⟨rfl, batch, base, p, by rw [same], (Option.some.inj kinds).symm⟩
          · rintro (⟨-, batch', base', p', heads, rfl⟩ | ⟨visits, -⟩)
            · cases heads
              rfl
            · exact absurd rfl visits
        · simp [same]
      | _ => simp
    | cons v vs =>
      cases r.expected with
      | nil => simp
      | cons k ks =>
        by_cases same : x.kind = k
        · simp [same]
        · simp [same, Ne.symm same, eq_comm]

theorem fits_iff (r : AuditRead) (good : Bool) (g : Option Group) (nvEntry volEntry : ChainEntry) (due : List CellKind) :
    r.Fits good g nvEntry volEntry due ↔ good = true ∧ volEntry = nvEntry ∧ r.kindsAfter g = some due := by
  rw [kindsAfter_eq_some]
  rfl

/-- What a check read decides, by what is due after it. -/
theorem auditRead_eq (r : AuditRead) (good : Bool) (g : Option Group) (nvEntry volEntry : ChainEntry)
    (retired : List Nat) : auditRead r good g nvEntry volEntry retired =
      if good = false ∨ nvEntry ≠ volEntry then .unsound
      else match (generalizing := false) r.kindsAfter g, nvEntry with
        | none, _ => .unsound
        | some ks, .last => if ks.isEmpty then .sound else .unsound
        | some ks, .next c =>
          if c < Config.poolCells ∧ retired.contains c = false ∧ (r.cell :: r.visited).contains c = false ∧
              r.visited.length + 1 < Config.maxChain then .go c ks
          else .unsound
        | some _, .free => .unsound
        | some _, .retired => .unsound := rfl

section
variable {r : AuditRead} {good : Bool} {g : Option Group} {nvEntry volEntry : ChainEntry} {retired : List Nat}

/-- The read cell's bits count as good only when it holds a group; a cell that fits holds one. -/
theorem Fits.held {due : List CellKind} (fits : r.Fits good g nvEntry volEntry due) : (good && g.isSome) = true := by
  obtain ⟨rfl, _, ⟨_, _, _, _, rfl, _⟩ | ⟨_, _, rfl, _⟩⟩ := fits <;> rfl

theorem auditRead_fits {due : List CellKind} (fits : r.Fits good g nvEntry volEntry due) :
    auditRead r (good && g.isSome) g nvEntry volEntry retired =
      match (generalizing := false) nvEntry with
      | .last => if due.isEmpty then .sound else .unsound
      | .next c =>
        if c < Config.poolCells ∧ retired.contains c = false ∧ (r.cell :: r.visited).contains c = false ∧
            r.visited.length + 1 < Config.maxChain then .go c due
        else .unsound
      | .free => .unsound
      | .retired => .unsound := by
  obtain ⟨_, entries, after⟩ := (fits_iff ..).mp fits
  rw [auditRead_eq, if_neg (by simp [Fits.held fits, entries]), after]
  cases nvEntry <;> rfl

theorem auditRead_unfit (unfit : ∀ due, ¬r.Fits good g nvEntry volEntry due) :
    auditRead r (good && g.isSome) g nvEntry volEntry retired = .unsound := by
  rw [auditRead_eq]
  by_cases clean : (good && g.isSome) = false ∨ nvEntry ≠ volEntry
  · rw [if_pos clean]
  · rw [if_neg clean]
    obtain ⟨bits, entries⟩ : (good && g.isSome) = true ∧ nvEntry = volEntry := by
      rw [not_or, Bool.not_eq_false, Classical.not_not] at clean
      exact clean
    cases after : r.kindsAfter g with
    | none => rfl
    | some due =>
      exact absurd ((fits_iff ..).mpr ⟨(Bool.and_eq_true _ _ ▸ bits).1, entries.symm, after⟩) (unfit due)

theorem leadsTo_iff (c : Nat) : r.LeadsTo (.next c) retired c ↔
    c < Config.poolCells ∧ retired.contains c = false ∧ (r.cell :: r.visited).contains c = false ∧
      r.visited.length + 1 < Config.maxChain := by
  have length : r.visited.length < 3 ↔ r.visited.length + 1 < 4 := by omega
  simp [AuditRead.LeadsTo, Config.poolCells, Config.maxChain, and_assoc, length]

theorem auditRead_goes {c : Nat} {due : List CellKind} (fits : r.Fits good g nvEntry volEntry due)
    (leads : r.LeadsTo nvEntry retired c) :
    auditRead r (good && g.isSome) g nvEntry volEntry retired = .go c due := by
  rw [auditRead_fits fits]
  obtain rfl := leads.1
  exact if_pos ((leadsTo_iff c).mp leads)

theorem auditRead_sound (fits : r.Fits good g nvEntry volEntry []) (last : nvEntry = .last) :
    auditRead r (good && g.isSome) g nvEntry volEntry retired = .sound := by
  rw [auditRead_fits fits, last]
  rfl

theorem auditRead_unsound (unfinished : ¬(r.Fits good g nvEntry volEntry [] ∧ nvEntry = .last))
    (stuck : ∀ c due, ¬(r.Fits good g nvEntry volEntry due ∧ r.LeadsTo nvEntry retired c)) :
    auditRead r (good && g.isSome) g nvEntry volEntry retired = .unsound := by
  by_cases fit : ∃ due, r.Fits good g nvEntry volEntry due
  · obtain ⟨due, fits⟩ := fit
    rw [auditRead_fits fits]
    cases nvEntry with
    | last =>
      cases due with
      | nil => exact absurd ⟨fits, rfl⟩ unfinished
      | cons k ks => rfl
    | next c => exact if_neg fun leads => stuck c due ⟨fits, (leadsTo_iff c).mpr leads⟩
    | free => rfl
    | retired => rfl
  · exact auditRead_unfit (not_exists.mp fit)

end

/-! ### An audit that goes on (R20) -/

theorem auditOf_of_job {s : State} {l : Link} {j : Job} {a : AuditWork} (job : (s.port l).job = some j)
    (work : j.work = .audit a) : s.auditOf l = some a := by
  simp only [State.auditOf, job, work]

theorem saveOf_of_job {s : State} {l : Link} {j : Job} {v : SaveWork} (job : (s.port l).job = some j)
    (work : j.work = .save v) : s.saveOf l = some v := by
  simp only [State.saveOf, job, work]

/-- `u` with what an audit that goes on may touch in `t`: its link's job, record and flags, and the waiting requests. -/
def State.auditedFrom (u t : State) (l : Link) : State :=
  { u.setPort l ((u.port l).ended (t.port l)) with nvPort := { u.nvPort with waiting := t.nvPort.waiting } }

/-- What an audit that goes on from `u` touches, and what it does, as seen from the state `s` of the event. -/
structure State.AuditAdvanced (s u t : State) (l : Link) (j : Job) (a : AuditWork) : Prop where
  goesOn : s.AuditGoesOn t l j a
  flags : ∀ n : Notice, n ≠ .jobDone → (t.port l).hasFlag n = (u.port l).hasFlag n
  state : t = u.auditedFrom t l

section
variable {s u : State} {l : Link} {j : Job} {a b : AuditWork}

/-- An audit goes on from the tag last handled, over the index of `u`; the locks are those of `s`. -/
theorem auditAdvance_goesOn (job : (s.port l).job = some j) (attached : j.detached = false)
    (jobs : ∀ m, (u.port m).job = (s.port m).job) (record : (u.port l).record = (s.port l).record)
    (waiting : u.nvPort.waiting = s.nvPort.waiting) (retired : u.pool.retired = s.pool.retired)
    (locks : ∀ e ∈ u.pool.index, b.last < e.tag →
      (u.setWork l (.audit { b with reading := none })).isLocked e.tag = s.isLocked e.tag) :
    s.AuditAdvanced u (u.auditAdvance l b) l j b := by
  have passes : ∀ e ∈ u.pool.index, b.last < e.tag →
      (u.setWork l (.audit { b with reading := none })).passesOver e = s.passesOver e := fun e mem later => by
    rw [State.passesOver, State.passesOver, locks e mem later]
  have runs := (jobs l).trans job
  rcases takeWhile_cases s.passesOver (u.pool.index.filter (fun e => decide (b.last < e.tag))) with whole | ⟨e, rest, found⟩
  · rw [auditAdvance_ends runs attached passes rfl rfl whole]
    refine ⟨⟨fun e rest found => ?_, fun _ => ?_⟩, fun n other => ?_, ?_⟩
    · rw [State.setPort_pool] at found
      exact absurd (found.symm.trans whole) (append_cons_ne_self _ rest e)
    · rw [State.port_setPort, State.setPort_nvPort, State.setPort_pool, ← retired]
      exact ⟨rfl, hasFlag_jobDone rfl, waiting, rfl⟩
    · rw [State.port_setPort]
      exact hasFlag_raise_other (u.port l) other
    · cases l <;> rfl
  · rw [auditAdvance_reads runs passes rfl rfl found]
    refine ⟨⟨fun e' rest' found' => ?_, fun whole => ?_⟩, fun n _ => ?_, ?_⟩
    · simp only [State.setPort_pool] at found'
      cases List.append_cancel_left (found.symm.trans found')
      refine ⟨?_, ?_, congrArg (· ++ _) waiting⟩
      · cases l <;> rfl
      · rw [← record]
        cases l <;> rfl
    · simp only [State.setPort_pool] at whole
      exact absurd (found.symm.trans whole) (append_cons_ne_self _ rest e)
    · cases l <;> rfl
    · cases l <;> rfl

end

end Sys2Proof.Machine
end

section
/-! PROOFS. The completions of an audit's and a save's requests (O45). -/
namespace Sys2Proof.Machine

/-! ### AUDIT_CHECK_READ_COMPLETE -/

section
variable {s : State} {l : Link} {j : Job} {a : AuditWork} {r : AuditRead} {good : Bool}

theorem exec_auditCheckReadComplete {cell : Nat} (current : s.nvPort.current = some ⟨⟨l, .checkRead cell⟩, true⟩)
    (job : (s.port l).job = some j) (work : j.work = .audit a) (reading : a.reading = some r) :
    exec (.auditCheckReadComplete good) s = .next (s.clearCurrent.auditStep l a r good) := by
  have audits : s.clearCurrent.auditOf l = some a := auditOf_of_job (s := s.clearCurrent) job work
  refine congrArg Host.Outcome.next ?_
  simp only [current, audits, reading]

/-- What a check read decides of the record being read, over the two memories of a state. -/
def State.checked (s : State) (r : AuditRead) (good : Bool) : Walk :=
  auditRead r (good && (mapGet r.cell s.nv.cells).isSome) (mapGet r.cell s.nv.cells) (chainOf s.nv.chain r.cell)
    (chainOf s.pool.chain r.cell) s.pool.retired

theorem auditStep_eq (s : State) (l : Link) (a : AuditWork) (r : AuditRead) (good : Bool) :
    s.auditStep l a r good = match (generalizing := false) s.checked r good with
      | .sound => s.auditAdvance l { a with checked := a.checked + 1 }
      | .go c ks =>
        (s.setWork l (.audit { a with
          checked := a.checked + 1
          reading := some { r with cell := c, visited := r.cell :: r.visited, expected := ks } })).request l (.checkRead c)
      | .unsound =>
        (s.setWork l (.audit { a with checked := a.checked + 1, reading := some { r with damaging := true } })).request l
          (.damage r.tag) := rfl

/-- A job's work replaced and a request queued, at the completion of a request. -/
theorem setWork_request (job : (s.port l).job = some j) (w : JobWork) (op : NvOp) :
    (s.clearCurrent.setWork l w).request l op =
      { s.setPort l { s.port l with job := some { j with work := w } } with
        nvPort := { s.nvPort with current := none, waiting := s.nvPort.waiting ++ [⟨l, op⟩] } } := by
  rw [setWork_eq (s := s.clearCurrent) (j := j) job]
  cases l <;> rfl

theorem auditStep_goes (job : (s.port l).job = some j) {c : Nat} {due : List CellKind} (goes : s.checked r good = .go c due) :
    s.clearCurrent.auditStep l a r good =
      { s.setPort l { s.port l with job := some { j with work := .audit { a with
          checked := a.checked + 1
          reading := some { r with cell := c, visited := r.cell :: r.visited, expected := due } } } } with
        nvPort := { s.nvPort with current := none, waiting := s.nvPort.waiting ++ [⟨l, .checkRead c⟩] } } := by
  have goes' : s.clearCurrent.checked r good = .go c due := goes
  rw [auditStep_eq, goes']
  exact setWork_request job _ _

theorem auditStep_unsound (job : (s.port l).job = some j) (unsound : s.checked r good = .unsound) :
    s.clearCurrent.auditStep l a r good =
      { s.setPort l { s.port l with job := some { j with work := .audit { a with
          checked := a.checked + 1, reading := some { r with damaging := true } } } } with
        nvPort := { s.nvPort with current := none, waiting := s.nvPort.waiting ++ [⟨l, .damage r.tag⟩] } } := by
  have unsound' : s.clearCurrent.checked r good = .unsound := unsound
  rw [auditStep_eq, unsound']
  exact setWork_request job _ _

theorem auditStep_sound (sound : s.checked r good = .sound) :
    s.clearCurrent.auditStep l a r good = s.clearCurrent.auditAdvance l { a with checked := a.checked + 1 } := by
  have sound' : s.clearCurrent.checked r good = .sound := sound
  rw [auditStep_eq, sound']

end

/-! ### AUDIT_STATUS_WRITE_COMPLETE -/

/-- What the status write of a record leaves in `t` of it: DAMAGED in both indexes, its notice, and PENDING re-evaluated
(R20, R37). -/
def State.DamagedIn (s t : State) (tag : Nat) : Prop :=
  t.pool.index = s.pool.index.map (fun e => if e.tag = tag then { e with status := .damaged } else e) ∧
  t.nv.index = s.nv.index.map (fun e => if e.tag = tag then { e with status := .damaged } else e) ∧
  t.sl.hasFlag .recordDamaged = true ∧
  (∀ (i : Nat) (p q : Position), s.positions[i]? = some p → t.positions[i]? = some q → q = { p with
    pending := if s.positionOf tag = some i then (t.pendingReason p).isSome else p.pending }) ∧
  t.positions.length = s.positions.length

theorem damagedIn_of {s t : State} {tag : Nat} (pool : t.pool.index = (s.marksDamaged tag).pool.index)
    (nv : t.nv.index = (s.marksDamaged tag).nv.index) (settings : t.settings = s.settings)
    (positions : t.positions = (s.marksDamaged tag).refreshed tag) (flag : t.sl.hasFlag .recordDamaged = true) :
    s.DamagedIn t tag := by
  refine ⟨pool, nv, flag, fun i p q before after => ?_, ?_⟩
  · rw [positions] at after
    rw [pendingReason_congr pool settings]
    exact refreshed_at (s := s.marksDamaged tag) before after
  · rw [positions]
    exact length_refreshed (s.marksDamaged tag) tag

/-- The state after the status write, before its audit goes on. -/
def State.statusWritten (s : State) (tag : Nat) : State := s.clearCurrent.damageRecord tag

theorem statusWritten_eq (s : State) (tag : Nat) : s.statusWritten tag = { s.marksDamaged tag with
    positions := (s.marksDamaged tag).refreshed tag, sl := s.sl.raise .recordDamaged
    nvPort := { s.nvPort with current := none } } := damageRecord_eq s.clearCurrent tag

section
variable {s : State} {l : Link} {tag : Nat}

theorem exec_auditStatusWriteComplete_dead (current : s.nvPort.current = some ⟨⟨l, .damage tag⟩, false⟩) :
    exec .auditStatusWriteComplete s = .next (s.statusWritten tag) := by
  refine congrArg Host.Outcome.next ?_
  simp only [current]
  rfl

theorem jobs_statusWritten (s : State) (tag : Nat) (m : Link) : ((s.statusWritten tag).port m).job = (s.port m).job := by
  rw [statusWritten_eq]
  cases m <;> rfl

theorem record_statusWritten (s : State) (tag : Nat) (m : Link) :
    ((s.statusWritten tag).port m).record = (s.port m).record := by
  rw [statusWritten_eq]
  cases m <;> rfl

theorem hasFlag_statusWritten (s : State) (tag : Nat) (m : Link) (n : Notice) (other : m ≠ .sl ∨ n ≠ .recordDamaged) :
    ((s.statusWritten tag).port m).hasFlag n = (s.port m).hasFlag n := by
  rw [statusWritten_eq]
  cases m with
  | sl => exact hasFlag_raise_other s.sl (other.resolve_left (not_not_intro rfl))
  | _ => rfl

theorem exec_auditStatusWriteComplete {j : Job} {a : AuditWork}
    (current : s.nvPort.current = some ⟨⟨l, .damage tag⟩, true⟩) (job : (s.port l).job = some j) (work : j.work = .audit a) :
    exec .auditStatusWriteComplete s =
      .next ((s.statusWritten tag).auditAdvance l { a with damaged := a.damaged + 1 }) := by
  have audits : (s.clearCurrent.damageRecord tag).auditOf l = some a :=
    auditOf_of_job ((jobs_statusWritten s tag l).trans job) work
  refine congrArg Host.Outcome.next ?_
  simp only [current, audits]
  rfl

end

end Sys2Proof.Machine
end

section
/-! PROOFS. SETTINGS_CELL_WRITE_COMPLETE, and the audit and the save that go on (O45). -/
namespace Sys2Proof.Machine

/-! ### SETTINGS_CELL_WRITE_COMPLETE -/

/-- The state after the write of a settings cell, before its save goes on (R22). -/
def State.settingsWritten (s : State) (c : Nat) (img : Settings) (good : Bool) : State :=
  { s with
    nv := { s.nv with settings := s.nv.settings.set c (if good then some img else none) }
    nvPort := { s.nvPort with current := none } }

section
variable {s : State} {l : Link} {j : Job} {c : Nat} {img : Settings} {v : SaveWork} {good : Bool}

theorem exec_settingsCellWriteComplete (current : s.nvPort.current = some ⟨⟨l, .settings c img⟩, true⟩)
    (job : (s.port l).job = some j) (work : j.work = .save v) :
    exec (.settingsCellWriteComplete good) s = .next ((s.settingsWritten c img good).savedCell l v good) := by
  have saves : (s.settingsWritten c img good).saveOf l = some v := saveOf_of_job (s := s.settingsWritten c img good) job work
  refine congrArg Host.Outcome.next ?_
  have written : ({ s.clearCurrent with
      nv := { s.nv with settings := updateAt (fun _ => if good then some img else none) c s.nv.settings } } : State) =
      s.settingsWritten c img good := by
    rw [updateAt_const]
    rfl
  simp only [current, written, saves]

/-- A save that ends (R22), over the state of the event. -/
theorem savedCell_ends {st : JobState} {res : ResultCode} {fields : JobFields} (job : (s.port l).job = some j)
    (ends : (s.settingsWritten c img good).savedCell l v good = (s.settingsWritten c img good).finishJob l st res fields) :
    ∃ p : Port, (s.settingsWritten c img good).savedCell l v good = (s.settingsWritten c img good).setPort l p ∧
      p = (s.port l).ended p ∧ p.job = none ∧
      (j.detached = false → p.hasFlag .jobDone = true ∧ p.record = ⟨st, res, j.committed, fields⟩ ∧
        ∀ n : Notice, n ≠ .jobDone → p.hasFlag n = (s.port l).hasFlag n) ∧
      (j.detached = true → p.record = (s.port l).record ∧ p.flags = (s.port l).flags) := by
  have runs : ((s.settingsWritten c img good).port l).job = some j := job
  cases detached : j.detached with
  | false =>
    refine ⟨_, ends.trans (finishJob_attached runs detached st res fields), rfl, rfl, fun _ => ?_, nofun⟩
    exact ⟨hasFlag_raise_same (s.port l) _, rfl, fun n other => hasFlag_raise_other (s.port l) other⟩
  | true =>
    exact ⟨_, ends.trans (finishJob_detached runs detached st res fields), rfl, rfl, nofun, fun _ => ⟨rfl, rfl⟩⟩

/-- A save that goes on to a cell (R22), over the state of the event. -/
theorem savedCell_goes {w : SaveWork} (job : (s.port l).job = some j)
    (goes : (s.settingsWritten c img good).savedCell l v good =
      ((s.settingsWritten c img good).setWork l (.save w)).request l (.settings w.cell w.image)) :
    (s.settingsWritten c img good).savedCell l v good =
      { (s.settingsWritten c img good).setPort l { s.port l with job := some { j with work := .save w } } with
        nvPort := { s.nvPort with current := none, waiting := s.nvPort.waiting ++ [⟨l, .settings w.cell w.image⟩] } } := by
  rw [goes, setWork_eq (s := s.settingsWritten c img good) (j := j) job]
  cases l <;> rfl

theorem savedCell_last (u : State) (last : v.cell = 7) :
    u.savedCell l v true = u.finishJob l .done .none (.save (v.written + 1) v.rewrites) :=
  if_pos last

theorem savedCell_next (u : State) (more : v.cell ≠ 7) : u.savedCell l v true =
    (u.setWork l (.save { v with written := v.written + 1, cell := v.cell + 1, cellRewrites := 0 })).request l
      (.settings (v.cell + 1) v.image) :=
  if_neg more

theorem savedCell_rewrites (u : State) (left : v.cellRewrites < 3) : u.savedCell l v false =
    (u.setWork l (.save { v with cellRewrites := v.cellRewrites + 1, rewrites := v.rewrites + 1 })).request l
      (.settings v.cell v.image) :=
  if_neg (Nat.not_le.mpr left)

theorem savedCell_fails (u : State) (spent : 3 ≤ v.cellRewrites) :
    u.savedCell l v false = u.finishJob l .failed .verifyFailed (.save v.written v.rewrites) :=
  if_pos spent

end

/-- What the completion of a settings cell write does to its save. -/
theorem saveGoesOn {s : State} {l : Link} {j : Job} {c : Nat} {img : Settings} {v : SaveWork} {good : Bool}
    (current : s.nvPort.current = some ⟨⟨l, .settings c img⟩, true⟩)
    (job : (s.port l).job = some j) (work : j.work = .save v) :
    ∃ t, exec (.settingsCellWriteComplete good) s = .next t ∧
      t = { s.setPort l ((s.port l).ended (t.port l)) with
        nv := { s.nv with settings := s.nv.settings.set c (if good then some img else none) }
        nvPort := { s.nvPort with current := none, waiting := t.nvPort.waiting } } ∧
      (let ends (record : JobRecord) : Prop := (t.port l).job = none ∧ t.nvPort.waiting = s.nvPort.waiting ∧
        (j.detached = false → (t.port l).hasFlag .jobDone = true ∧ (t.port l).record = record ∧
          ∀ n : Notice, n ≠ .jobDone → (t.port l).hasFlag n = (s.port l).hasFlag n) ∧
        (j.detached = true → (t.port l).record = (s.port l).record ∧ (t.port l).flags = (s.port l).flags)
       let goesOn (u : SaveWork) : Prop := (t.port l).job = some { j with work := .save u } ∧
        (t.port l).record = (s.port l).record ∧ (t.port l).flags = (s.port l).flags ∧
        t.nvPort.waiting = s.nvPort.waiting ++ [⟨l, .settings u.cell v.image⟩]
       (good = true → v.cell = 7 → ends ⟨.done, .none, j.committed, .save (v.written + 1) v.rewrites⟩) ∧
       (good = true → v.cell ≠ 7 →
        goesOn { v with written := v.written + 1, cell := v.cell + 1, cellRewrites := 0 }) ∧
       (good = false → v.cellRewrites < 3 →
        goesOn { v with cellRewrites := v.cellRewrites + 1, rewrites := v.rewrites + 1 }) ∧
       (good = false → 3 ≤ v.cellRewrites →
        ends ⟨.failed, .verifyFailed, j.committed, .save v.written v.rewrites⟩)) := by
  rw [exec_settingsCellWriteComplete current job work]
  refine ⟨_, rfl, ?_⟩
  have whole (p : Port) (same : p = (s.port l).ended p) : (s.settingsWritten c img good).setPort l p =
      { s.setPort l ((s.port l).ended p) with
        nv := { s.nv with settings := s.nv.settings.set c (if good then some img else none) }
        nvPort := { s.nvPort with
          current := none, waiting := ((s.settingsWritten c img good).setPort l p).nvPort.waiting } } := by
    rw [← same]
    cases l <;> rfl
  cases good with
  | true =>
    by_cases last : v.cell = 7
    · obtain ⟨p, ended, same, job', attached, detached⟩ := savedCell_ends (img := img) (c := c) job (savedCell_last _ last)
      rw [ended, State.port_setPort]
      refine ⟨whole p same, fun _ _ => ⟨job', by rw [State.setPort_nvPort]; rfl, attached, detached⟩, fun _ more => absurd last more, nofun, nofun⟩
    · rw [savedCell_goes job (savedCell_next _ last)]
      refine ⟨by cases l <;> rfl, fun _ h => absurd h last, fun _ _ => ⟨?_, ?_, ?_, rfl⟩, nofun, nofun⟩ <;> cases l <;> rfl
  | false =>
    by_cases left : v.cellRewrites < 3
    · rw [savedCell_goes job (savedCell_rewrites _ left)]
      refine ⟨by cases l <;> rfl, nofun, nofun, fun _ _ => ⟨?_, ?_, ?_, rfl⟩, fun _ h => absurd left (Nat.not_lt.mpr h)⟩ <;>
        cases l <;> rfl
    · obtain ⟨p, ended, same, job', attached, detached⟩ :=
        savedCell_ends (img := img) (c := c) job (savedCell_fails _ (Nat.not_lt.mp left))
      rw [ended, State.port_setPort]
      refine ⟨whole p same, nofun, nofun, fun _ h => absurd h left, fun _ _ => ⟨job', by rw [State.setPort_nvPort]; rfl, attached, detached⟩⟩

/-! ### The audit and the save go on -/

/-- `s` with what a status write and the audit that goes on may touch in `t`. -/
def State.statusFrom (s t : State) : State :=
  { s with
    pl := s.pl.ended t.pl, dl := s.dl.ended t.dl, sl := s.sl.ended t.sl
    nv := { s.nv with index := t.nv.index }, pool := { s.pool with index := t.pool.index }
    nvPort := { s.nvPort with current := none, waiting := t.nvPort.waiting }, positions := t.positions }

theorem auditedFrom_statusWritten (s t : State) (tag : Nat) (l : Link) :
    (s.statusWritten tag).auditedFrom t l = s.statusFrom ((s.statusWritten tag).auditedFrom t l) := by
  rw [statusWritten_eq]
  cases l <;> rfl

/-- What a status write and the audit that goes on after it make of the state of the event. -/
theorem statusWritten_advanced {s t : State} {l : Link} {j : Job} {a : AuditWork} {tag : Nat}
    (advanced : s.AuditAdvanced (s.statusWritten tag) t l j a) :
    s.DamagedIn t tag ∧ s.AuditGoesOn t l j a ∧
      (∀ (m : Link) (n : Notice), (m ≠ l ∨ n ≠ .jobDone) → (m ≠ .sl ∨ n ≠ .recordDamaged) →
        (t.port m).hasFlag n = (s.port m).hasFlag n) ∧
      t = s.statusFrom t ∧ ∀ m, m ≠ l → t.port m = { s.port m with flags := (t.port m).flags } := by
  obtain ⟨goesOn, flags, state⟩ := advanced
  have others (m : Link) (other : m ≠ l) : t.port m = (s.statusWritten tag).port m := by
    rw [state]
    exact State.port_setPort_of_ne (s.statusWritten tag) l m _ other
  have noticed (m : Link) (n : Notice) (other : m ≠ l ∨ n ≠ .jobDone) :
      (t.port m).hasFlag n = ((s.statusWritten tag).port m).hasFlag n := by
    by_cases same : m = l
    · subst same
      exact flags n (other.resolve_left (not_not_intro rfl))
    · rw [others m same]
  refine ⟨damagedIn_of ?_ ?_ ?_ ?_ ?_, goesOn, fun m n other unmarked =>
    (noticed m n other).trans (hasFlag_statusWritten s tag m n unmarked), ?_, fun m other => ?_⟩
  · rw [state, statusWritten_eq]
    cases l <;> rfl
  · rw [state, statusWritten_eq]
    cases l <;> rfl
  · rw [state, statusWritten_eq]
    cases l <;> rfl
  · rw [state, statusWritten_eq]
    cases l <;> rfl
  · refine (noticed .sl .recordDamaged (.inr nofun)).trans ?_
    rw [statusWritten_eq]
    exact hasFlag_raise_same s.sl _
  · calc t = (s.statusWritten tag).auditedFrom t l := state
      _ = s.statusFrom ((s.statusWritten tag).auditedFrom t l) := auditedFrom_statusWritten s t tag l
      _ = s.statusFrom t := by rw [← state]
  · rw [others m other, statusWritten_eq]
    cases m <;> rfl

/-- Settles O45: a status write marks its record whatever became of its audit; a check read leads on, to the next record
or to a status write; a written settings cell leads on to the next one, a rewrite or the end. -/
theorem auditAndSaveGoOnRequestByRequest : Obligations.AuditAndSaveGoOnRequestByRequest := by
  intro s l
  refine ⟨fun tag current => ?_, fun op j current job => ⟨fun a r cell good isRead work attached reading => ?_,
    fun tag a isDamage work attached other => ?_, fun c img v good isSettings work => saveGoesOn (isSettings ▸ current) job work⟩⟩
  · refine ⟨_, exec_auditStatusWriteComplete_dead current, ?_, fun n other =>
      hasFlag_statusWritten s tag .sl n (.inr other), ?_⟩
    · rw [statusWritten_eq]
      exact damagedIn_of rfl rfl rfl rfl (hasFlag_raise_same s.sl _)
    · rw [statusWritten_eq]
      rfl
  · subst isRead
    rw [exec_auditCheckReadComplete current job work reading]
    refine ⟨fun c due ⟨fits, leads⟩ => congrArg _ (auditStep_goes job (auditRead_goes fits leads)),
      fun fits last unread => ?_, fun unfinished stuck => congrArg _ (auditStep_unsound job (auditRead_unsound unfinished stuck))⟩
    rw [auditStep_sound (auditRead_sound fits last)]
    have advanced : s.AuditAdvanced s.clearCurrent (s.clearCurrent.auditAdvance l { a with checked := a.checked + 1 }) l j
        { a with checked := a.checked + 1 } :=
      auditAdvance_goesOn job attached (fun _ => rfl) rfl rfl rfl fun e mem later =>
        isLocked_release job work (fun _ => rfl) rfl rfl fun same => unread e mem later (by
          rw [reading] at same
          exact (Option.some.inj same).symm)
    exact ⟨_, rfl, advanced.goesOn, advanced.flags, advanced.state.trans (by cases l <;> rfl)⟩
  · subst isDamage
    rw [exec_auditStatusWriteComplete current job work]
    have advanced : s.AuditAdvanced (s.statusWritten tag)
        ((s.statusWritten tag).auditAdvance l { a with damaged := a.damaged + 1 }) l j { a with damaged := a.damaged + 1 } :=
      auditAdvance_goesOn job attached (jobs_statusWritten s tag) (record_statusWritten s tag l)
        (by rw [statusWritten_eq]) (by rw [statusWritten_eq]; rfl) fun e mem later =>
          isLocked_release job work (jobs_statusWritten s tag) (by rw [statusWritten_eq]) rfl fun same => by
            rw [statusWritten_eq] at mem
            obtain ⟨x, inIndex, tagged⟩ := tag_of_mem_marked mem
            exact other x inIndex (tagged ▸ later) (tagged ▸ same)
    exact ⟨_, rfl, statusWritten_advanced advanced⟩

end Sys2Proof.Machine
end

section
/-! PROOFS. The steps of a record write (R14, R15). -/
namespace Sys2Proof.Machine

/-! ### The record write of a job -/

theorem writeOf_eq_some {s : State} {l : Link} {w : RecWrite} (write : s.writeOf l = some w) :
    ∃ j, (s.port l).job = some j ∧ (j.work = .write w ∨ ∃ h, j.work = .hang h ∧ h.prov = some w) := by
  rw [State.writeOf] at write
  obtain ⟨j, job, work⟩ := Option.bind_eq_some_iff.mp write
  refine ⟨j, job, ?_⟩
  cases kind : j.work with
  | write v =>
    rw [kind] at work
    exact .inl (congrArg _ (Option.some.inj work))
  | hang h =>
    rw [kind] at work
    exact .inr ⟨h, rfl, work⟩
  | erase tag => rw [kind] at work; cases work
  | audit a => rw [kind] at work; cases work
  | save v => rw [kind] at work; cases work

/-- A job's record write replaced: nothing else of the job's port is touched. -/
theorem setWrite_of_writeOf {s : State} {l : Link} {w : RecWrite} (write : s.writeOf l = some w) (v : RecWrite) :
    ∃ j : Job, j.work.recWrite = some v ∧ s.setWrite l v = s.setPort l { s.port l with job := some j } := by
  obtain ⟨j, job, work | ⟨h, work, _⟩⟩ := writeOf_eq_some write
  · exact ⟨_, rfl, setWrite_of_write job work v⟩
  · exact ⟨_, rfl, setWrite_of_hang job work v⟩

/-! ### The next request of a write -/

section
variable {s : State} {l : Link} {w : RecWrite}

theorem nextWriteStep_cells {c : Nat} {cs : List Nat} {g : Group} (claimed : w.unwritten = c :: cs)
    (group : w.groups[w.written.length]? = some g) :
    s.nextWriteStep l w = (s.setWrite l { w with phase := .cells }).request l (.cellWrite c g) := by
  rw [State.nextWriteStep, claimed, group]

theorem nextWriteStep_chain {c : Nat} (claimed : w.unwritten = []) (next : w.written[w.chained]? = some c) :
    s.nextWriteStep l w = (s.setWrite l { w with phase := .chain }).request l (.chainEntry c (w.entry w.chained)) := by
  rw [State.nextWriteStep, claimed, next]

theorem nextWriteStep_swap (claimed : w.unwritten = []) (last : w.written[w.chained]? = none) :
    s.nextWriteStep l w = (s.setWrite l { w with phase := .swap }).request l .swap := by
  rw [State.nextWriteStep, claimed, last]

/-- Whatever the next step of a write is, it is a phase of the write and one request. -/
theorem nextWriteStep_cases (s : State) (l : Link) (w : RecWrite) :
    ∃ phase op, s.nextWriteStep l w = (s.setWrite l { w with phase := phase }).request l op := by
  unfold State.nextWriteStep
  split
  · exact ⟨_, _, rfl⟩
  · split
    · exact ⟨_, _, rfl⟩
    · exact ⟨_, _, rfl⟩

/-- `s` with what the next step of a write touches in `t`. -/
def State.steppedFrom (s t : State) (l : Link) : State :=
  { s.setPort l { s.port l with job := (t.port l).job } with nvPort := { s.nvPort with waiting := t.nvPort.waiting } }

theorem hasFlag_steppedFrom (s t : State) (l m : Link) (n : Notice) :
    ((s.steppedFrom t l).port m).hasFlag n = (s.port m).hasFlag n := by
  cases l <;> cases m <;> rfl

theorem pool_steppedFrom (s t : State) (l : Link) : (s.steppedFrom t l).pool = s.pool := by
  cases l <;> rfl

theorem setWrite_request {v : RecWrite} (write : s.writeOf l = some v) (w : RecWrite) (op : NvOp) :
    (s.setWrite l w).request l op = s.steppedFrom ((s.setWrite l w).request l op) l ∧
    ((s.setWrite l w).request l op).writeOf l = some w ∧
    ((s.setWrite l w).request l op).nvPort.waiting = s.nvPort.waiting ++ [⟨l, op⟩] := by
  obtain ⟨j, work, set⟩ := setWrite_of_writeOf write w
  rw [set]
  refine ⟨by cases l <;> rfl, ?_, by cases l <;> rfl⟩
  cases l <;> exact work

theorem nextWriteStep_steppedFrom {v : RecWrite} (write : s.writeOf l = some v) (w : RecWrite) :
    s.nextWriteStep l w = s.steppedFrom (s.nextWriteStep l w) l := by
  obtain ⟨phase, op, step⟩ := nextWriteStep_cases s l w
  rw [step]
  exact (setWrite_request write _ op).1

end

/-! ### Cells claimed -/

/-- The lowest free cells leave the free list, and the watermark watches (R2, R11). -/
theorem claimCells_eq (s : State) (n : Nat) : s.claimCells n =
    (let low := decide ((s.pool.free.drop n).length < s.settings.watermark)
     { s with
      pool := { s.pool with free := s.pool.free.drop n, low := low }
      dl := s.dl.raiseIf (low && !s.pool.low) .poolLow, sl := s.sl.raiseIf (low && !s.pool.low) .poolLow }) := by
  refine (evalLow_eq _).trans ?_
  dsimp only
  cases decide ((s.pool.free.drop n).length < s.settings.watermark) && !s.pool.low <;> rfl

theorem hasFlag_claimCells (s : State) (n : Nat) (m : Link) (notice : Notice) :
    ((s.claimCells n).port m).hasFlag notice = ((s.port m).hasFlag notice ||
      (decide (m ≠ .pl ∧ notice = .poolLow) && (s.claimCells n).pool.low && !s.pool.low)) := by
  rw [claimCells_eq]
  cases m with
  | pl => simp [State.port]
  | dl => exact (hasFlag_raiseIf ..).trans (by simp [State.port, Bool.and_comm, Bool.and_left_comm])
  | sl => exact (hasFlag_raiseIf ..).trans (by simp [State.port, Bool.and_comm, Bool.and_left_comm])

theorem writeOf_claimCells (s : State) (n : Nat) (l : Link) : (s.claimCells n).writeOf l = s.writeOf l := by
  rw [claimCells_eq]
  cases l <;> rfl

end Sys2Proof.Machine
end

section
/-! PROOFS. The completions of a record write's requests (O43). -/
namespace Sys2Proof.Machine

/-! ### Completions (R14, R15) -/

/-- The non-volatile memory changed by a completed request. -/
def State.stored (s : State) (nv : NvMemory) : State := { s with nv := nv, nvPort := { s.nvPort with current := none } }

theorem writeOf_stored (s : State) (nv : NvMemory) (l : Link) : (s.stored nv).writeOf l = s.writeOf l := by
  cases l <;> rfl

section
variable {s : State} {l : Link} {cell : Nat}

theorem exec_cellWriteComplete_dead {g : Group} (good : Bool)
    (current : s.nvPort.current = some ⟨⟨l, .cellWrite cell g⟩, false⟩) :
    exec (.cellWriteComplete good) s = .next (s.stored (s.nv.writeCell good cell g)) := by
  refine congrArg Host.Outcome.next ?_
  simp only [current]
  rfl

theorem exec_retiredWriteComplete_dead (current : s.nvPort.current = some ⟨⟨l, .retire cell⟩, false⟩) :
    exec .retiredWriteComplete s = .next (s.stored (s.nv.writeChain cell .retired)) := by
  refine congrArg Host.Outcome.next ?_
  simp only [current]
  rfl

theorem exec_chainEntryWriteComplete_dead {e : ChainEntry} (current : s.nvPort.current = some ⟨⟨l, .chainEntry cell e⟩, false⟩) :
    exec .chainEntryWriteComplete s = .next (s.stored (s.nv.writeChain cell e)) := by
  refine congrArg Host.Outcome.next ?_
  simp only [current]
  rfl

variable {w : RecWrite} (write : s.writeOf l = some w)
include write

theorem exec_cellWriteComplete {g : Group} (good : Bool) (current : s.nvPort.current = some ⟨⟨l, .cellWrite cell g⟩, true⟩) :
    exec (.cellWriteComplete good) s = .next (
      if good then (s.stored (s.nv.writeCell good cell g)).cellGood l w cell g
      else (s.stored (s.nv.writeCell good cell g)).cellBad l w cell) := by
  have writes := (writeOf_stored s (s.nv.writeCell good cell g) l).trans write
  refine congrArg Host.Outcome.next ?_
  have same : ({ s.clearCurrent with nv := s.nv.writeCell good cell g } : State) =
    s.stored (s.nv.writeCell good cell g) := rfl
  simp only [current, same, writes]

theorem exec_retiredWriteComplete (current : s.nvPort.current = some ⟨⟨l, .retire cell⟩, true⟩) :
    exec .retiredWriteComplete s = .next ((s.stored (s.nv.writeChain cell .retired)).replaceCell l w) := by
  have writes := (writeOf_stored s (s.nv.writeChain cell .retired) l).trans write
  refine congrArg Host.Outcome.next ?_
  have same : ({ s.clearCurrent with nv := s.nv.writeChain cell .retired } : State) =
    s.stored (s.nv.writeChain cell .retired) := rfl
  simp only [current, same, writes]

/-- The state after a chain entry write, both Chain Tables changed. -/
def State.chained (s : State) (cell : Nat) (e : ChainEntry) : State :=
  { s.stored (s.nv.writeChain cell e) with pool := { s.pool with chain := chainSet cell e s.pool.chain } }

theorem exec_chainEntryWriteComplete {e : ChainEntry} (current : s.nvPort.current = some ⟨⟨l, .chainEntry cell e⟩, true⟩) :
    exec .chainEntryWriteComplete s = .next ((s.chained cell e).nextWriteStep l { w with chained := w.chained + 1 }) := by
  have writes := (writeOf_stored s (s.nv.writeChain cell e) l).trans write
  refine congrArg Host.Outcome.next ?_
  have same : ({ s.clearCurrent with nv := s.nv.writeChain cell e } : State) =
    s.stored (s.nv.writeChain cell e) := rfl
  simp only [current, same, writes]
  rfl

end

/-! ### A cell written (R14) -/

/-- The state after a good cell write, before the write goes on. -/
def State.imaged (s : State) (cell : Nat) (g : Group) : State :=
  { s.stored (s.nv.writeCell true cell g) with pool := { s.pool with image := mapSet cell g s.pool.image } }

/-- The write once the cell has joined the new record's cells. -/
def RecWrite.wrote (w : RecWrite) (cell : Nat) : RecWrite :=
  { w with written := w.written ++ [cell], unwritten := w.unwritten.tail, replacements := 0 }

section
variable {s : State} {l : Link} {w : RecWrite} {cell : Nat}

theorem cellGood_eq (g : Group) : (s.stored (s.nv.writeCell true cell g)).cellGood l w cell g =
    (s.imaged cell g).nextWriteStep l (w.wrote cell) := rfl

theorem cellBad_touches {g : Group} (write : s.writeOf l = some w) :
    let t := (s.stored (s.nv.writeCell false cell g)).cellBad l w cell
    t.writeOf l = some { w with unwritten := w.unwritten.tail, retired := w.retired + 1 } ∧
    t.sl.hasFlag .cellRetired = true ∧
    t = { s with
      pl := s.pl.marked t.pl, dl := s.dl.marked t.dl, sl := s.sl.marked t.sl
      nv := { s.nv with cells := t.nv.cells }
      pool := { s.pool with retired := t.pool.retired, chain := chainSet cell .retired s.pool.chain }
      nvPort := { s.nvPort with current := none, waiting := s.nvPort.waiting ++ [⟨l, .retire cell⟩] } } ∧
    t.nv.cells = mapErase cell s.nv.cells ∧ t.pool.chain = chainSet cell .retired s.pool.chain ∧
    t.pool.retired = insertAsc cell s.pool.retired := by
  have stored : State.writeOf { s.stored (s.nv.writeCell false cell g) with pool := { s.pool with
      retired := insertAsc cell s.pool.retired, chain := chainSet cell .retired s.pool.chain } } l = some w := by
    cases l <;> exact write
  obtain ⟨j, work, set⟩ := setWrite_of_writeOf stored { w with unwritten := w.unwritten.tail, retired := w.retired + 1 }
  have bad : (s.stored (s.nv.writeCell false cell g)).cellBad l w cell =
      ((State.setWrite { s.stored (s.nv.writeCell false cell g) with pool := { s.pool with
        retired := insertAsc cell s.pool.retired, chain := chainSet cell .retired s.pool.chain } } l
        { w with unwritten := w.unwritten.tail, retired := w.retired + 1 }).raise .sl .cellRetired).request l
        (.retire cell) := rfl
  rw [bad, set]
  refine ⟨?_, ?_, ?_, ?_, ?_, ?_⟩
  · cases l <;> exact work
  · cases l <;> exact hasFlag_raise_same _ _
  · cases l <;> rfl
  · cases l <;> rfl
  · cases l <;> rfl
  · cases l <;> rfl

/-! ### A replacement (R14) -/

theorem replaceCell_spent (u : State) (spent : 3 ≤ w.replacements) : u.replaceCell l w = u.failWrite l w .verifyFailed :=
  if_pos spent

theorem replaceCell_full {u : State} (left : ¬3 ≤ w.replacements) (full : u.pool.free = []) :
    u.replaceCell l w = u.failWrite l w .poolFull := by
  rw [State.replaceCell, full]
  exact if_neg left

theorem replaceCell_claims {u : State} {c : Nat} {cs : List Nat} (left : w.replacements < 3) (free : u.pool.free = c :: cs) :
    u.replaceCell l w = (u.claimCells 1).nextWriteStep l
      { w with unwritten := c :: w.unwritten, replacements := w.replacements + 1 } := by
  rw [State.replaceCell, free]
  exact if_neg (Nat.not_le.mpr left)

end

/-! ### The write goes on -/

/-- Settles O43: each completion stores what it wrote; a live one moves its write by one step: the next cell, the next
entry, the swap, a replacement or the end. -/
theorem recordWriteGoesOnRequestByRequest : Obligations.RecordWriteGoesOnRequestByRequest := by
  refine ⟨fun s l op current => ⟨fun cell g op => ?_, fun cell op => ?_, fun cell e op => ?_⟩,
    fun s l op w current write => ⟨fun cell g op => ?_, fun cell g op => ?_, fun cell op => ⟨?_, ?_⟩, fun cell e op claimed => ?_⟩⟩
  all_goals subst op
  · refine ⟨exec_cellWriteComplete_dead true current, _, exec_cellWriteComplete_dead false current,
      mapGet_mapErase_same _ _, fun d other => mapGet_mapErase_other _ _ _ other, rfl⟩
  · exact exec_retiredWriteComplete_dead current
  · exact exec_chainEntryWriteComplete_dead current
  · rw [exec_cellWriteComplete write true current, if_pos rfl, cellGood_eq]
    have writes : (s.imaged cell g).writeOf l = some w := by cases l <;> exact write
    refine ⟨_, rfl, (nextWriteStep_steppedFrom writes (w.wrote cell)).trans (by cases l <;> rfl),
      fun c cs g' claimed group => ?_, fun first claimed fresh next => ?_⟩
    · have rest : (w.wrote cell).unwritten = c :: cs := congrArg List.tail claimed
      rw [nextWriteStep_cells rest (by simpa [RecWrite.wrote] using group)]
      obtain ⟨_, set, waiting⟩ := setWrite_request writes { w.wrote cell with phase := .cells } (.cellWrite c g')
      exact ⟨set.trans (by rw [RecWrite.wrote, claimed]; rfl), waiting⟩
    · have rest : (w.wrote cell).unwritten = [] := congrArg List.tail claimed
      have chained : (w.wrote cell).chained = 0 := fresh
      rw [nextWriteStep_chain (c := first) rest (by rw [chained]; exact next)]
      obtain ⟨_, set, waiting⟩ := setWrite_request writes { w.wrote cell with phase := .chain }
        (.chainEntry first ((w.wrote cell).entry (w.wrote cell).chained))
      refine ⟨set.trans (by rw [RecWrite.wrote, claimed]; rfl), waiting.trans ?_⟩
      rw [chained]
      rfl
  · rw [exec_cellWriteComplete write false current, if_neg nofun]
    obtain ⟨set, flag, touched, cells, chain, retired⟩ := cellBad_touches (cell := cell) (g := g) write
    refine ⟨_, rfl, ?_, ?_, fun c => ?_, set, flag, fun d other => ?_, touched⟩
    · rw [cells]
      exact mapGet_mapErase_same _ _
    · rw [chain]
      exact chainOf_chainSet_same _ _ _
    · rw [retired, mem_insertAsc]
    · rw [cells]
      exact mapGet_mapErase_other _ _ _ other
  · intro c cs g left free group
    rw [exec_retiredWriteComplete write current, replaceCell_claims (u := s.stored (s.nv.writeChain cell .retired)) left free]
    have writes : ((s.stored (s.nv.writeChain cell .retired)).claimCells 1).writeOf l = some w := by
      rw [writeOf_claimCells, writeOf_stored, write]
    rw [nextWriteStep_cells (w := { w with unwritten := c :: w.unwritten, replacements := w.replacements + 1 })
      rfl group]
    obtain ⟨stepped, set, waiting⟩ := setWrite_request writes
      { w with unwritten := c :: w.unwritten, replacements := w.replacements + 1, phase := .cells } (.cellWrite c g)
    have remain : (s.stored (s.nv.writeChain cell .retired)).pool.free.drop 1 = cs := congrArg (List.drop 1) free
    refine ⟨_, rfl, set, ?_, fun m n => ?_, ?_⟩
    · rw [stepped, pool_steppedFrom, claimCells_eq, remain]
      rfl
    · rw [stepped, hasFlag_steppedFrom, pool_steppedFrom, hasFlag_claimCells]
      cases m <;> rfl
    · rw [State.steppedFrom, waiting] at stepped
      rw [stepped, claimCells_eq, remain]
      cases l <;> rfl
  · intro j job work fresh attached stuck
    rw [exec_retiredWriteComplete write current]
    have runs : ((s.stored (s.nv.writeChain cell .retired)).port l).job = some j := by cases l <;> exact job
    by_cases spent : 3 ≤ w.replacements
    · rw [replaceCell_spent _ spent, if_pos spent]
      obtain ⟨ended, record, done, freed, touched⟩ := failWrite_write .verifyFailed runs fresh attached
      exact ⟨_, rfl, ended, record, done, freed, touched⟩
    · rw [replaceCell_full (u := s.stored (s.nv.writeChain cell .retired)) spent (stuck.resolve_left spent), if_neg spent]
      obtain ⟨ended, record, done, freed, touched⟩ := failWrite_write .poolFull runs fresh attached
      exact ⟨_, rfl, ended, record, done, freed, touched⟩
  · rw [exec_chainEntryWriteComplete write current]
    have writes : (s.chained cell e).writeOf l = some w := by cases l <;> exact write
    refine ⟨_, rfl, (nextWriteStep_steppedFrom writes { w with chained := w.chained + 1 }).trans (by cases l <;> rfl),
      fun c next => ?_, fun last => ?_⟩
    · rw [nextWriteStep_chain (w := { w with chained := w.chained + 1 }) (c := c) claimed next]
      obtain ⟨_, set, waiting⟩ := setWrite_request writes { w with chained := w.chained + 1, phase := .chain }
        (.chainEntry c (RecWrite.entry { w with chained := w.chained + 1 } (w.chained + 1)))
      exact ⟨set, waiting⟩
    · rw [nextWriteStep_swap (w := { w with chained := w.chained + 1 }) claimed last]
      obtain ⟨_, set, waiting⟩ := setWrite_request writes { w with chained := w.chained + 1, phase := .swap } .swap
      exact ⟨set, waiting⟩

end Sys2Proof.Machine
end

section
/-! PROOFS. What a completed swap and a completed erase leave of the record's old cells and of the indexes (R6, R8,
R18). -/
namespace Sys2Proof.Machine

/-! ### The non-volatile index with an entry put -/

theorem mem_putNvEntry (e x : NvEntry) (l : List NvEntry) (sorted : rising (l.map NvEntry.tag)) :
    x ∈ putNvEntry e l ↔ x = e ∨ x ∈ l ∧ x.tag ≠ e.tag := by
  induction l with
  | nil => simp [putNvEntry]
  | cons y ys ih =>
    obtain ⟨least, rest⟩ := List.pairwise_cons.mp sorted
    have above : ∀ z ∈ ys, y.tag < z.tag := fun z mem => least z.tag (List.mem_map_of_mem mem)
    unfold putNvEntry
    split
    · next below =>
      have apart : x ∈ y :: ys → x.tag ≠ e.tag := fun mem => by
        rcases List.mem_cons.mp mem with rfl | mem
        · exact Nat.ne_of_gt below
        · exact Nat.ne_of_gt (Nat.lt_trans below (above x mem))
      rw [List.mem_cons]
      exact or_congr_right ⟨fun mem => ⟨mem, apart mem⟩, And.left⟩
    · split
      · next same =>
        have apart : x ∈ ys → x.tag ≠ e.tag := fun mem => same ▸ Nat.ne_of_gt (above x mem)
        rw [List.mem_cons, List.mem_cons]
        refine or_congr_right ⟨fun mem => ⟨.inr mem, apart mem⟩, fun ⟨mem, other⟩ => mem.resolve_left ?_⟩
        rintro rfl
        exact other same.symm
      · next other =>
        rw [List.mem_cons, ih rest, List.mem_cons]
        constructor
        · rintro (rfl | rfl | ⟨mem, differs⟩)
          · exact .inr ⟨.inl rfl, Ne.symm other⟩
          · exact .inl rfl
          · exact .inr ⟨.inr mem, differs⟩
        · rintro (rfl | ⟨rfl | mem, differs⟩)
          · exact .inr (.inl rfl)
          · exact .inl rfl
          · exact .inr (.inr ⟨mem, differs⟩)

/-- A rising table less its first entry of a kind. -/
theorem mem_eraseP_of_find {α : Type} {p : α → Bool} {l : List α} {d : α} (found : l.find? p = some d) (once : l.Nodup) (x : α) :
    x ∈ l.eraseP p ↔ x ∈ l ∧ x ≠ d := by
  obtain ⟨holds, before, after, rfl, first⟩ := List.find?_eq_some_iff_append.mp found
  have kept : (before ++ d :: after).eraseP p = before ++ after := by
    rw [List.eraseP_append_right _ (fun b mem => by simpa using first b mem), List.eraseP_cons_of_pos holds]
  have apart := List.perm_middle.nodup_iff.mp once
  rw [kept]
  constructor
  · intro mem
    refine ⟨?_, fun same => (List.nodup_cons.mp apart).1 (same ▸ mem)⟩
    rw [List.mem_append, List.mem_cons]
    rw [List.mem_append] at mem
    exact mem.imp_right .inr
  · rintro ⟨mem, other⟩
    rw [List.mem_append, List.mem_cons] at mem
    rw [List.mem_append]
    exact mem.imp_right fun h => h.resolve_left other

section
variable {s : State} {tag : Nat}

/-- The stored entries of other tags. -/
def NvMemory.others (nv : NvMemory) (tag : Nat) : List NvEntry := nv.index.filter (fun x => decide (x.tag ≠ tag))

theorem mem_others (nv : NvMemory) (x : NvEntry) : x ∈ nv.others tag ↔ x ∈ nv.index ∧ x.tag ≠ tag := by
  simp [NvMemory.others]

/-- The stored index once an entry is put, room made for it (R6). -/
def State.nvIndexWith (s : State) (e : NvEntry) : List NvEntry :=
  putNvEntry e (roomInNvIndex e.tag (s.pool.index.map IndexEntry.tag) s.nv.index)

theorem mem_nvIndexWith_of_room {e : NvEntry} (sorted : rising (s.nv.index.map NvEntry.tag))
    (room : (s.nv.others e.tag).length < 512) (x : NvEntry) : x ∈ s.nvIndexWith e ↔ x = e ∨ x ∈ s.nv.others e.tag := by
  have kept : roomInNvIndex e.tag (s.pool.index.map IndexEntry.tag) s.nv.index = s.nv.index :=
    if_neg (Nat.not_le.mpr room)
  rw [State.nvIndexWith, kept, mem_putNvEntry e x _ sorted, mem_others]

theorem isNone_findEntry (s : State) (tag : Nat) :
    (s.findEntry tag).isNone = !(s.pool.index.map IndexEntry.tag).contains tag := by
  rw [Bool.eq_iff_iff]
  simp [State.findEntry, List.find?_eq_none]

theorem mem_nvIndexWith_of_full {e d : NvEntry} (sorted : rising (s.nv.index.map NvEntry.tag))
    (full : 512 ≤ (s.nv.others e.tag).length)
    (found : (s.nv.others e.tag).find? (fun x => (s.findEntry x.tag).isNone) = some d) (x : NvEntry) :
    x ∈ s.nvIndexWith e ↔ x = e ∨ x ∈ s.nv.others e.tag ∧ x ≠ d := by
  have erased : roomInNvIndex e.tag (s.pool.index.map IndexEntry.tag) s.nv.index =
      s.nv.index.eraseP (fun x => decide (x.tag ≠ e.tag) && !(s.pool.index.map IndexEntry.tag).contains x.tag) :=
    if_pos full
  have dropped : s.nv.index.find? (fun x => decide (x.tag ≠ e.tag) &&
      !(s.pool.index.map IndexEntry.tag).contains x.tag) = some d := by
    rw [← found, NvMemory.others, List.find?_filter]
    simp only [isNone_findEntry, Bool.decide_and, Bool.decide_eq_true]
  have once : s.nv.index.Nodup := nodup_of_nodup_map NvEntry.tag (sorted.imp Nat.ne_of_lt)
  have sorted' := rising_roomInNvIndex e.tag (s.pool.index.map IndexEntry.tag) _ sorted
  rw [State.nvIndexWith, mem_putNvEntry e x _ sorted', erased, mem_eraseP_of_find dropped once, mem_others]
  exact or_congr_right ⟨fun ⟨⟨mem, other⟩, differs⟩ => ⟨⟨mem, differs⟩, other⟩,
    fun ⟨⟨mem, differs⟩, other⟩ => ⟨⟨mem, other⟩, differs⟩⟩

theorem length_nvIndexWith {e : NvEntry} (sorted : rising (s.nv.index.map NvEntry.tag)) (most : s.nv.index.length ≤ 512)
    (room : (s.pool.index.filter (fun x => decide (x.tag ≠ e.tag))).length < 512) : (s.nvIndexWith e).length ≤ 512 := by
  refine length_putNvEntry_roomInNvIndex e _ _ sorted most ?_
  rw [List.filter_map, List.length_map]
  exact room

end

/-! ### Freed cells and the watermark -/

theorem length_insertAsc_le (n : Nat) (ms : List Nat) : ms.length ≤ (insertAsc n ms).length := by
  induction ms with
  | nil => exact Nat.zero_le _
  | cons m ms ih =>
    unfold insertAsc
    split
    · exact Nat.le_succ _
    · split
      · exact Nat.le_refl _
      · exact Nat.succ_le_succ ih

theorem length_insertAll_le (ns ms : List Nat) : ms.length ≤ (insertAll ns ms).length := by
  induction ns generalizing ms with
  | nil => exact Nat.le_refl _
  | cons n ns ih => exact Nat.le_trans (length_insertAsc_le n ms) (ih (insertAsc n ms))

/-- Cells freed never bring POOL_LOW about (R11). -/
theorem flags_freeCells {s : State} (watched : s.pool.low = decide (s.pool.free.length < s.settings.watermark))
    (cells : List Nat) (m : Link) : ((s.freeCells cells).port m).flags = (s.port m).flags := by
  cases cells with
  | nil => rfl
  | cons c cs =>
    have quiet : (decide ((insertAll (c :: cs) s.pool.free).length < s.settings.watermark) && !s.pool.low) = false := by
      rw [watched]
      have more := length_insertAll_le (c :: cs) s.pool.free
      by_cases low : s.pool.free.length < s.settings.watermark
      · simp [low]
      · have high : ¬(insertAll (c :: cs) s.pool.free).length < s.settings.watermark := by omega
        simp [high]
    rw [freeCells_cons]
    dsimp only
    rw [quiet]
    cases m <;> rfl

theorem hasFlag_freeCells_jobDone (s : State) (cells : List Nat) (m : Link) :
    ((s.freeCells cells).port m).hasFlag .jobDone = (s.port m).hasFlag .jobDone :=
  onlyPoolLow_freeCells s cells m .jobDone nofun

/-! ### Hangs that go on -/

/-- `s` with what a hang that goes on may touch in `t`. -/
def State.hungFrom (s t : State) : State :=
  { s with
    pl := s.pl.ended t.pl, dl := s.dl.ended t.dl, sl := s.sl.ended t.sl
    pool := { s.pool with free := t.pool.free, low := t.pool.low }
    nvPort := { s.nvPort with waiting := t.nvPort.waiting }
    changes := t.changes, postWaiters := t.postWaiters }

theorem State.HangMove.hungFrom {s t : State} (h : s.HangMove t) : t = s.hungFrom t := by
  induction h with
  | @trans s t u _ _ ih1 ih2 =>
    calc u = t.hungFrom u := ih2
      _ = (s.hungFrom t).hungFrom u := by rw [← ih1]
      _ = s.hungFrom u := rfl
  | job s l j => cases l <;> rfl
  | notice s l n desk engine => cases l <;> rfl
  | _ => rfl

theorem hungFrom_finishJob (s : State) (l : Link) (st : JobState) (res : ResultCode) (fields : JobFields) :
    s.finishJob l st res fields = s.hungFrom (s.finishJob l st res fields) := by
  have ended := finishJob_ended s l st res fields
  rw [ended]
  rfl

theorem hangMove_setWrite (s : State) (l : Link) (w : RecWrite) : s.HangMove (s.setWrite l w) := by
  unfold State.setWrite
  split
  · exact .refl s
  · split
    · exact hangMove_setWork s l _
    · exact hangMove_setWork s l _
    · exact .refl s
    · exact .refl s
    · exact .refl s

end Sys2Proof.Machine
end

section
/-! PROOFS. INDEX_SWAP_COMPLETE and ERASE_WRITE_COMPLETE (O44). -/
namespace Sys2Proof.Machine

/-! ### A record's cells freed and its indexes changed -/

/-- The cells of a tag's record. -/
def State.cellsOf (s : State) (tag : Nat) : List Nat := ((s.findEntry tag).map IndexEntry.cells).getD []

theorem cellsOf_eq (s : State) (tag : Nat) : (match (generalizing := false) s.findEntry tag with
    | none => []
    | some e => e.cells) = s.cellsOf tag := by
  rw [State.cellsOf]
  cases s.findEntry tag <;> rfl

theorem mem_cellsOf (s : State) (tag k : Nat) : k ∈ s.cellsOf tag ↔ ∃ e, s.findEntry tag = some e ∧ k ∈ e.cells := by
  rw [State.cellsOf]
  cases s.findEntry tag with
  | none => simp
  | some e => simp

/-- The state with other indexes and counters. -/
def State.indexes (s : State) (nv : NvMemory) (index : List IndexEntry) (counter : Nat) : State :=
  { s with nv := nv, pool := { s.pool with index := index, counter := counter } }

/-- The state with other indexes and counters, the cells of a tag's old record freed and its PENDING flag
re-evaluated: what a swap and an erase have in common. -/
def State.reindexed (s : State) (tag : Nat) (nv : NvMemory) (index : List IndexEntry) (counter : Nat) : State :=
  ((s.indexes nv index counter).freeCells (s.cellsOf tag)).refreshTag tag

/-- `s` with what a replaced or removed record, a job's end and a hang that goes on may touch in `t`. -/
def State.reindexedFrom (s t : State) : State :=
  { s with
    pl := s.pl.ended t.pl, dl := s.dl.ended t.dl, sl := s.sl.ended t.sl
    nv := t.nv, pool := { t.pool with retired := s.pool.retired }
    nvPort := { s.nvPort with waiting := t.nvPort.waiting }, positions := t.positions
    changes := t.changes, postWaiters := t.postWaiters }

/-- `t` is `s` with a tag's record replaced or removed, and with what its job's end or its hang may have done since. -/
structure State.Reindexed (s t : State) (tag : Nat) (nv : NvMemory) (index : List IndexEntry) (counter : Nat) : Prop where
  nv : t.nv = nv
  index : t.pool.index = index
  counter : t.pool.counter = counter
  chain : ∀ c, chainOf t.pool.chain c = if c ∈ s.cellsOf tag then .free else chainOf s.pool.chain c
  image : ∀ c, mapGet c t.pool.image = if c ∈ s.cellsOf tag then none else mapGet c s.pool.image
  pending : ∀ (i : Nat) (p q : Position), s.positions[i]? = some p → t.positions[i]? = some q → q = { p with
    pending := if s.positionOf tag = some i then (t.pendingReason p).isSome else p.pending }
  positions : t.positions.length = s.positions.length
  touched : t = s.reindexedFrom t

section
variable {s t : State} {tag : Nat} {nv : NvMemory} {index : List IndexEntry} {counter : Nat}

theorem reindexed_eq (s : State) (tag : Nat) (nv : NvMemory) (index : List IndexEntry) (counter : Nat) :
    s.reindexed tag nv index counter =
      { (s.indexes nv index counter).freeCells (s.cellsOf tag) with
        positions := ((s.indexes nv index counter).freeCells (s.cellsOf tag)).refreshed tag } :=
  refreshTag_eq ((s.indexes nv index counter).freeCells (s.cellsOf tag)) tag

theorem pool_reindexed (s : State) (tag : Nat) (nv : NvMemory) (index : List IndexEntry) (counter : Nat) :
    (s.reindexed tag nv index counter).pool = ((s.indexes nv index counter).freeCells (s.cellsOf tag)).pool := by
  rw [reindexed_eq]

theorem port_reindexed (s : State) (tag : Nat) (nv : NvMemory) (index : List IndexEntry) (counter : Nat) (m : Link) :
    (s.reindexed tag nv index counter).port m = ((s.indexes nv index counter).freeCells (s.cellsOf tag)).port m := by
  rw [reindexed_eq]
  cases m <;> rfl

theorem reindexed_port_flags (s : State) (tag : Nat) (nv : NvMemory) (index : List IndexEntry) (counter : Nat) (m : Link) :
    (s.reindexed tag nv index counter).port m =
      { s.port m with flags := ((s.reindexed tag nv index counter).port m).flags } := by
  rw [port_reindexed, freeCells_freedFrom]
  cases m <;> rfl

theorem job_reindexed (s : State) (tag : Nat) (nv : NvMemory) (index : List IndexEntry) (counter : Nat) (m : Link) :
    ((s.reindexed tag nv index counter).port m).job = (s.port m).job := by
  rw [reindexed_port_flags]

theorem jobDone_reindexed (s : State) (tag : Nat) (nv : NvMemory) (index : List IndexEntry) (counter : Nat) (m : Link) :
    ((s.reindexed tag nv index counter).port m).hasFlag .jobDone = (s.port m).hasFlag .jobDone := by
  rw [port_reindexed, hasFlag_freeCells_jobDone]
  cases m <;> rfl

theorem flags_reindexed (watched : s.pool.low = decide (s.pool.free.length < s.settings.watermark)) (m : Link) :
    ((s.reindexed tag nv index counter).port m).flags = (s.port m).flags := by
  rw [port_reindexed, flags_freeCells (s := s.indexes nv index counter) watched]
  cases m <;> rfl

theorem mem_free_reindexed (k : Nat) : k ∈ (s.reindexed tag nv index counter).pool.free ↔
    k ∈ s.pool.free ∨ ∃ e, s.findEntry tag = some e ∧ k ∈ e.cells := by
  rw [pool_reindexed, (claimReleased_freeCells (s.indexes nv index counter) (s.cellsOf tag)).free, mem_cellsOf]
  rfl

theorem reindexed_reindexed (gone : t = (s.reindexed tag nv index counter).hungFrom t) :
    s.Reindexed t tag nv index counter := by
  have freed := freeCells_freedFrom (s.indexes nv index counter) (s.cellsOf tag)
  have released := claimReleased_freeCells (s.indexes nv index counter) (s.cellsOf tag)
  have pool : t.pool = { (s.reindexed tag nv index counter).pool with free := t.pool.free, low := t.pool.low } := by
    rw [gone]
    rfl
  have positions : t.positions = ((s.indexes nv index counter).freeCells (s.cellsOf tag)).refreshed tag := by
    rw [gone, reindexed_eq]
    rfl
  have still : ((s.indexes nv index counter).freeCells (s.cellsOf tag)).positions = s.positions := by
    rw [freed]
    rfl
  have settings : t.settings = ((s.indexes nv index counter).freeCells (s.cellsOf tag)).settings := by
    rw [gone, reindexed_eq]
    rfl
  rw [pool_reindexed] at pool
  obtain ⟨-, keptIndex, keptCounter⟩ := released.kept
  have index' : t.pool.index = ((s.indexes nv index counter).freeCells (s.cellsOf tag)).pool.index := by rw [pool]
  refine ⟨?_, index'.trans keptIndex, ?_, fun c => ?_, fun c => ?_, fun i p q before after => ?_, ?_, ?_⟩
  · rw [gone, reindexed_eq, freed]
    rfl
  · rw [pool]
    exact keptCounter
  · rw [pool]
    exact released.chain c
  · rw [pool]
    exact released.image c
  · rw [positions] at after
    rw [pendingReason_congr index' settings]
    have place : ((s.indexes nv index counter).freeCells (s.cellsOf tag)).positionOf tag = s.positionOf tag := by
      rw [State.positionOf, State.positionOf, still]
    rw [← place]
    exact refreshed_at (still ▸ before) after
  · rw [positions, length_refreshed, still]
  · calc t = (s.reindexed tag nv index counter).hungFrom t := gone
      _ = s.reindexedFrom ((s.reindexed tag nv index counter).hungFrom t) := by
        rw [reindexed_eq, freed]
        rfl
      _ = s.reindexedFrom t := by rw [← gone]

end

end Sys2Proof.Machine
end

section
/-! PROOFS. A job's end after its record was replaced or removed (O44). -/
namespace Sys2Proof.Machine

section
variable {s : State} {tag : Nat} {nv : NvMemory} {index : List IndexEntry} {counter : Nat} {l : Link} {j : Job}
variable (st : JobState) (res : ResultCode) (fields : JobFields)

theorem changes_reindexed (s : State) (tag : Nat) (nv : NvMemory) (index : List IndexEntry) (counter : Nat) :
    (s.reindexed tag nv index counter).changes = s.changes ∧
      (s.reindexed tag nv index counter).postWaiters = s.postWaiters ∧
      (s.reindexed tag nv index counter).nvPort = s.nvPort := by
  rw [reindexed_eq, freeCells_freedFrom]
  exact ⟨rfl, rfl, rfl⟩

/-- What the end of a job leaves of the queues and of the freed cells. -/
theorem finishJob_reindexed_kept (t : State) (ends : t = (s.reindexed tag nv index counter).finishJob l st res fields) :
    t.changes = s.changes ∧ t.postWaiters = s.postWaiters ∧ t.nvPort = s.nvPort ∧
      ∀ k, k ∈ t.pool.free ↔ k ∈ s.pool.free ∨ ∃ e, s.findEntry tag = some e ∧ k ∈ e.cells := by
  have ended := ends.trans (finishJob_ended _ l st res fields)
  obtain ⟨changes, postWaiters, nvPort⟩ := changes_reindexed s tag nv index counter
  have pool : t.pool = (s.reindexed tag nv index counter).pool := by rw [ended]
  refine ⟨?_, ?_, ?_, fun k => ?_⟩
  · rw [ended]
    exact changes
  · rw [ended]
    exact postWaiters
  · rw [ended]
    exact nvPort
  · rw [pool, mem_free_reindexed]

theorem finishJob_reindexed_attached (job : (s.port l).job = some j) (attached : j.detached = false) (t : State)
    (ends : t = (s.reindexed tag nv index counter).finishJob l st res fields) :
    (∀ m, m ≠ l → t.port m = { s.port m with flags := (t.port m).flags }) ∧ (t.port l).job = none ∧
      (t.port l).hasFlag .jobDone = true ∧ (t.port l).record = ⟨st, res, j.committed, fields⟩ ∧
      (s.pool.low = decide (s.pool.free.length < s.settings.watermark) → ∀ (m : Link) (n : Notice),
        (m ≠ l ∨ n ≠ .jobDone) → (t.port m).hasFlag n = (s.port m).hasFlag n) := by
  rw [finishJob_attached ((job_reindexed s tag nv index counter l).trans job) attached] at ends
  subst ends
  have others (m : Link) (other : m ≠ l) := State.port_setPort_of_ne (s.reindexed tag nv index counter) l m
    { (s.reindexed tag nv index counter).port l with
      job := none, record := ⟨st, res, j.committed, fields⟩
      flags := ((s.reindexed tag nv index counter).port l).flags ||| Notice.jobDone.word } other
  rw [State.port_setPort]
  refine ⟨fun m other => ?_, rfl, hasFlag_jobDone rfl, rfl, fun watched m n other => ?_⟩
  · rw [others m other]
    exact reindexed_port_flags s tag nv index counter m
  · have still : ((s.reindexed tag nv index counter).port m).hasFlag n = (s.port m).hasFlag n := by
      rw [Port.hasFlag, flags_reindexed watched, Port.hasFlag]
    by_cases same : m = l
    · subst same
      rw [State.port_setPort, ← still]
      exact hasFlag_raise_other ((s.reindexed tag nv index counter).port m) (other.resolve_left (not_not_intro rfl))
    · rw [others m same, still]

theorem finishJob_reindexed_detached (job : (s.port l).job = some j) (detached : j.detached = true) (t : State)
    (ends : t = (s.reindexed tag nv index counter).finishJob l st res fields) :
    (∀ m, t.port m = { s.port m with job := if m = l then none else (s.port m).job, flags := (t.port m).flags }) ∧
      (t.port l).hasFlag .jobDone = (s.port l).hasFlag .jobDone ∧
      (s.pool.low = decide (s.pool.free.length < s.settings.watermark) → ∀ m, (t.port m).flags = (s.port m).flags) := by
  rw [finishJob_detached ((job_reindexed s tag nv index counter l).trans job) detached] at ends
  subst ends
  have ports (m : Link) : ((s.reindexed tag nv index counter).setPort l
      { (s.reindexed tag nv index counter).port l with job := none }).port m =
      { (s.reindexed tag nv index counter).port m with job := if m = l then none else (s.port m).job } := by
    by_cases same : m = l
    · rw [if_pos same, same, State.port_setPort]
    · rw [if_neg same, State.port_setPort_of_ne _ _ _ _ same, ← job_reindexed s tag nv index counter m]
  refine ⟨fun m => ?_, ?_, fun watched m => ?_⟩
  · rw [ports, reindexed_port_flags]
  · rw [ports]
    exact jobDone_reindexed s tag nv index counter l
  · rw [ports]
    exact flags_reindexed watched m

end

end Sys2Proof.Machine
end

section
/-! PROOFS. INDEX_SWAP_COMPLETE and ERASE_WRITE_COMPLETE (O44). -/
namespace Sys2Proof.Machine

/-! ### The swap (R6, R8, R15) -/

/-- The stored entry of a swapped record. -/
def RecWrite.nvEntry (w : RecWrite) (v : Nat) : NvEntry :=
  ⟨w.tag, w.written.headD 0, v, if w.provisional then .provisional else .ok⟩

/-- The index entry of a swapped record. -/
def RecWrite.indexEntry (w : RecWrite) (v : Nat) : IndexEntry :=
  ⟨w.tag, w.written.headD 0, v, if w.provisional then .provisional else .ok, w.written⟩

theorem swapRecord_eq (s : State) (w : RecWrite) (v : Nat) : s.swapRecord w v =
    s.reindexed w.tag { s.nv with index := s.nvIndexWith (w.nvEntry v), counter := v + 1 }
      (putEntry (w.indexEntry v) s.pool.index) (v + 1) :=
  congrArg (fun old => ((s.indexes { s.nv with index := s.nvIndexWith (w.nvEntry v), counter := v + 1 }
    (putEntry (w.indexEntry v) s.pool.index) (v + 1)).freeCells old).refreshTag w.tag) (cellsOf_eq s w.tag)

/-- What follows a swap is a job's end or a hang that goes on. -/
theorem endWrite_hungFrom (s : State) (l : Link) (w : RecWrite) (v : Nat) :
    s.endWrite l w v = s.hungFrom (s.endWrite l w v) := by
  unfold State.endWrite
  split
  · exact State.HangMove.hungFrom ((hangMove_setWrite s l _).trans (hangMove_provEnd _ l .done))
  · exact hungFrom_finishJob s l _ _ _

/-- What a completed swap makes of the state `s` of its event, whatever follows it. -/
structure State.Swapped (s t : State) (w : RecWrite) (v : Nat) : Prop where
  current : t.nvPort.current = none
  found : t.findEntry w.tag = some (w.indexEntry v)
  others : ∀ tag, tag ≠ w.tag → t.findEntry tag = s.findEntry tag
  counters : t.pool.counter = v + 1 ∧ t.nv.counter = v + 1
  stored : t.nv.index = s.nvIndexWith (w.nvEntry v)
  chain : ∀ c, chainOf t.pool.chain c = if c ∈ s.cellsOf w.tag then .free else chainOf s.pool.chain c
  image : ∀ c, mapGet c t.pool.image = if c ∈ s.cellsOf w.tag then none else mapGet c s.pool.image
  pending : ∀ (i : Nat) (p q : Position), s.positions[i]? = some p → t.positions[i]? = some q → q = { p with
    pending := if s.positionOf w.tag = some i then (t.pendingReason p).isSome else p.pending }
  positions : t.positions.length = s.positions.length
  touched : t = { s with
    pl := s.pl.ended t.pl, dl := s.dl.ended t.dl, sl := s.sl.ended t.sl
    nv := { s.nv with index := t.nv.index, counter := v + 1 }
    pool := { t.pool with retired := s.pool.retired }, nvPort := t.nvPort, positions := t.positions
    changes := t.changes, postWaiters := t.postWaiters }

theorem swapped_of {s t : State} {w : RecWrite} {v : Nat} {port : NvPort} (idle : port.current = none)
    (gone : t = (State.swapRecord { s with nvPort := port } w v).hungFrom t) : s.Swapped t w v := by
  rw [swapRecord_eq] at gone
  obtain ⟨nv, index, counter, chain, image, pending, positions, touched⟩ := reindexed_reindexed gone
  have stored : t.nv = { s.nv with index := t.nv.index, counter := v + 1 } := by rw [nv]
  refine ⟨?_, ?_, fun tag other => ?_, ⟨counter, by rw [nv]⟩, by rw [nv]; rfl, chain, image, pending, positions, ?_⟩
  · rw [touched]
    exact idle
  · rw [State.findEntry, index]
    exact find_putEntry_same (w.indexEntry v) _
  · rw [State.findEntry, index]
    exact find_putEntry_other (w.indexEntry v) tag _ other
  · have port' : t.nvPort = { port with waiting := t.nvPort.waiting } := by
      rw [touched]
      rfl
    rw [State.reindexedFrom] at touched
    rw [← stored]
    exact touched.trans (by rw [← port'])

/-- The stored index after a swap, when its tags rise (R6). -/
theorem swapped_index {s t : State} {w : RecWrite} {v : Nat} (swapped : s.Swapped t w v)
    (sorted : rising (s.nv.index.map NvEntry.tag)) :
    ((s.nv.others w.tag).length < 512 → ∀ x, x ∈ t.nv.index ↔ x = w.nvEntry v ∨ x ∈ s.nv.others w.tag) ∧
    (512 ≤ (s.nv.others w.tag).length →
      ∀ d, (s.nv.others w.tag).find? (fun x => (s.findEntry x.tag).isNone) = some d →
        ∀ x, x ∈ t.nv.index ↔ x = w.nvEntry v ∨ x ∈ s.nv.others w.tag ∧ x ≠ d) ∧
    (s.nv.index.length ≤ 512 → (s.pool.index.filter (fun x => decide (x.tag ≠ w.tag))).length < 512 →
      t.nv.index.length ≤ 512) := by
  rw [swapped.stored]
  exact ⟨mem_nvIndexWith_of_room (e := w.nvEntry v) sorted,
    fun full d found => mem_nvIndexWith_of_full (e := w.nvEntry v) sorted full found,
    length_nvIndexWith (e := w.nvEntry v) sorted⟩

section
variable {s : State} {l : Link} {w : RecWrite} {v : Nat}

theorem exec_indexSwapComplete (current : s.nvPort.current = some ⟨⟨l, .swap⟩, true⟩) (write : s.writeOf l = some w)
    (revision : w.revision = some v) :
    exec .indexSwapComplete s = .next ((s.clearCurrent.swapRecord w v).endWrite l w v) := by
  have writes : s.clearCurrent.writeOf l = some w := write
  refine congrArg Host.Outcome.next ?_
  simp only [current, writes, revision]

/-- The NV Port once the swap of an ended hang has completed. -/
def NvPort.swapOver (p : NvPort) : NvPort := { p with current := none, orphan := none }

theorem exec_indexSwapComplete_dead (current : s.nvPort.current = some ⟨⟨l, .swap⟩, false⟩)
    (orphan : s.nvPort.orphan = some w) (revision : w.revision = some v) :
    exec .indexSwapComplete s = .next (State.swapRecord { s with nvPort := s.nvPort.swapOver } w v) := by
  refine congrArg Host.Outcome.next ?_
  simp only [current, orphan, revision]
  rfl

theorem endWrite_fresh (u : State) (fresh : w.provisional = false) : u.endWrite l w v =
    u.finishJob l .done .none (.write w.tag w.phase w.written.length w.retired (some v)) :=
  if_neg (by simp [fresh])

end

/-! ### The erase (R18) -/

theorem find_filter_same (tag : Nat) (l : List IndexEntry) :
    (l.filter (fun e => decide (e.tag ≠ tag))).find? (fun e => e.tag == tag) = none := by
  simp

theorem find_filter_other {tag other : Nat} (differs : other ≠ tag) (l : List IndexEntry) :
    (l.filter (fun e => decide (e.tag ≠ tag))).find? (fun e => e.tag == other) = l.find? (fun e => e.tag == other) := by
  rw [List.find?_filter]
  congr 1
  funext e
  by_cases same : e.tag = other
  · simp [same, differs]
  · simp [same]

/-- The stored memory less a tag. -/
def NvMemory.without (nv : NvMemory) (tag : Nat) : NvMemory := { nv with index := nv.others tag }

theorem eraseRecord_eq {s : State} {tag : Nat} (l : Link) {e : IndexEntry} (found : s.findEntry tag = some e) :
    s.eraseRecord l tag = (s.reindexed tag (s.nv.without tag) (s.pool.index.filter (fun e => decide (e.tag ≠ tag)))
      s.pool.counter).finishJob l .done .none (.erase tag (some e.cells.length)) := by
  rw [State.eraseRecord, State.reindexed, State.cellsOf, found]
  rfl

theorem exec_eraseWriteComplete {s : State} {l : Link} {tag : Nat} {live : Bool}
    (current : s.nvPort.current = some ⟨⟨l, .remove tag⟩, live⟩) :
    exec .eraseWriteComplete s = .next (s.clearCurrent.eraseRecord l tag) := by
  refine congrArg Host.Outcome.next ?_
  simp only [current]

theorem cellsOf_of_found {s : State} {tag : Nat} {e : IndexEntry} (found : s.findEntry tag = some e) :
    s.cellsOf tag = e.cells := by
  rw [State.cellsOf, found]
  rfl

/-! ### Both take effect at completion -/

theorem swapTakesEffect (s : State) (l : Link) (w : RecWrite) (v : Nat) (revision : w.revision = some v)
    (current : (s.nvPort.current = some ⟨⟨l, .swap⟩, true⟩ ∧ s.writeOf l = some w) ∨
      (s.nvPort.current = some ⟨⟨l, .swap⟩, false⟩ ∧ s.nvPort.orphan = some w)) :
    ∃ t, exec .indexSwapComplete s = .next t ∧ s.Swapped t w v ∧
      (s.nvPort.current = some ⟨⟨l, .swap⟩, true⟩ → w.provisional = false →
        t = (s.clearCurrent.swapRecord w v).finishJob l .done .none
          (.write w.tag w.phase w.written.length w.retired (some v))) ∧
      (s.nvPort.current = some ⟨⟨l, .swap⟩, false⟩ →
        t = State.swapRecord { s with nvPort := s.nvPort.swapOver } w v) := by
  rcases current with ⟨live, write⟩ | ⟨dead, orphan⟩
  · refine ⟨_, exec_indexSwapComplete live write revision,
      swapped_of (port := { s.nvPort with current := none }) rfl (endWrite_hungFrom _ l w v),
      fun _ fresh => endWrite_fresh _ fresh, fun dead => ?_⟩
    cases live.symm.trans dead
  · refine ⟨_, exec_indexSwapComplete_dead dead orphan revision, swapped_of (port := s.nvPort.swapOver) rfl rfl,
      fun live => ?_, fun _ => rfl⟩
    cases dead.symm.trans live

/-- Settles O44: at its completion a swap puts the record's entry, frees the old record's cells and re-evaluates PENDING,
an erase removes it; what follows is the job's end, or the hang's next step, or nothing for a hang that has ended. -/
theorem swapAndEraseTakeEffectAtCompletion : Obligations.SwapAndEraseTakeEffectAtCompletion := by
  intro s l watched
  refine ⟨fun w v revision current => ?_, fun tag e j live current job found => ?_⟩
  · obtain ⟨t, runs, swapped, fresh, dead⟩ := swapTakesEffect s l w v revision current
    refine ⟨t, runs, swapped.current, swapped.found, swapped.others, swapped.counters.1, swapped.counters.2,
      fun sorted => swapped_index swapped sorted, ⟨swapped.chain, swapped.image⟩, swapped.pending, swapped.positions,
      swapped.touched, fun j job work plain attached live => ?_, fun j job work plain detached live => ?_, fun ended => ?_⟩
    · have ends := fresh live plain
      rw [swapRecord_eq] at ends
      obtain ⟨changes, postWaiters, nvPort, free⟩ := finishJob_reindexed_kept _ _ _ t ends
      obtain ⟨others, ended, done, record, quiet⟩ := finishJob_reindexed_attached (s := s.clearCurrent) _ _ _ job attached t ends
      exact ⟨changes, postWaiters, nvPort, others, ended, done, record, free, quiet⟩
    · have ends := fresh live plain
      rw [swapRecord_eq] at ends
      obtain ⟨changes, postWaiters, nvPort, free⟩ := finishJob_reindexed_kept _ _ _ t ends
      obtain ⟨ports, done, quiet⟩ := finishJob_reindexed_detached (s := s.clearCurrent) _ _ _ job detached t ends
      exact ⟨changes, postWaiters, nvPort, ports, done, quiet, free⟩
    · have only := dead ended
      rw [swapRecord_eq] at only
      subst only
      obtain ⟨changes, postWaiters, nvPort⟩ := changes_reindexed { s with nvPort := s.nvPort.swapOver } w.tag _ _ _
      exact ⟨changes, postWaiters, nvPort, reindexed_port_flags { s with nvPort := s.nvPort.swapOver } w.tag _ _ _,
        fun low m => flags_reindexed (s := { s with nvPort := s.nvPort.swapOver }) low m, fun k => mem_free_reindexed k⟩
  · have erases := (exec_eraseWriteComplete current).trans
      (congrArg Host.Outcome.next (eraseRecord_eq (s := s.clearCurrent) l found))
    refine ⟨_, erases, ?_⟩
    generalize ends : State.finishJob _ _ _ _ _ = t
    have gone := hungFrom_finishJob (s.clearCurrent.reindexed tag (s.clearCurrent.nv.without tag)
      (s.clearCurrent.pool.index.filter (fun e => decide (e.tag ≠ tag))) s.clearCurrent.pool.counter) l .done .none
      (.erase tag (some e.cells.length))
    rw [ends] at gone
    obtain ⟨nv, index, counter, chain, image, pending, positions, touched⟩ := reindexed_reindexed gone
    obtain ⟨changes, postWaiters, nvPort, free⟩ := finishJob_reindexed_kept _ _ _ t ends.symm
    have stored (x : NvEntry) : x ∈ t.nv.index ↔ x ∈ s.nv.index ∧ x.tag ≠ tag := by
      rw [nv]
      exact mem_others s.nv x
    rw [cellsOf_of_found (s := s.clearCurrent) found] at chain image
    have absent : t.findEntry tag = none := by
      rw [State.findEntry, index]
      exact find_filter_same tag _
    have others (other : Nat) (differs : other ≠ tag) : t.findEntry other = s.findEntry other := by
      rw [State.findEntry, index]
      exact find_filter_other differs _
    have freed (k : Nat) : k ∈ t.pool.free ↔ k ∈ s.pool.free ∨ k ∈ e.cells := by
      rw [free k, ← mem_cellsOf, cellsOf_of_found (s := s.clearCurrent) found]
      rfl
    have whole : t = { s with
        pl := s.pl.ended t.pl, dl := s.dl.ended t.dl, sl := s.sl.ended t.sl
        nv := { s.nv with index := t.nv.index }
        pool := { t.pool with retired := s.pool.retired, counter := s.pool.counter }
        nvPort := { s.nvPort with current := none }, positions := t.positions } := by
      have nv' : t.nv = { s.nv with index := t.nv.index } := by rw [nv]; rfl
      have counter' : s.pool.counter = t.pool.counter := counter.symm
      rw [State.reindexedFrom, changes, postWaiters, nvPort] at touched
      rw [← nv']
      refine touched.trans ?_
      rw [counter']
      rfl
    cases detached : j.detached with
    | false =>
      obtain ⟨ports, ended, done, record, quiet⟩ :=
        finishJob_reindexed_attached (s := s.clearCurrent) _ _ _ job detached t ends.symm
      exact ⟨by rw [nvPort]; rfl, absent, others, fun x mem => ((stored x).mp mem).2, freed, ended, chain, image, stored, ports,
        fun _ => ⟨done, record⟩, nofun, quiet, pending, positions, whole⟩
    | true =>
      obtain ⟨ports, done, quiet⟩ := finishJob_reindexed_detached (s := s.clearCurrent) _ _ _ job detached t ends.symm
      refine ⟨by rw [nvPort]; rfl, absent, others, fun x mem => ((stored x).mp mem).2, freed, ?_, chain, image, stored,
        fun m other => ?_, nofun, fun _ => ⟨?_, done⟩, fun low m n _ => ?_, pending, positions, whole⟩
      · rw [ports l]
        exact if_pos rfl
      · have port := ports m
        rw [if_neg other] at port
        exact port
      · rw [ports l]
        rfl
      · rw [Port.hasFlag, quiet low m]
        rfl

end Sys2Proof.Machine
end

section
/-! PROOFS. The drift cycle of a count pulse (R89), branch by branch. -/
namespace Sys2Proof.Machine

/-! ### One branch of a drift cycle (R89) -/

theorem satAdd_zero (c : Nat) : satAdd c 0 = c := rfl

theorem satAdd_satSucc (c n : Nat) : satAdd (satSucc c) n = satAdd c (n + 1) := by
  induction n with
  | zero => exact (congrArg satSucc (satAdd_zero c).symm).trans (satAdd_succ c 0)
  | succ n ih => rw [← satAdd_succ, ih, satAdd_succ]

theorem hasPlaced_iff (s : State) (b : Nat) :
    s.hasPlaced b = true ↔ ∃ p ∈ s.positions, ∃ u ∈ p.hung.occupant, u.branch = b := by
  rw [State.hasPlaced, List.any_eq_true]
  refine exists_congr fun p => and_congr_right fun _ => ?_
  cases p.hung.occupant <;> simp

/-- The branch is offered its SWEEP by a drift cycle: it awaits none and has a placed tile (R89). -/
def State.sweepDue (s : State) (b : Nat) : Bool := !s.awaiting.contains b && s.hasPlaced b

/-- The SWEEP of a drift cycle. -/
def driftSweep (b : Nat) : Order := ⟨.sweep, b, .drift⟩

section
variable {s : State} {b : Nat} {late : Bool}

theorem cycleBranch_late (awaits : s.awaiting.contains b = true) :
    cycleBranch (s, late) b = ({ s with overruns := satSucc s.overruns }, true) := if_pos awaits

theorem cycleBranch_due (due : s.sweepDue b = true) (room : s.orders.length < 8) : cycleBranch (s, late) b =
    (State.queueOrder { s with awaiting := insertAsc b s.awaiting } (driftSweep b), late) := by
  obtain ⟨idle, placed⟩ : s.awaiting.contains b = false ∧ s.hasPlaced b = true := by simpa [State.sweepDue] using due
  exact (if_neg (Bool.eq_false_iff.mp idle)).trans ((if_pos placed).trans (if_pos room))

theorem cycleBranch_full (due : s.sweepDue b = true) (full : ¬s.orders.length < 8) :
    cycleBranch (s, late) b = ({ s with cyclesSkipped := satSucc s.cyclesSkipped }, late) := by
  obtain ⟨idle, placed⟩ : s.awaiting.contains b = false ∧ s.hasPlaced b = true := by simpa [State.sweepDue] using due
  exact (if_neg (Bool.eq_false_iff.mp idle)).trans ((if_pos placed).trans (if_neg full))

theorem cycleBranch_none (idle : s.awaiting.contains b = false) (none_due : s.sweepDue b = false) :
    cycleBranch (s, late) b = (s, late) := by
  have unplaced : ¬s.hasPlaced b = true := by
    rw [State.sweepDue, idle] at none_due
    simpa using none_due
  exact (if_neg (Bool.eq_false_iff.mp idle)).trans (if_neg unplaced)

end

/-! ### A cycle with the transmitter busy -/

/-- The number of branches of a list that still await the end of a sweep. -/
def State.lateOf (s : State) (bs : List Nat) : Nat := (bs.filter (fun b => s.awaiting.contains b)).length

/-- `s` after a cycle with these overruns, with these branches offered their SWEEP, and with these skipped. -/
def State.cycled (s : State) (late : Nat) (offered : List Nat) (skipped : Nat) : State :=
  { s with
    overruns := satAdd s.overruns late, cyclesSkipped := satAdd s.cyclesSkipped skipped
    awaiting := insertAll offered s.awaiting, orders := s.orders ++ offered.map driftSweep }

theorem sweepDue_insert {s : State} {b c : Nat} (other : c ≠ b) (orders : List Order) :
    State.sweepDue { s with awaiting := insertAsc b s.awaiting, orders := orders } c = s.sweepDue c := by
  have same : (insertAsc b s.awaiting).contains c = s.awaiting.contains c := by
    rw [Bool.eq_iff_iff, List.contains_iff_mem, List.contains_iff_mem, mem_insertAsc]
    simp [other]
  simp only [State.sweepDue, same]
  rfl

theorem contains_insert {s : State} {b c : Nat} (other : c ≠ b) :
    (insertAsc b s.awaiting).contains c = s.awaiting.contains c := by
  rw [Bool.eq_iff_iff, List.contains_iff_mem, List.contains_iff_mem, mem_insertAsc]
  simp [other]

/-- A cycle over a list of branches while the transmitter is busy (R89). -/
theorem cycles_busy {w : Wire} (bs : List Nat) (once : bs.Nodup) (s : State) (busy : s.wire = some w) (mark : Bool) :
    bs.foldl cycleBranch (s, mark) =
      (let due := bs.filter s.sweepDue
       let offered := due.take (8 - s.orders.length)
       (s.cycled (s.lateOf bs) offered (due.length - offered.length), mark || decide (0 < s.lateOf bs))) := by
  induction bs generalizing s mark with
  | nil => simp [State.cycled, State.lateOf, satAdd_zero, insertAll]
  | cons b bs ih =>
    obtain ⟨fresh, once⟩ := List.nodup_cons.mp once
    rw [List.foldl_cons]
    cases awaits : s.awaiting.contains b with
    | true =>
      have none_due : s.sweepDue b = false := by rw [State.sweepDue, awaits]; rfl
      rw [cycleBranch_late awaits, ih once { s with overruns := satSucc s.overruns } busy true]
      have due : (b :: bs).filter s.sweepDue = bs.filter s.sweepDue := List.filter_cons_of_neg (by simp [none_due])
      have count : s.lateOf (b :: bs) = s.lateOf bs + 1 := by
        rw [State.lateOf, List.filter_cons_of_pos awaits]
        rfl
      rw [due, count]
      refine Prod.ext ?_ (by simp)
      exact congrArg (fun n => ({ s.cycled (s.lateOf bs) _ _ with overruns := n } : State)) (satAdd_satSucc _ _)
    | false =>
      have count : s.lateOf (b :: bs) = s.lateOf bs := by
        rw [State.lateOf, List.filter_cons_of_neg (Bool.eq_false_iff.mp awaits)]
        rfl
      rw [count]
      cases isDue : s.sweepDue b with
      | false =>
        have due : (b :: bs).filter s.sweepDue = bs.filter s.sweepDue := List.filter_cons_of_neg (by simp [isDue])
        rw [cycleBranch_none awaits isDue, ih once s busy mark, due]
      | true =>
        have due : (b :: bs).filter s.sweepDue = b :: bs.filter s.sweepDue := List.filter_cons_of_pos isDue
        rw [due]
        by_cases room : s.orders.length < 8
        · rw [cycleBranch_due isDue room,
            queueOrder_of_wire (s := { s with awaiting := insertAsc b s.awaiting }) busy (driftSweep b),
            ih once { s with awaiting := insertAsc b s.awaiting, orders := s.orders ++ [driftSweep b] } busy mark]
          have rest : bs.filter (State.sweepDue { s with
              awaiting := insertAsc b s.awaiting, orders := s.orders ++ [driftSweep b] }) = bs.filter s.sweepDue :=
            List.filter_congr fun c mem => sweepDue_insert (b := b) (c := c) (fun same => fresh (same ▸ mem)) _
          have late : State.lateOf { s with awaiting := insertAsc b s.awaiting, orders := s.orders ++ [driftSweep b] } bs =
              s.lateOf bs := by
            rw [State.lateOf, State.lateOf]
            exact congrArg List.length (List.filter_congr fun c mem => contains_insert (b := b) (c := c) (fun same => fresh (same ▸ mem)))
          obtain ⟨n, left⟩ : ∃ n, 8 - s.orders.length = n + 1 := ⟨7 - s.orders.length, by omega⟩
          have left' : 8 - (s.orders ++ [driftSweep b]).length = n := by
            rw [List.length_append, List.length_singleton]
            omega
          rw [rest, late]
          dsimp only
          rw [left', left, List.take_succ_cons, List.length_cons, List.length_cons, Nat.add_sub_add_right]
          simp only [State.cycled, List.map_cons, List.append_assoc, List.singleton_append, insertAll, List.foldl_cons]
        · rw [cycleBranch_full isDue room, ih once { s with cyclesSkipped := satSucc s.cyclesSkipped } busy mark]
          have full : 8 - s.orders.length = 0 := by omega
          dsimp only
          rw [full, List.take_zero, List.take_zero]
          refine Prod.ext ?_ rfl
          exact congrArg (fun n => ({ s.cycled (s.lateOf bs) [] 0 with cyclesSkipped := n } : State)) (satAdd_satSucc _ _)

end Sys2Proof.Machine
end

section
/-! PROOFS. The drift cycle of a count pulse with the transmitter free (R48, R89), and what a cycle leaves alone. -/
namespace Sys2Proof.Machine

/-! ### A SWEEP offered to a free transmitter -/

/-- The transmitter takes an order queued now at once, or it is busy. -/
def State.Ready (s : State) : Prop :=
  s.wire ≠ none ∨ (s.orders = [] ∧ s.owed = [] ∧ s.spaceWaiters = [])

theorem checkOrder_sweep_cases (s : State) {o : Order} (kind : o.kind = .sweep) :
    s.checkOrder o = s.tell o.orig o.branch .branchFault ∨ s.checkOrder o = s.sendSweep o ∨ s.checkOrder o = s.clash o := by
  rw [State.checkOrder, kind]
  cases (s.branch o.branch).state with
  | fault => exact .inl rfl
  | idle => exact .inr (.inl rfl)
  | _ => exact .inr (.inr rfl)

/-- An order queued to an empty queue with the transmitter free is taken alone (R48). -/
theorem queueOrder_free {s t : State} {o : Order} (free : s.wire = none) (empty : s.orders = []) (owed : s.owed = [])
    (space : s.spaceWaiters = []) (takes : s.checkOrder o = t) (quiet : t.Quiescent) : s.queueOrder o = t := by
  have alone : (s.pushOrder o).orders = [o] := by
    rw [State.pushOrder, empty]
    rfl
  have same : ({ s.pushOrder o with orders := [] } : State) = s := by
    rw [← empty]
    rfl
  exact kick_alone (s := s.pushOrder o) free alone owed space (by rw [same, takes]) quiet

/-- What a branch of a drift cycle may change, as the branches after it see it. -/
structure State.CycleStep (s t : State) (b : Nat) : Prop where
  ready : t.Ready
  overruns : t.overruns = s.overruns
  flag : t.dl.hasFlag .cycleOverrun = s.dl.hasFlag .cycleOverrun
  awaiting : ∀ c, c ≠ b → t.awaiting.contains c = s.awaiting.contains c

theorem contains_removeNat {b c : Nat} (other : c ≠ b) (ns : List Nat) : (removeNat b ns).contains c = ns.contains c := by
  rw [Bool.eq_iff_iff, List.contains_iff_mem, List.contains_iff_mem, removeNat, List.mem_filter]
  simp [other]

theorem cycleStep_queueOrder {s : State} (ready : s.Ready) (b : Nat) : s.CycleStep (s.queueOrder (driftSweep b)) b := by
  cases wire : s.wire with
  | some w =>
    rw [queueOrder_of_wire wire]
    exact ⟨.inl (by rw [wire]; nofun), rfl, rfl, fun _ _ => rfl⟩
  | none =>
    obtain ⟨empty, owed, space⟩ := ready.resolve_left (not_not_intro wire)
    obtain fault | sends | clash := checkOrder_sweep_cases s (o := driftSweep b) rfl
    · rw [queueOrder_free wire empty owed space fault (.inr empty)]
      exact ⟨.inr ⟨empty, owed, space⟩, rfl, rfl, fun c other => contains_removeNat other _⟩
    · rw [queueOrder_free wire empty owed space sends (.inl nofun)]
      exact ⟨.inl nofun, rfl, rfl, fun _ _ => rfl⟩
    · rw [queueOrder_free wire empty owed space clash (.inr empty)]
      exact ⟨.inr ⟨empty, owed, space⟩, rfl, hasFlag_raise_other s.dl (n := .sweepClash) nofun,
        fun c other => contains_removeNat other _⟩

theorem lateOf_congr {s t : State} {bs : List Nat} (same : ∀ c ∈ bs, t.awaiting.contains c = s.awaiting.contains c) :
    t.lateOf bs = s.lateOf bs := congrArg List.length (List.filter_congr same)

/-- The overruns of a cycle over a list of branches (R89). -/
theorem cycles_overruns (bs : List Nat) (once : bs.Nodup) (s : State) (ready : s.Ready) (mark : Bool) :
    (bs.foldl cycleBranch (s, mark)).1.overruns = satAdd s.overruns (s.lateOf bs) ∧
      (bs.foldl cycleBranch (s, mark)).2 = (mark || decide (0 < s.lateOf bs)) ∧
      (bs.foldl cycleBranch (s, mark)).1.dl.hasFlag .cycleOverrun = s.dl.hasFlag .cycleOverrun := by
  induction bs generalizing s mark with
  | nil => exact ⟨rfl, by simp [State.lateOf], rfl⟩
  | cons b bs ih =>
    obtain ⟨fresh, once⟩ := List.nodup_cons.mp once
    rw [List.foldl_cons]
    cases awaits : s.awaiting.contains b with
    | true =>
      have count : s.lateOf (b :: bs) = s.lateOf bs + 1 := by
        rw [State.lateOf, List.filter_cons_of_pos awaits]
        rfl
      obtain ⟨overruns, marked, flag⟩ := ih once { s with overruns := satSucc s.overruns } ready true
      rw [cycleBranch_late awaits, overruns, marked, flag, count]
      exact ⟨satAdd_satSucc _ _, by simp, rfl⟩
    | false =>
      have count : s.lateOf (b :: bs) = s.lateOf bs := by
        rw [State.lateOf, List.filter_cons_of_neg (Bool.eq_false_iff.mp awaits)]
        rfl
      rw [count]
      cases isDue : s.sweepDue b with
      | false =>
        rw [cycleBranch_none awaits isDue]
        exact ih once s ready mark
      | true =>
        by_cases room : s.orders.length < 8
        · obtain ⟨ready', kept, still, others⟩ := cycleStep_queueOrder (s := { s with awaiting := insertAsc b s.awaiting }) ready b
          obtain ⟨overruns, marked, flag⟩ := ih once _ ready' mark
          have late := lateOf_congr (s := s) (bs := bs) fun c mem =>
            (others c fun same => fresh (same ▸ mem)).trans (contains_insert (b := b) (c := c) fun same => fresh (same ▸ mem))
          rw [cycleBranch_due isDue room, overruns, marked, flag, kept, still, late]
          exact ⟨rfl, rfl, rfl⟩
        · rw [cycleBranch_full isDue room]
          exact ih once { s with cyclesSkipped := satSucc s.cyclesSkipped } ready mark

theorem sweepsDue_congr {s t : State} {bs : List Nat} (positions : t.positions = s.positions)
    (same : ∀ c ∈ bs, t.awaiting.contains c = s.awaiting.contains c) : bs.filter t.sweepDue = bs.filter s.sweepDue :=
  List.filter_congr fun c mem => by
    rw [State.sweepDue, State.sweepDue, same c mem, State.hasPlaced, State.hasPlaced, positions]

/-- The SWEEP of a cycle's first due branch on the wire (R52, R89). -/
def State.sweepSent (s : State) (b : Nat) (x : Branch) : State :=
  { s with
    awaiting := insertAsc b s.awaiting
    branches := s.branches.set b { x with state := .starting, serial := (x.serial + 1) % 16, orig := some .drift }
    wire := some (driftSweep b).sent }

/-- A cycle that finds the transmitter free and its first due branch IDLE: that branch's SWEEP goes out, the others wait
(R48, R52, R89). -/
theorem cycles_free {b : Nat} {rest : List Nat} {x : Branch} (bs : List Nat) (once : bs.Nodup) (few : bs.length ≤ 8) (s : State)
    (free : s.wire = none) (empty : s.orders = []) (owed : s.owed = []) (space : s.spaceWaiters = [])
    (due : bs.filter s.sweepDue = b :: rest) (at_b : s.branches[b]? = some x) (idle : x.state = .idle) (mark : Bool) :
    (bs.foldl cycleBranch (s, mark)).1 = { s with
      overruns := satAdd s.overruns (s.lateOf bs), awaiting := insertAll (b :: rest) s.awaiting
      orders := rest.map driftSweep
      branches := s.branches.set b { x with state := .starting, serial := (x.serial + 1) % 16, orig := some .drift }
      wire := some (driftSweep b).sent } := by
  induction bs generalizing s mark with
  | nil => cases due
  | cons c bs ih =>
    obtain ⟨fresh, once⟩ := List.nodup_cons.mp once
    have few' : bs.length ≤ 8 := Nat.le_of_succ_le few
    rw [List.foldl_cons]
    cases awaits : s.awaiting.contains c with
    | true =>
      have none_due : s.sweepDue c = false := by rw [State.sweepDue, awaits]; rfl
      rw [List.filter_cons_of_neg (Bool.eq_false_iff.mp none_due)] at due
      have count : s.lateOf (c :: bs) = s.lateOf bs + 1 := by
        rw [State.lateOf, List.filter_cons_of_pos awaits]
        rfl
      rw [cycleBranch_late awaits, ih once few' { s with overruns := satSucc s.overruns } free empty owed space due at_b true,
        count]
      dsimp only
      rw [satAdd_satSucc]
      rfl
    | false =>
      have count : s.lateOf (c :: bs) = s.lateOf bs := by
        rw [State.lateOf, List.filter_cons_of_neg (Bool.eq_false_iff.mp awaits)]
        rfl
      rw [count]
      cases isDue : s.sweepDue c with
      | false =>
        rw [List.filter_cons_of_neg (Bool.eq_false_iff.mp isDue)] at due
        rw [cycleBranch_none awaits isDue]
        exact ih once few' s free empty owed space due at_b mark
      | true =>
        rw [List.filter_cons_of_pos isDue] at due
        obtain ⟨rfl, rfl⟩ := List.cons.inj due
        have sends : State.queueOrder { s with awaiting := insertAsc c s.awaiting } (driftSweep c) = s.sweepSent c x :=
          queueOrder_sweep (s := { s with awaiting := insertAsc c s.awaiting }) free empty owed space at_b idle rfl
        have others (d : Nat) (mem : d ∈ bs) : (s.sweepSent c x).awaiting.contains d = s.awaiting.contains d :=
          contains_insert (b := c) (c := d) fun same => fresh (same ▸ mem)
        rw [cycleBranch_due isDue (by rw [empty]; decide), sends,
          cycles_busy (w := (driftSweep c).sent) bs once (s.sweepSent c x) rfl mark,
          sweepsDue_congr (s := s) (t := s.sweepSent c x) (bs := bs) rfl others,
          lateOf_congr (s := s) (t := s.sweepSent c x) (bs := bs) others]
        have none_waits : (s.sweepSent c x).orders = [] := empty
        have all : (bs.filter s.sweepDue).take 8 = bs.filter s.sweepDue :=
          List.take_of_length_le (Nat.le_trans (List.length_filter_le _ _) few')
        dsimp only
        rw [none_waits, List.length_nil, Nat.sub_zero, all, Nat.sub_self, State.cycled, satAdd_zero, none_waits]
        rfl

end Sys2Proof.Machine
end

section
/-! PROOFS. The Cadence Timer's pulses and its stop (O22). -/
namespace Sys2Proof.Machine

/-! ### A drift cycle as a whole (R89) -/

theorem kept_cycleBranch (a : State × Bool) (b : Nat) :
    (cycleBranch a b).1.timer = a.1.timer ∧ (cycleBranch a b).1.cyclesStarted = a.1.cyclesStarted := by
  unfold cycleBranch
  dsimp only
  split
  · exact ⟨rfl, rfl⟩
  · split
    · split
      · next room =>
        have kept := (chainStep_queueOrder { a.1 with awaiting := insertAsc b a.1.awaiting } (driftSweep b) room).move.chainFrom
        rw [driftSweep] at kept
        rw [kept]
        exact ⟨rfl, rfl⟩
      · exact ⟨rfl, rfl⟩
    · exact ⟨rfl, rfl⟩

theorem kept_cycles (bs : List Nat) (a : State × Bool) :
    (bs.foldl cycleBranch a).1.timer = a.1.timer ∧ (bs.foldl cycleBranch a).1.cyclesStarted = a.1.cyclesStarted := by
  induction bs generalizing a with
  | nil => exact ⟨rfl, rfl⟩
  | cons b bs ih =>
    obtain ⟨timer, started⟩ := kept_cycleBranch a b
    obtain ⟨timers, starteds⟩ := ih (cycleBranch a b)
    exact ⟨timers.trans timer, starteds.trans started⟩

/-- A cycle counted, before its branches are taken. -/
def State.cycleBegun (s : State) : State := { s with cyclesStarted := (s.cyclesStarted + 1) % 65536 }

/-- The four branches of a drift cycle, one after another. -/
def State.cycleOutcome (s : State) : State × Bool := [0, 1, 2, 3].foldl cycleBranch (s.cycleBegun, false)

theorem startCycle_eq (s : State) : s.startCycle =
    { s.cycleOutcome.1 with dl := s.cycleOutcome.1.dl.raiseIf s.cycleOutcome.2 .cycleOverrun } := by
  have starts : s.startCycle =
    if s.cycleOutcome.2 then s.cycleOutcome.1.raise .dl .cycleOverrun else s.cycleOutcome.1 := rfl
  rw [starts]
  cases s.cycleOutcome.2 <;> rfl

theorem startCycle_timer (s : State) :
    s.startCycle.timer = s.timer ∧ s.startCycle.cyclesStarted = (s.cyclesStarted + 1) % 65536 := by
  rw [startCycle_eq]
  exact kept_cycles _ _

/-- The branches a cycle offers a SWEEP (R89). -/
def State.dueBranches (s : State) : List Nat := [0, 1, 2, 3].filter s.sweepDue

theorem startCycle_overruns {s : State} (ready : s.Ready) :
    s.startCycle.overruns = satAdd s.overruns (s.lateOf [0, 1, 2, 3]) ∧
      s.startCycle.dl.hasFlag .cycleOverrun =
        (s.dl.hasFlag .cycleOverrun || decide (0 < s.lateOf [0, 1, 2, 3])) := by
  obtain ⟨overruns, marked, flag⟩ := cycles_overruns [0, 1, 2, 3] (by decide)
    s.cycleBegun ready false
  rw [startCycle_eq]
  refine ⟨overruns, (hasFlag_raiseIf _ _ _ _).trans ?_⟩
  rw [State.cycleOutcome, flag, marked]
  simp
  rfl

theorem startCycle_busy {s : State} {w : Wire} (busy : s.wire = some w) :
    s.startCycle.orders = s.orders ++ (s.dueBranches.take (8 - s.orders.length)).map driftSweep ∧
      s.startCycle.awaiting = insertAll (s.dueBranches.take (8 - s.orders.length)) s.awaiting ∧
      s.startCycle.cyclesSkipped = satAdd s.cyclesSkipped
        (s.dueBranches.length - (s.dueBranches.take (8 - s.orders.length)).length) ∧
      s.startCycle.wire = s.wire ∧ s.startCycle.branches = s.branches := by
  rw [startCycle_eq, State.cycleOutcome, cycles_busy _ (by decide) s.cycleBegun busy]
  exact ⟨rfl, rfl, rfl, rfl, rfl⟩

theorem startCycle_free {s : State} {b : Nat} {rest : List Nat} {x : Branch} (free : s.wire = none) (empty : s.orders = [])
    (owed : s.owed = []) (space : s.spaceWaiters = []) (due : s.dueBranches = b :: rest) (at_b : s.branches[b]? = some x)
    (idle : x.state = .idle) :
    s.startCycle.wire = some (driftSweep b).sent ∧
      s.startCycle.branches =
        s.branches.set b { x with state := .starting, serial := (x.serial + 1) % 16, orig := some .drift } ∧
      s.startCycle.orders = rest.map driftSweep ∧ s.startCycle.awaiting = insertAll (b :: rest) s.awaiting ∧
      s.startCycle.cyclesSkipped = s.cyclesSkipped := by
  rw [startCycle_eq, State.cycleOutcome, cycles_free _ (by decide) (by decide) s.cycleBegun free empty owed space due at_b idle]
  exact ⟨rfl, rfl, rfl, rfl, rfl⟩

/-! ### Count pulses (R83, R84) -/

/-- The timer's state after a count pulse: a stop takes effect. -/
def TimerState.pulsed (st : TimerState) : TimerState := if st = .stopping then .stopped else .running

/-- The state in which a cycle starts at an expiry: the counter is reloaded. -/
def State.reloaded (s : State) : State := { s with timer := { s.timer with stage := 0, counter := s.settings.reload } }

section
variable {s : State}

theorem countPulse_counts (runs : s.timer.state ≠ .stopped) (more : 2 ≤ s.timer.counter) :
    s.countPulse = { s with timer := { state := s.timer.state.pulsed, counter := s.timer.counter - 1, stage := 0 } } := by
  have going : decide (s.timer.counter ≤ 1) = false := decide_eq_false (by omega)
  rw [State.countPulse, going]
  cases state : s.timer.state with
  | stopped => exact absurd state runs
  | running => exact congrArg (fun st => ({ s with timer := { state := st, counter := s.timer.counter - 1, stage := 0 } } : State)) state
  | stopping => rfl

theorem countPulse_expires (runs : s.timer.state ≠ .stopped) (last : s.timer.counter = 1) :
    s.countPulse = { s.reloaded.startCycle with
      timer := { state := s.timer.state.pulsed, counter := s.settings.reload, stage := 0 } } := by
  have expiry : decide (s.timer.counter ≤ 1) = true := decide_eq_true (by omega)
  have timer := (startCycle_timer s.reloaded).1
  have pulse : s.countPulse = match (generalizing := false) s.timer.state with
      | .stopping => { s.reloaded.startCycle with timer := { s.reloaded.startCycle.timer with state := .stopped } }
      | .running => s.reloaded.startCycle
      | .stopped => s.reloaded.startCycle := by
    rw [State.countPulse, expiry]
    rfl
  rw [pulse]
  cases state : s.timer.state with
  | stopped => exact absurd state runs
  | stopping =>
    dsimp only
    rw [timer]
    rfl
  | running =>
    have same : s.reloaded.startCycle.timer = ⟨.running, s.settings.reload, 0⟩ := by
      rw [timer, ← state]
      rfl
    dsimp only
    exact congrArg (fun x => ({ s.reloaded.startCycle with timer := x } : State)) same

theorem sourcePulse_prescales (runs : s.timer.state ≠ .stopped) (low : s.timer.stage + 1 < s.settings.prescaler) :
    s.sourcePulse = { s with timer := { s.timer with stage := s.timer.stage + 1 } } := by
  rw [State.sourcePulse]
  cases state : s.timer.state with
  | stopped => exact absurd state runs
  | _ => exact if_pos low

theorem sourcePulse_counts (runs : s.timer.state ≠ .stopped) (due : s.settings.prescaler ≤ s.timer.stage + 1) :
    s.sourcePulse = s.countPulse := by
  rw [State.sourcePulse]
  cases state : s.timer.state with
  | stopped => exact absurd state runs
  | _ => exact if_neg (Nat.not_lt.mpr due)

/-! ### The timer's events -/

theorem exec_sourcePulse (on : s.power = .on) (base : s.settings.source = .base) :
    exec .sourcePulse s = .next s.sourcePulse := by
  refine congrArg Host.Outcome.next ?_
  by_cases stopped : s.timer.state = .stopped
  · rw [State.countsBase, decide_eq_false (fun h => h.2.2 stopped), State.sourcePulse, stopped]
    rfl
  · rw [State.countsBase, decide_eq_true ⟨on, base, stopped⟩, if_pos rfl]

theorem exec_countPulse (on : s.power = .on) (base : s.settings.source = .base) (runs : s.timer.state ≠ .stopped)
    (due : s.settings.prescaler ≤ s.timer.stage + 1) {c : Instr}
    (pulse : c = .sourcePulse ∨ c = .cadenceCountPulse ∨ (c = .cadenceExpiry ∧ s.timer.counter = 1)) :
    exec c s = .next s.countPulse := by
  have ready : s.pulseDue = true := by
    rw [State.pulseDue, State.countsBase, decide_eq_true ⟨on, base, runs⟩, decide_eq_true due]
    rfl
  rcases pulse with rfl | rfl | ⟨rfl, last⟩
  · rw [exec_sourcePulse on base, sourcePulse_counts runs due]
  · exact congrArg Host.Outcome.next (if_pos ready)
  · exact congrArg Host.Outcome.next (if_pos (by rw [ready, decide_eq_true last]; rfl))

end

/-! ### The FRAME source (R83, R119) -/

/-- A commit leaves the Cadence Timer and its count of cycles alone. -/
theorem commit_timer (s : State) : s.ticking.commit.timer = s.timer ∧ s.ticking.commit.cyclesStarted = s.cyclesStarted ∧
    s.ticking.commit.settings = s.settings := by
  rw [commit_eq, buildDigest_from, stepped_ticking]
  show (s.afterEntries s.changes.length).takeDirty.timer = _ ∧ (s.afterEntries s.changes.length).takeDirty.cyclesStarted = _ ∧
    (s.afterEntries s.changes.length).takeDirty.settings = _
  rw [takeDirty_from]
  show (s.afterEntries s.changes.length).timer = _ ∧ (s.afterEntries s.changes.length).cyclesStarted = _ ∧
    (s.afterEntries s.changes.length).settings = _
  rw [afterEntries_appliedFrom]
  exact ⟨rfl, rfl, rfl⟩

/-- The timer and the count of cycles after a tick are those its FRAME pulse leaves (R119). -/
theorem frameTick_timer {s : State} (on : s.power = .on) (first : Bool) : ∃ t u : State, exec (.frameTick first) s = .next t ∧
    t.timer = u.framePulse.timer ∧ t.cyclesStarted = u.framePulse.cyclesStarted ∧ u.timer = s.timer ∧
    u.cyclesStarted = s.cyclesStarted ∧ u.settings = s.settings := by
  cases first with
  | false => exact ⟨_, s.ticking.commit, exec_frameTick_last on, rfl, rfl, commit_timer s⟩
  | true =>
    refine ⟨_, s.ticking, exec_frameTick_first on, ?_, ?_, rfl, rfl, rfl⟩
    · rw [← pulsedFirst_ticking]
      exact (commit_timer s.pulsedFirst).1
    · rw [← pulsedFirst_ticking]
      exact (commit_timer s.pulsedFirst).2.1

/-! ### CADENCE STOP (R84) -/

theorem exec_cadenceStop (l : Link) (f : Frame) (s : State) : exec (.cadenceStop l f) s =
    .next (takeCall (deskRow 0x0017) false (hasLength 0) ownCadenceStop l f s) := rfl

theorem ownCadenceStop_eq (s : State) : ownCadenceStop s =
    (let found : TimerState := if s.timer.state = .running then .stopping else s.timer.state
     .accept .ok [found.word] { s with timer := { s.timer with state := found } }) := by
  rw [ownCadenceStop]
  cases state : s.timer.state with
  | running => rfl
  | stopping => exact congrArg (fun st => Answer.accept .ok [TimerState.stopping.word] { s with timer := { s.timer with state := st } }) state
  | stopped => exact congrArg (fun st => Answer.accept .ok [TimerState.stopped.word] { s with timer := { s.timer with state := st } }) state

end Sys2Proof.Machine
end

section
/-! PROOFS. The Cadence Timer counts its pulses and starts the drift cycles (O22). -/
namespace Sys2Proof.Machine

/-- The pulse of an expiry, and the drift cycle it starts, as seen from the state of the event. -/
theorem expiry_starts_cycle {s : State} (runs : s.timer.state ≠ .stopped) (last : s.timer.counter = 1) :
    s.countPulse.timer = { state := s.timer.state.pulsed, counter := s.settings.reload, stage := 0 } ∧
      s.countPulse.cyclesStarted = (s.cyclesStarted + 1) % 65536 ∧
      (s.Ready → s.countPulse.overruns = satAdd s.overruns (s.lateOf [0, 1, 2, 3]) ∧
        s.countPulse.dl.hasFlag .cycleOverrun = (s.dl.hasFlag .cycleOverrun || decide (0 < s.lateOf [0, 1, 2, 3]))) ∧
      (∀ w, s.wire = some w →
        s.countPulse.orders = s.orders ++ (s.dueBranches.take (8 - s.orders.length)).map driftSweep ∧
        s.countPulse.awaiting = insertAll (s.dueBranches.take (8 - s.orders.length)) s.awaiting ∧
        s.countPulse.cyclesSkipped = satAdd s.cyclesSkipped
          (s.dueBranches.length - (s.dueBranches.take (8 - s.orders.length)).length) ∧
        s.countPulse.wire = s.wire ∧ s.countPulse.branches = s.branches) ∧
      ∀ (b : Nat) (rest : List Nat) (x : Branch), s.wire = none → s.orders = [] → s.owed = [] → s.spaceWaiters = [] →
        s.dueBranches = b :: rest → s.branches[b]? = some x → x.state = .idle →
        s.countPulse.wire = some (driftSweep b).sent ∧
        s.countPulse.branches =
          s.branches.set b { x with state := .starting, serial := (x.serial + 1) % 16, orig := some .drift } ∧
        s.countPulse.orders = rest.map driftSweep ∧ s.countPulse.awaiting = insertAll (b :: rest) s.awaiting ∧
        s.countPulse.cyclesSkipped = s.cyclesSkipped := by
  rw [countPulse_expires runs last]
  exact ⟨rfl, (startCycle_timer s.reloaded).2, fun ready => startCycle_overruns (s := s.reloaded) ready,
    fun w busy => startCycle_busy (s := s.reloaded) busy,
    fun b rest x free empty owed space due at_b idle => startCycle_free (s := s.reloaded) free empty owed space due at_b idle⟩

theorem dueBranches_eq (s : State) : [0, 1, 2, 3].filter (fun b => decide (b ∉ s.awaiting ∧
    ∃ p ∈ s.positions, ∃ u ∈ p.hung.occupant, u.branch = b)) = s.dueBranches := by
  refine List.filter_congr fun b _ => ?_
  rw [Bool.eq_iff_iff, decide_eq_true_iff, State.sweepDue, Bool.and_eq_true, hasPlaced_iff]
  simp

theorem lateOf_eq (s : State) (bs : List Nat) : (bs.filter (fun b => decide (b ∈ s.awaiting))).length = s.lateOf bs :=
  congrArg List.length (List.filter_congr fun b _ => by simp)

/-- Settles O22: a stop takes effect at the next count pulse; a pulse counts, and at the end of its count a cycle offers
each due branch its SWEEP while places are free. -/
theorem cadencePulsesCount : Obligations.CadencePulsesCount := by
  refine ⟨fun f s takes operands => ?_, fun s on base => ⟨fun stopped => ?_, fun runs => ⟨fun low => ?_, fun due more c pulse => ?_,
    fun due last c pulse => ?_⟩⟩, fun s first on => ?_⟩
  · rw [exec_cadenceStop]
    refine congrArg Host.Outcome.next (takeCall_changes (fun u => { u with timer := { s.timer with
      state := if s.timer.state = .running then .stopping else s.timer.state } }) (fun _ => rfl) takes
      (admits_plain rfl) (hasLength_of operands) ?_)
    exact ownCadenceStop_eq (s.called .dl)
  · rw [exec_sourcePulse on base, State.sourcePulse, stopped]
  · rw [exec_sourcePulse on base, sourcePulse_prescales runs low]
  · rw [exec_countPulse on base runs due (pulse.imp_right .inl), countPulse_counts runs more]
    rfl
  · obtain ⟨timer, started, overruns, busy, free⟩ := expiry_starts_cycle runs last
    rw [exec_countPulse on base runs due (pulse.imp_right fun h => h.imp_right fun same => ⟨same, last⟩)]
    refine ⟨_, rfl, timer, started, (pulseMove_countPulse s).pulsedFrom, ?_⟩
    rw [dueBranches_eq, lateOf_eq]
    refine ⟨fun ready => ?_, fun ⟨w, wire⟩ => ?_, fun b rest x wire empty owed space due at_b idle => ?_⟩
    · refine overruns (ready.imp_left ?_)
      rintro ⟨w, wire⟩
      rw [wire]
      exact nofun
    · obtain ⟨orders, awaiting, skipped, still, branches⟩ := busy w wire
      refine ⟨orders, fun b => ?_, skipped, still, branches⟩
      rw [awaiting, mem_insertAll, or_comm]
    · obtain ⟨sent, branches, orders, awaiting, skipped⟩ := free b rest x wire empty owed space due at_b idle
      refine ⟨sent, branches, orders, fun c => ?_, skipped⟩
      rw [awaiting, mem_insertAll, or_comm, due]
  · obtain ⟨t, u, ticks, timer, started, timer', started', settings⟩ := frameTick_timer on first
    refine ⟨t, ticks, fun still => ?_, fun source runs => ?_⟩
    · have same : u.framePulse = u := still.elim (fun base => framePulse_of_base (by rw [settings, base]))
        (fun stopped => framePulse_of_stopped (by rw [timer', stopped]))
      rw [timer, started, same]
      exact ⟨timer', started'⟩
    · have pulse : u.framePulse = u.sourcePulse := by rw [State.framePulse, settings, source]
      have runs' : u.timer.state ≠ .stopped := timer' ▸ runs
      rw [timer, started, pulse, ← timer', ← started', ← settings]
      refine ⟨fun low => ?_, fun due more => ?_, fun due last => ?_⟩
      · rw [sourcePulse_prescales runs' low]
        exact ⟨rfl, rfl⟩
      · rw [sourcePulse_counts runs' due, countPulse_counts runs' more]
        exact ⟨rfl, rfl⟩
      · obtain ⟨reloaded, counted, -⟩ := expiry_starts_cycle runs' last
        rw [sourcePulse_counts runs' due, reloaded, counted]
        exact ⟨rfl, rfl⟩

end Sys2Proof.Machine
end

section
/-! PROOFS. WRITE RECORD's values and the content it forms (R12, R13). -/
namespace Sys2Proof.Machine

/-! ### Values in their ranges (R13 step 5) -/

theorem noRepeat_iff (ks : List CellKind) : noRepeat ks = true ↔ ks.Nodup := by
  induction ks with
  | nil => simp [noRepeat]
  | cons k ks ih => simp [noRepeat, ih]

/-- A value lies in a range. -/
def lies (lo hi v : Int) : Prop := lo ≤ v ∧ v ≤ hi

theorem inRange_iff (lo hi v : Int) : inRange lo hi v = true ↔ lies lo hi v := decide_eq_true_iff

theorem surveyTerms_ok (terms : List Word) : (List.range terms.length).all (fun i => match (generalizing := false) surveyTerm terms i with
      | none => true
      | some v => if i < 3 then inRange 0 4095 v else inRange (-1024) 1023 v) = true ↔
    ∀ (k : Nat) (w : Word), terms[k]? = some w → (k < 3 → w.toNat ≤ 4095) ∧ (3 ≤ k → lies (-1024) 1023 w.toInt) := by
  have term (k : Nat) (w : Word) (at_k : terms[k]? = some w) : ((match (generalizing := false) surveyTerm terms k with
      | none => true
      | some v => if k < 3 then inRange 0 4095 v else inRange (-1024) 1023 v) = true) ↔
      (k < 3 → w.toNat ≤ 4095) ∧ (3 ≤ k → lies (-1024) 1023 w.toInt) := by
    rw [surveyTerm, at_k]
    by_cases gain : k < 3
    · have low : ¬3 ≤ k := by omega
      have nonneg : (0 : Int) ≤ (w.toNat : Int) := Int.natCast_nonneg _
      simp only [gain, if_true, inRange_iff, lies, nonneg, true_and, forall_const, low, false_implies, and_true]
      omega
    · have high : 3 ≤ k := by omega
      simp only [gain, if_false, inRange_iff, high, forall_const, false_implies, true_and]
  rw [List.all_eq_true]
  constructor
  · intro all k w at_k
    exact (term k w at_k).mp (all k (List.mem_range.mpr (List.getElem?_eq_some_iff.mp at_k).1))
  · intro all k mem
    have at_k := List.getElem?_eq_getElem (List.mem_range.mp mem)
    exact (term k _ at_k).mpr (all k _ at_k)

/-- The values of one set-list group are in their ranges. -/
def SetItem.Ok : SetItem → Prop
  | .head batch base => batch ≤ 15 ∧ lies 0 4095 base.r ∧ lies 0 4095 base.g ∧ lies 0 4095 base.b
  | .survey n terms => 1 ≤ n ∧ n ≤ 9 ∧ ∀ (k : Nat) (w : Word), terms[k]? = some w →
      (k < 3 → w.toNat ≤ 4095) ∧ (3 ≤ k → lies (-1024) 1023 w.toInt)
  | .drift d => lies (-300) 300 d.kR ∧ lies (-300) 300 d.kG ∧ lies (-300) 300 d.kB ∧ lies (-400) 1250 d.tref ∧
      lies (-500) 500 d.aR ∧ lies (-500) 500 d.aG ∧ lies (-500) 500 d.aB
  | .trim t => lies (-128) 127 t.tL ∧ lies (-128) 127 t.tR ∧ lies (-128) 127 t.tT ∧ lies (-128) 127 t.tB

theorem setItem_ok_iff (i : SetItem) : i.ok = true ↔ i.Ok := by
  cases i with
  | head batch base => simp [SetItem.ok, SetItem.Ok, Gains.ok, inRange_iff, and_assoc]
  | survey n terms =>
    rw [SetItem.ok, Bool.and_eq_true]
    exact (and_congr decide_eq_true_iff (surveyTerms_ok terms)).trans and_assoc
  | drift d => simp [SetItem.ok, SetItem.Ok, DriftCoef.ok, inRange_iff, and_assoc]
  | trim t => simp [SetItem.ok, SetItem.Ok, Trims.ok, inRange_iff, and_assoc]

/-- Every group of a list is in its ranges, kind by kind. -/
theorem forall_setItem_ok (sets : List SetItem) : (∀ i ∈ sets, i.Ok) ↔
    (∀ batch base, SetItem.head batch base ∈ sets → (SetItem.head batch base).Ok) ∧
    (∀ n terms, SetItem.survey n terms ∈ sets → (SetItem.survey n terms).Ok) ∧
    (∀ d, SetItem.drift d ∈ sets → (SetItem.drift d).Ok) ∧ (∀ t, SetItem.trim t ∈ sets → (SetItem.trim t).Ok) := by
  constructor
  · exact fun all => ⟨fun _ _ => all _, fun _ _ => all _, fun _ => all _, fun _ => all _⟩
  · rintro ⟨heads, surveys, drifts, trims⟩ i mem
    cases i with
    | head batch base => exact heads batch base mem
    | survey n terms => exact surveys n terms mem
    | drift d => exact drifts d mem
    | trim t => exact trims t mem

theorem valuesOk_iff (o : WriteOps) : o.valuesOk = true ↔ o.tag ≠ 0 ∧ (o.sets.map SetItem.kind).Nodup ∧ o.removes.Nodup ∧
    (∀ i ∈ o.sets, i.kind ∉ o.removes) ∧ ∀ i ∈ o.sets, i.Ok := by
  simp only [WriteOps.valuesOk, Bool.and_eq_true, decide_eq_true_iff, noRepeat_iff, List.all_eq_true, setItem_ok_iff,
    List.forall_mem_map, Bool.not_eq_true', ← Bool.not_eq_true, List.contains_iff_mem]
  exact ⟨fun ⟨⟨⟨⟨tag, ok⟩, sets⟩, removes⟩, apart⟩ => ⟨tag, sets, removes, apart, ok⟩,
    fun ⟨tag, sets, removes, apart, ok⟩ => ⟨⟨⟨⟨tag, ok⟩, sets⟩, removes⟩, apart⟩⟩

/-! ### The content of a new record (R12) -/

/-- Two contents agree in the group of a kind. -/
def Content.SameAt (c d : Content) : CellKind → Prop
  | .head => c.batch = d.batch ∧ c.base = d.base
  | .survey => c.survey = d.survey
  | .drift => c.drift = d.drift
  | .trim => c.trim = d.trim

theorem Content.SameAt.refl (c : Content) (k : CellKind) : c.SameAt c k := by
  cases k with
  | head => exact ⟨rfl, rfl⟩
  | _ => rfl

theorem Content.SameAt.trans {c d e : Content} {k : CellKind} (h : c.SameAt d k) (h' : d.SameAt e k) : c.SameAt e k := by
  cases k with
  | head => exact ⟨h.1.trans h'.1, h.2.trans h'.2⟩
  | survey => exact Eq.trans h h'
  | drift => exact Eq.trans h h'
  | trim => exact Eq.trans h h'

theorem put_other (c : Content) {i : SetItem} {k : CellKind} (other : i.kind ≠ k) : (c.put i).SameAt c k := by
  cases i with
  | head batch base =>
    cases k with
    | head => exact absurd rfl other
    | _ => rfl
  | survey n terms =>
    cases k with
    | head => exact ⟨rfl, rfl⟩
    | survey => exact absurd rfl other
    | _ => rfl
  | drift d =>
    cases k with
    | head => exact ⟨rfl, rfl⟩
    | drift => exact absurd rfl other
    | _ => rfl
  | trim t =>
    cases k with
    | head => exact ⟨rfl, rfl⟩
    | trim => exact absurd rfl other
    | _ => rfl

theorem put_same (c d : Content) (i : SetItem) : (c.put i).SameAt (d.put i) i.kind := by
  cases i with
  | head batch base => exact ⟨rfl, rfl⟩
  | _ => rfl

theorem puts_other (sets : List SetItem) (c : Content) {k : CellKind} (others : ∀ i ∈ sets, i.kind ≠ k) :
    (sets.foldl Content.put c).SameAt c k := by
  induction sets generalizing c with
  | nil => exact .refl c k
  | cons i sets ih =>
    exact (ih (c.put i) fun j mem => others j (List.mem_cons_of_mem _ mem)).trans (put_other c (others i List.mem_cons_self))

/-- With no kind twice, each group of the list ends in the content as it was supplied. -/
theorem puts_mem {sets : List SetItem} (once : (sets.map SetItem.kind).Nodup) {i : SetItem} (mem : i ∈ sets) (c : Content) :
    (sets.foldl Content.put c).SameAt (c.put i) i.kind := by
  induction sets generalizing c with
  | nil => cases mem
  | cons j sets ih =>
    obtain ⟨fresh, once⟩ := List.nodup_cons.mp once
    rcases List.mem_cons.mp mem with rfl | mem
    · exact puts_other sets (c.put i) fun j' mem' same => fresh (List.mem_map.mpr ⟨j', mem', same⟩)
    · exact (ih once mem (c.put j)).trans (put_same _ _ i)

theorem remove_other (c : Content) {r k : CellKind} (other : r ≠ k ∨ k = .head) : (c.remove r).SameAt c k := by
  cases r with
  | head => exact .refl c k
  | survey =>
    cases k with
    | survey => exact other.elim (fun h => absurd rfl h) nofun
    | head => exact ⟨rfl, rfl⟩
    | _ => rfl
  | drift =>
    cases k with
    | drift => exact other.elim (fun h => absurd rfl h) nofun
    | head => exact ⟨rfl, rfl⟩
    | _ => rfl
  | trim =>
    cases k with
    | trim => exact other.elim (fun h => absurd rfl h) nofun
    | head => exact ⟨rfl, rfl⟩
    | _ => rfl

theorem removes_other (removes : List CellKind) (c : Content) {k : CellKind} (other : k ∉ removes ∨ k = .head) :
    (removes.foldl Content.remove c).SameAt c k := by
  induction removes generalizing c with
  | nil => exact .refl c k
  | cons r removes ih =>
    have rest : k ∉ removes ∨ k = .head := other.imp_left fun absent mem => absent (List.mem_cons_of_mem _ mem)
    have first : r ≠ k ∨ k = .head := other.imp_left fun absent same => absent (same ▸ List.mem_cons_self)
    exact (ih (c.remove r) rest).trans (remove_other c first)

/-- The content without its optional groups. -/
def Content.bare (c : Content) : Content := { c with survey := none, drift := none, trim := none }

/-- A removed group is gone. -/
theorem removes_mem {removes : List CellKind} {k : CellKind} (mem : k ∈ removes) (c : Content) :
    (removes.foldl Content.remove c).SameAt c.bare k := by
  induction removes generalizing c with
  | nil => cases mem
  | cons r removes ih =>
    by_cases later : k ∈ removes
    · refine (ih later (c.remove r)).trans ?_
      cases k with
      | head => cases r <;> exact ⟨rfl, rfl⟩
      | _ => rfl
    · have same : k = r := (List.mem_cons.mp mem).resolve_right later
      subst same
      refine (removes_other removes (c.remove k) (.inl later)).trans ?_
      cases k with
      | head => exact ⟨rfl, rfl⟩
      | _ => rfl

/-- The record a new one is copied from, if any (R12). -/
def State.oldContent (s : State) (tag : Nat) : Option Content :=
  ((s.findEntry tag).filter (fun e => decide (e.status ≠ .damaged))).map s.content

theorem copySource_eq (s : State) (tag : Nat) : s.copySource tag =
    (s.oldContent tag).getD { batch := 0, base := .unity, survey := none, drift := none, trim := none } := by
  rw [State.copySource, State.oldContent]
  cases s.findEntry tag with
  | none => rfl
  | some e => cases status : e.status <;> simp [status, Option.filter]

/-- A group that the set list does not name is the old record's, unless it is removed (R12). -/
theorem newContent_unset {s : State} {o : WriteOps} {k : CellKind} (unset : ∀ i ∈ o.sets, i.kind ≠ k) :
    (k ∈ o.removes → (s.newContent o).SameAt (s.copySource o.tag).bare k) ∧
      (k ∉ o.removes ∨ k = .head → (s.newContent o).SameAt (s.copySource o.tag) k) :=
  ⟨fun mem => (puts_other o.sets _ unset).trans (removes_mem mem _),
    fun other => (puts_other o.sets _ unset).trans (removes_other o.removes _ other)⟩

end Sys2Proof.Machine
end

section
/-! PROOFS. WRITE RECORD forms its record, refuses, or claims its cells (O26). -/
namespace Sys2Proof.Machine

/-! ### The new record's groups (R12) -/

section
variable {s : State} {o : WriteOps}

theorem newContent_survey {n : Nat} {terms : List Word} (once : (o.sets.map SetItem.kind).Nodup)
    (mem : SetItem.survey n terms ∈ o.sets) :
    let gain (k : Nat) : Int := ((terms[k]?).map (fun w => (w.toNat : Int))).getD 2048
    let cross (k : Nat) : Int := ((terms[k]?).map BitVec.toInt).getD 0
    (s.newContent o).survey =
      some ⟨gain 0, gain 1, gain 2, cross 3, cross 4, cross 5, cross 6, cross 7, cross 8⟩ := by
  have supplied : (s.newContent o).survey = some (paddedSurvey terms) := puts_mem once mem _
  rw [supplied, paddedSurvey]
  have gain (k : Nat) (low : k < 3) : surveyTerm terms k = (terms[k]?).map (fun w => (w.toNat : Int)) := by
    rw [surveyTerm]
    cases terms[k]? with
    | none => rfl
    | some w => exact if_pos low
  have cross (k : Nat) (high : ¬k < 3) : surveyTerm terms k = (terms[k]?).map BitVec.toInt := by
    rw [surveyTerm]
    cases terms[k]? with
    | none => rfl
    | some w => exact if_neg high
  simp only [gain 0 (by decide), gain 1 (by decide), gain 2 (by decide), cross 3 (by decide), cross 4 (by decide),
    cross 5 (by decide), cross 6 (by decide), cross 7 (by decide), cross 8 (by decide)]

/-- An optional group that the set list does not name (R12). -/
theorem newContent_optional {α : Type} {k : CellKind} (part : Content → Option α)
    (parts : ∀ c d : Content, c.SameAt d k → part c = part d) (gone : ∀ c : Content, part c.bare = none)
    (unset : ∀ i ∈ o.sets, i.kind ≠ k) :
    part (s.newContent o) = if k ∈ o.removes then none else (s.oldContent o.tag).bind part := by
  obtain ⟨removed, kept⟩ := newContent_unset (s := s) unset
  have source : part (s.copySource o.tag) = (s.oldContent o.tag).bind part := by
    rw [copySource_eq]
    cases s.oldContent o.tag with
    | none => exact gone { batch := 0, base := .unity, survey := none, drift := none, trim := none }
    | some c => rfl
  by_cases mem : k ∈ o.removes
  · rw [if_pos mem, parts _ _ (removed mem), gone]
  · rw [if_neg mem, parts _ _ (kept (.inl mem)), source]

end

/-! ### The refusals in their order (R13) -/

theorem hasHead_eq (o : WriteOps) : o.hasHead = o.sets.any (fun i => decide (i.kind = .head)) := by
  rw [WriteOps.hasHead, Bool.eq_iff_iff]
  simp [List.any_eq_true]

theorem hasUsable_eq_false (s : State) (tag : Nat) : s.hasUsable tag = false ↔
    s.findEntry tag = none ∨ (s.findEntry tag).map IndexEntry.status = some .damaged := by
  rw [State.hasUsable, State.condition]
  cases s.findEntry tag with
  | none => simp
  | some e => cases status : e.status <;> simp [status]

theorem writeRefusal_eq (o : WriteOps) (s : State) : s.writeRefusal o =
    (let entry := s.findEntry o.tag
     let head := o.sets.any (fun i => decide (i.kind = .head))
     if s.isLocked o.tag then some .recordBusy
     else if head = false ∧ (entry = none ∨ entry.map IndexEntry.status = some .damaged) then some .noHead
     else if entry = none ∧ 512 ≤ s.pool.index.length + s.reservations then some .indexFull
     else if s.pool.free.length < ((s.newContent o).groups o.tag).length then some .poolFull
     else if o.valuesOk = false then some .badValue
     else none) := by
  rw [State.writeRefusal]
  simp only [hasHead_eq, hasUsable_eq_false, Option.isNone_iff_eq_none]
  rfl

theorem called_newContent (s : State) (l : Link) (o : WriteOps) : (s.called l).newContent o = s.newContent o := by
  cases l <;> rfl

theorem called_writeRefusal (s : State) (l : Link) (o : WriteOps) : (s.called l).writeRefusal o = s.writeRefusal o := by
  cases l <;> rfl

/-! ### The call -/

theorem exec_writeRecord (l : Link) (f : Frame) (s : State) : exec (.writeRecord l f) s =
    .next (takeCall (surveyRow 0x0021 true true) false writeLengthOk (ownWriteRecord l f.operands) l f s) := rfl

/-- The write of a record just accepted: its claim is the lowest free cells (R2, R13). -/
def State.newWrite (s : State) (tag : Nat) (groups : List Group) : RecWrite :=
  { tag := tag, groups := groups, written := [], unwritten := s.pool.free.take groups.length, phase := .cells
    chained := 0, replacements := 0, retired := 0, reserved := (s.findEntry tag).isNone, provisional := false
    revision := none }

/-- What an accepted WRITE RECORD makes of a state `u`, over the pool and the queue of `s` (R13). -/
def State.writeAccepted (s : State) (tag : Nat) (groups : List Group) (c : Nat) (g : Group) (u : State) : State :=
  let low := decide ((s.pool.free.drop groups.length).length < s.settings.watermark)
  { u with
    dl := u.dl.raiseIf (low && !s.pool.low) .poolLow
    sl := { u.sl.raiseIf (low && !s.pool.low) .poolLow with
      job := some { detached := false, committed := false, work := .write (s.newWrite tag groups) } }
    pool := { s.pool with free := s.pool.free.drop groups.length, low := low }
    nvPort := { s.nvPort with waiting := s.nvPort.waiting ++ [⟨.sl, .cellWrite c g⟩] } }

theorem acceptWrite_eq {s : State} {tag c : Nat} {groups : List Group} {g : Group} (cell : s.pool.free[0]? = some c)
    (group : groups[0]? = some g) :
    (s.called .sl).acceptWrite .sl tag groups = s.writeAccepted tag groups c g (s.called .sl) := by
  obtain ⟨cs, free⟩ : ∃ cs, s.pool.free = c :: cs := by
    cases free : s.pool.free with
    | nil => rw [free] at cell; cases cell
    | cons d ds => rw [free] at cell; cases cell; exact ⟨ds, rfl⟩
  obtain ⟨gs, list⟩ : ∃ gs, groups = g :: gs := by
    cases groups with
    | nil => cases group
    | cons g' gs => cases group; exact ⟨gs, rfl⟩
  have claimed : (s.newWrite tag groups).unwritten = c :: cs.take gs.length := by
    rw [State.newWrite, list, free]
    rfl
  have step := nextWriteStep_cells (s := ((s.called .sl).claimCells groups.length).startJob .sl (.write (s.newWrite tag groups)))
    (l := .sl) claimed (g := g) (w := s.newWrite tag groups) group
  refine Eq.trans step ?_
  rw [claimCells_eq]
  rfl

end Sys2Proof.Machine
end

section
/-! PROOFS. WRITE RECORD claims the lowest free cells (O26). -/
namespace Sys2Proof.Machine

theorem writeAccepted_reply (s : State) (tag : Nat) (groups : List Group) (c : Nat) (g : Group) (u : State) (st : Status)
    (ws : List Word) : (s.writeAccepted tag groups c g u).reply .sl st ws =
      s.writeAccepted tag groups c g (u.reply .sl st ws) := by
  unfold State.writeAccepted
  generalize s.newWrite tag groups = w
  rfl

/-- A write that is not refused finds a free cell for its first group. -/
theorem cell_of_unrefused {s : State} {o : WriteOps} (accepted : s.writeRefusal o = none) :
    ∃ c g, s.pool.free[0]? = some c ∧ ((s.newContent o).groups o.tag)[0]? = some g := by
  have room : ¬s.pool.free.length < ((s.newContent o).groups o.tag).length := by
    intro full
    rw [writeRefusal_eq] at accepted
    dsimp only at accepted
    rw [if_pos full] at accepted
    split at accepted
    · cases accepted
    · split at accepted
      · cases accepted
      · split at accepted <;> cases accepted
  have one : 0 < ((s.newContent o).groups o.tag).length := Nat.succ_pos _
  exact ⟨_, _, List.getElem?_eq_getElem (Nat.lt_of_lt_of_le one (Nat.not_lt.mp room)), rfl⟩

/-- Settles O26: the values and the content of the new record kind by kind, the refusals in their order, and the claim of
the lowest free cells. -/
theorem writeRecordClaimsLowestCells : Obligations.WriteRecordClaimsLowestCells := by
  refine ⟨fun o s => ⟨?_, fun once apart => ?_⟩, fun o s => writeRefusal_eq o s, fun f o s takes unlocked free =>
    ⟨fun outside => ?_, fun parsed => ⟨fun st refused => ?_, fun accepted => ?_⟩⟩⟩
  · rw [valuesOk_iff, forall_setItem_ok]
    rfl
  · have unremoved {i : SetItem} (mem : i ∈ o.sets) : (s.newContent o).SameAt (Content.put (o.removes.foldl Content.remove
        (s.copySource o.tag)) i) i.kind := puts_mem once mem _
    refine ⟨fun batch base mem => unremoved mem, fun unset x old => ?_, fun n terms mem => newContent_survey once mem,
      fun d mem => unremoved mem, fun t mem => unremoved mem,
      newContent_optional Content.survey (fun _ _ h => h) (fun _ => rfl),
      newContent_optional Content.drift (fun _ _ h => h) (fun _ => rfl),
      newContent_optional Content.trim (fun _ _ h => h) (fun _ => rfl), rfl⟩
    have copied : s.copySource o.tag = x := by
      rw [copySource_eq, State.oldContent, old]
      rfl
    have kept := (newContent_unset (s := s) unset).2 (.inr rfl)
    rw [copied] at kept
    exact kept
  all_goals
    have admits : s.Admits (surveyRow 0x0021 true true) .sl := admits_locked rfl unlocked free
    rw [exec_writeRecord]
  · have length : writeLengthOk f.operands = true := by rw [writeLengthOk, outside]
    refine congrArg Host.Outcome.next (takeCall_declines takes admits length ?_)
    rw [ownWriteRecord, outside]
  · have length : writeLengthOk f.operands = true := by rw [writeLengthOk, parsed]; rfl
    refine congrArg Host.Outcome.next (takeCall_declines takes admits length ?_)
    have refused' := (called_writeRefusal s .sl o).trans refused
    simp only [ownWriteRecord, parsed, refused']
  · have length : writeLengthOk f.operands = true := by rw [writeLengthOk, parsed]; rfl
    obtain ⟨c, g, cell, group⟩ := cell_of_unrefused accepted
    have accepted' := (called_writeRefusal s .sl o).trans accepted
    have accepts : ownWriteRecord .sl f.operands (s.called .sl) = .accept .ok []
        (s.writeAccepted o.tag ((s.newContent o).groups o.tag) c g (s.called .sl)) := by
      simp only [ownWriteRecord, parsed, accepted', called_newContent]
      rw [acceptWrite_eq cell group]
    have call := takeCall_changes (c := surveyRow 0x0021 true true) (od := false) (len := writeLengthOk)
      (own := ownWriteRecord .sl f.operands) (s.writeAccepted o.tag ((s.newContent o).groups o.tag) c g)
      (fun u => writeAccepted_reply s o.tag _ c g u .ok []) takes admits length
      accepts
    refine ⟨_, s.newWrite o.tag ((s.newContent o).groups o.tag), congrArg Host.Outcome.next call, ?_⟩
    generalize (s.newContent o).groups o.tag = groups at group
    refine ⟨rfl, rfl, rfl, rfl, rfl, rfl, rfl, rfl, rfl, fun l n => ?_, ?_, c, g, cell, group, rfl⟩
    · cases l with
      | pl => exact (Bool.or_false _).symm
      | dl => exact (hasFlag_raiseIf _ _ _ _).trans (by simp [State.writeAccepted, Bool.and_comm, Bool.and_left_comm]; rfl)
      | sl => exact (hasFlag_raiseIf _ _ _ _).trans (by simp [State.writeAccepted, Bool.and_comm, Bool.and_left_comm]; rfl)
    · rfl

end Sys2Proof.Machine
end

section
/-! PROOFS. The walk of one record's chain at the start-up scan (R19). -/
namespace Sys2Proof.Machine

/-! ### The cells a walk visits -/

section
variable {chain : List (Nat × ChainEntry)} {barred : List Nat} {head : Nat}

/-- The cells visited so far by a walk from `head`: in range, not barred, each named by the one before it. -/
structure Visited (chain : List (Nat × ChainEntry)) (barred : List Nat) (head : Nat) (cells : List Nat) : Prop where
  allowed : ∀ c ∈ cells, c < 1536 ∧ c ∉ barred
  once : cells.Nodup
  linked : ∀ k c d : Nat, cells[k]? = some c → cells[k + 1]? = some d → chainOf chain c = .next d

/-- The walk goes on to `cell`: the head if nothing is visited, else the cell the last one names. -/
structure Walking (chain : List (Nat × ChainEntry)) (head : Nat) (cells : List Nat) (cell : Nat) : Prop where
  start : cells.head? = some head ∨ (cells = [] ∧ cell = head)
  leads : ∀ c, cells.getLast? = some c → chainOf chain c = .next cell

theorem visited_extend {cells : List Nat} {cell : Nat} (visited : Visited chain barred head cells)
    (walking : Walking chain head cells cell) (inRange : cell < 1536) (free : cell ∉ barred) (fresh : cell ∉ cells) :
    Visited chain barred head (cells ++ [cell]) := by
  refine ⟨fun c mem => ?_, ?_, fun k c d at_k at_next => ?_⟩
  · rcases List.mem_append.mp mem with old | new
    · exact visited.allowed c old
    · rw [List.mem_singleton.mp new]
      exact ⟨inRange, free⟩
  · rw [List.nodup_append]
    refine ⟨visited.once, List.nodup_cons.mpr ⟨List.not_mem_nil, List.nodup_nil⟩, fun a old b new same => fresh ?_⟩
    rw [List.mem_singleton.mp new] at same
    exact same ▸ old
  · by_cases inside : k + 1 < cells.length
    · rw [List.getElem?_append_left (Nat.lt_of_succ_lt inside)] at at_k
      rw [List.getElem?_append_left inside] at at_next
      exact visited.linked k c d at_k at_next
    · have bound := (List.getElem?_eq_some_iff.mp at_next).1
      rw [List.length_append, List.length_singleton] at bound
      have last : k + 1 = cells.length := by omega
      have at_last : cells.getLast? = some c := by
        rw [List.getElem?_append_left (by omega)] at at_k
        rw [List.getLast?_eq_getElem?, ← last]
        exact at_k
      rw [List.getElem?_append_right (by omega), last, Nat.sub_self] at at_next
      cases at_next
      exact walking.leads c at_last

theorem head_extend {cells : List Nat} {cell : Nat} (walking : Walking chain head cells cell) :
    (cells ++ [cell]).head? = some head := by
  rcases walking.start with first | ⟨rfl, rfl⟩
  · rw [List.head?_append, first]
    rfl
  · rfl

/-- A walk that has stopped, and whether it stopped at a LAST entry. -/
structure Stopped (chain : List (Nat × ChainEntry)) (barred : List Nat) (head : Nat) (walk : List Nat × Bool) : Prop where
  walked : Walked chain (fun c => c ∈ barred) head walk.1
  ended : walk.2 = true ↔ walk.1.getLast?.map (chainOf chain) = some .last

/-- The last visited cell names the cell that stops the walk. -/
theorem not_last_of_walking {cells : List Nat} {cell : Nat} (walking : Walking chain head cells cell) :
    cells.getLast?.map (chainOf chain) ≠ some .last := by
  cases last : cells.getLast? with
  | none => exact nofun
  | some c =>
    rw [Option.map_some, walking.leads c last]
    exact nofun

theorem scanWalk_stopped (n : Nat) (cells : List Nat) (cell : Nat) (bound : cells.length + n = 4)
    (visited : Visited chain barred head cells) (walking : Walking chain head cells cell) :
    Stopped chain barred head (scanWalk chain barred n cells cell) := by
  induction n generalizing cells cell with
  | zero =>
    refine ⟨⟨walking.start.imp_right ?_, visited.allowed, visited.once, Nat.le_of_eq bound, visited.linked,
      fun _ _ _ _ => .inl bound⟩, ⟨nofun, fun last => absurd last (not_last_of_walking walking)⟩⟩
    rintro ⟨rfl, -⟩
    cases bound
  | succ n ih =>
    unfold scanWalk
    split
    · next blocked =>
      have blocked : 1536 ≤ cell ∨ cell ∈ barred ∨ cell ∈ cells := by simpa [Config.poolCells] using blocked
      refine ⟨⟨walking.start.imp_right ?_, visited.allowed, visited.once, by dsimp only; omega, visited.linked,
        fun c d last next => ?_⟩, ⟨nofun, fun last => absurd last (not_last_of_walking walking)⟩⟩
      · rintro ⟨rfl, rfl⟩
        exact ⟨rfl, blocked.imp_right fun h => h.resolve_right List.not_mem_nil⟩
      · have same : cell = d := by
          have named := walking.leads c last
          rw [next] at named
          cases named
          rfl
        exact .inr (same ▸ blocked)
    · next clear =>
      obtain ⟨inRange, free, fresh⟩ : cell < 1536 ∧ cell ∉ barred ∧ cell ∉ cells := by
        simpa [Config.poolCells] using clear
      have visited' := visited_extend visited walking inRange free fresh
      have head' := head_extend walking
      have last' : (cells ++ [cell]).getLast? = some cell := List.getLast?_concat
      have length' : (cells ++ [cell]).length + n = 4 := by
        rw [List.length_append, List.length_singleton]
        omega
      have stops (ends : ∀ d, chainOf chain cell ≠ .next d) : Walked chain (fun c => c ∈ barred) head (cells ++ [cell]) :=
        ⟨.inl head', visited'.allowed, visited'.once, by omega, visited'.linked, fun c d last next => by
          rw [last'] at last
          cases last
          exact absurd next (ends d)⟩
      dsimp only
      cases entry : chainOf chain cell with
      | last => exact ⟨stops (by rw [entry]; nofun), by rw [last', Option.map_some, entry]; simp⟩
      | free => exact ⟨stops (by rw [entry]; nofun), by rw [last', Option.map_some, entry]; simp⟩
      | retired => exact ⟨stops (by rw [entry]; nofun), by rw [last', Option.map_some, entry]; simp⟩
      | next c =>
        refine ih (cells ++ [cell]) c length' visited' ⟨.inl head', fun d last => ?_⟩
        rw [last'] at last
        cases last
        exact entry

end

/-- The walk of a record's chain from its head. -/
theorem scanWalk_head (chain : List (Nat × ChainEntry)) (barred : List Nat) (head : Nat) :
    Stopped chain barred head (scanWalk chain barred Config.maxChain [] head) :=
  scanWalk_stopped 4 [] head rfl ⟨nofun, List.nodup_nil, nofun⟩ ⟨.inr ⟨rfl, rfl⟩, nofun⟩

theorem Walked.congr {chain : List (Nat × ChainEntry)} {b b' : Nat → Prop} {head : Nat} {cells : List Nat}
    (walked : Walked chain b head cells) (same : ∀ c, b c ↔ b' c) : Walked chain b' head cells := by
  have equal : b = b' := funext fun c => propext (same c)
  exact equal ▸ walked

/-! ### Soundness (R19) -/

theorem soundCells_iff (tag : Nat) (groups : List (Option Group)) : soundCells tag groups = true ↔
    match (generalizing := false) groups with
    | some (.head named _ _ p) :: rest => named = tag ∧
        rest.map (Option.map Group.kind) =
          ((if p.survey then [CellKind.survey] else []) ++ (if p.drift then [CellKind.drift] else []) ++
            (if p.trim then [CellKind.trim] else [])).map some
    | _ => False := by
  unfold soundCells
  cases groups with
  | nil => simp
  | cons g rest =>
    cases g with
    | none => simp
    | some g =>
      cases g with
      | head named batch base p =>
        rw [Bool.and_eq_true, decide_eq_true_iff, decide_eq_true_iff]
        rfl
      | _ => simp

end Sys2Proof.Machine
end

section
/-! PROOFS. The Tag Index and the image that the start-up scan rebuilds (R23). -/
namespace Sys2Proof.Machine

/-- What a cell holds, if it checks correctly. -/
def readCell (nv : NvMemory) (badCells : List Nat) (c : Nat) : Option Group :=
  if c ∈ badCells then none else mapGet c nv.cells

/-- The image with the contents of some cells loaded. -/
def loadCells (nv : NvMemory) (cells : List Nat) (image : List (Nat × Group)) : List (Nat × Group) :=
  cells.foldl (fun m c => match (generalizing := false) mapGet c nv.cells with
    | none => m
    | some g => mapSet c g m) image

theorem mapGet_loadCells (nv : NvMemory) (cells : List Nat) (image : List (Nat × Group)) (c : Nat) :
    mapGet c (loadCells nv cells image) =
      if c ∈ cells then (mapGet c nv.cells).or (mapGet c image) else mapGet c image := by
  induction cells generalizing image with
  | nil => rfl
  | cons d ds ih =>
    rw [loadCells, List.foldl_cons]
    refine (ih _).trans ?_
    cases held : mapGet d nv.cells with
    | none =>
      by_cases same : c = d
      · subst same
        simp [held]
      · simp [same]
    | some g =>
      by_cases same : c = d
      · subst same
        simp [held]
      · simp [same, mapGet_mapSet_other]

/-- What the scan makes of one entry, after the entries `before` (R19, R23). -/
structure EntryScanned (nv : NvMemory) (badCells retired : List Nat) (before : List IndexEntry) (image : List (Nat × Group))
    (e : NvEntry) (x : IndexEntry) : Prop where
  walked : Walked nv.chain (fun c => c ∈ retired ∨ ∃ y ∈ before, c ∈ y.cells) e.head x.cells
  sound : SoundRecord nv.chain (readCell nv badCells) e.tag x.cells →
    x.status = e.status ∧ ∀ c ∈ x.cells, mapGet c image = mapGet c nv.cells
  unsound : ¬SoundRecord nv.chain (readCell nv badCells) e.tag x.cells →
    x.status = .damaged ∧ ∀ c ∈ x.cells, mapGet c image = none

/-- What the scan has made of the entries `done`. -/
structure Scanned (nv : NvMemory) (badCells retired : List Nat) (done : List NvEntry) (a : Scan) : Prop where
  stored : a.index.map (fun x => (x.tag, x.head, x.revision)) = done.map (fun e => (e.tag, e.head, e.revision))
  assigned : ∀ c, c ∈ a.assigned ↔ ∃ x ∈ a.index, c ∈ x.cells
  entries : ∀ (k : Nat) (x : IndexEntry) (e : NvEntry), a.index[k]? = some x → done[k]? = some e →
    EntryScanned nv badCells retired (a.index.take k) a.image e x
  image : ∀ c, c ∉ a.assigned → mapGet c a.image = none
  damaged : a.damaged = true ↔ ∃ p ∈ a.index.zip done, p.1.status = .damaged ∧ p.2.status ≠ .damaged

theorem scanned_start (nv : NvMemory) (badCells retired : List Nat) :
    Scanned nv badCells retired [] { index := [], image := [], assigned := [], damaged := false } :=
  ⟨rfl, by simp, nofun, fun _ _ => rfl, by simp⟩

section
variable {nv : NvMemory} {badCells retired : List Nat} {done : List NvEntry} {a : Scan} {e : NvEntry}

/-- The walk of the next entry. -/
def Scan.walk (a : Scan) (nv : NvMemory) (retired : List Nat) (e : NvEntry) : List Nat × Bool :=
  scanWalk nv.chain (retired ++ a.assigned) Config.maxChain [] e.head

/-- The record of the next entry is sound. -/
def Scan.soundAt (a : Scan) (nv : NvMemory) (badCells retired : List Nat) (e : NvEntry) : Bool :=
  (a.walk nv retired e).2 && soundCells e.tag ((a.walk nv retired e).1.map (readCell nv badCells))

/-- The index entry the scan forms. -/
def Scan.entry (a : Scan) (nv : NvMemory) (badCells retired : List Nat) (e : NvEntry) : IndexEntry :=
  { tag := e.tag, head := e.head, revision := e.revision
    status := if a.soundAt nv badCells retired e then e.status else .damaged, cells := (a.walk nv retired e).1 }

theorem scanEntry_eq (nv : NvMemory) (badCells retired : List Nat) (a : Scan) (e : NvEntry) :
    scanEntry nv badCells retired a e =
      { index := a.index ++ [a.entry nv badCells retired e]
        image := if a.soundAt nv badCells retired e then loadCells nv (a.walk nv retired e).1 a.image else a.image
        assigned := a.assigned ++ (a.walk nv retired e).1
        damaged := a.damaged || (!a.soundAt nv badCells retired e && decide (e.status ≠ .damaged)) } := by
  have read : (fun c => if badCells.contains c then none else mapGet c nv.cells) = readCell nv badCells := by
    funext c
    simp [readCell]
  unfold scanEntry
  simp only [read]
  rfl

theorem stopped_walk (a : Scan) (nv : NvMemory) (retired : List Nat) (e : NvEntry) :
    Stopped nv.chain (retired ++ a.assigned) e.head (a.walk nv retired e) := scanWalk_head _ _ _

theorem soundAt_iff : a.soundAt nv badCells retired e = true ↔
    SoundRecord nv.chain (readCell nv badCells) e.tag (a.walk nv retired e).1 := by
  rw [Scan.soundAt, Bool.and_eq_true, (stopped_walk a nv retired e).ended, soundCells_iff]
  rfl

theorem walk_fresh {c : Nat} (mem : c ∈ (a.walk nv retired e).1) : c ∉ a.assigned := fun old =>
  ((stopped_walk a nv retired e).walked.allowed c mem).2 (List.mem_append_right _ old)

/-- The image after an entry: of the cells of the others nothing changes. -/
theorem image_scanEntry_other {c : Nat} (other : c ∉ (a.walk nv retired e).1) :
    mapGet c (scanEntry nv badCells retired a e).image = mapGet c a.image := by
  rw [scanEntry_eq]
  dsimp only
  split
  · rw [mapGet_loadCells, if_neg other]
  · rfl

theorem scanned_entry (scanned : Scanned nv badCells retired done a) :
    EntryScanned nv badCells retired a.index (scanEntry nv badCells retired a e).image e (a.entry nv badCells retired e) := by
  refine ⟨(stopped_walk a nv retired e).walked.congr fun c => ?_, fun sound => ?_, fun unsound => ?_⟩
  · rw [List.mem_append, scanned.assigned]
  · have isSound := soundAt_iff.mpr sound
    refine ⟨if_pos isSound, fun c mem => ?_⟩
    have mem : c ∈ (a.walk nv retired e).1 := mem
    rw [scanEntry_eq]
    dsimp only
    rw [if_pos isSound, mapGet_loadCells, if_pos mem, scanned.image c (walk_fresh mem), Option.or_none]
  · have notSound : ¬a.soundAt nv badCells retired e = true := fun isSound => unsound (soundAt_iff.mp isSound)
    refine ⟨if_neg notSound, fun c mem => ?_⟩
    rw [scanEntry_eq]
    dsimp only
    rw [if_neg notSound, scanned.image c (walk_fresh mem)]

theorem scanned_step (scanned : Scanned nv badCells retired done a) :
    Scanned nv badCells retired (done ++ [e]) (scanEntry nv badCells retired a e) := by
  have length : a.index.length = done.length := by
    have := congrArg List.length scanned.stored
    simpa using this
  have index : (scanEntry nv badCells retired a e).index = a.index ++ [a.entry nv badCells retired e] := by
    rw [scanEntry_eq]
  have assigned : (scanEntry nv badCells retired a e).assigned = a.assigned ++ (a.walk nv retired e).1 := by
    rw [scanEntry_eq]
  refine ⟨?_, fun c => ?_, fun k x f at_x at_f => ?_, fun c fresh => ?_, ?_⟩
  · rw [index, List.map_append, List.map_append, scanned.stored]
    rfl
  · rw [index, assigned, List.mem_append, scanned.assigned]
    constructor
    · rintro (⟨x, mem, cell⟩ | cell)
      · exact ⟨x, List.mem_append_left _ mem, cell⟩
      · exact ⟨_, List.mem_append_right _ (List.mem_singleton_self _), cell⟩
    · rintro ⟨x, mem, cell⟩
      rcases List.mem_append.mp mem with old | new
      · exact .inl ⟨x, old, cell⟩
      · rw [List.mem_singleton.mp new] at cell
        exact .inr cell
  · rw [index] at at_x ⊢
    by_cases inside : k < a.index.length
    · rw [List.getElem?_append_left inside] at at_x
      rw [List.getElem?_append_left (length ▸ inside)] at at_f
      rw [List.take_append_of_le_length (Nat.le_of_lt inside)]
      obtain ⟨walked, sound, unsound⟩ := scanned.entries k x f at_x at_f
      have still (c : Nat) (mem : c ∈ x.cells) : mapGet c (scanEntry nv badCells retired a e).image = mapGet c a.image :=
        image_scanEntry_other fun new => walk_fresh new ((scanned.assigned c).mpr ⟨x, List.mem_of_getElem? at_x, mem⟩)
      refine ⟨walked, fun isSound => ?_, fun notSound => ?_⟩
      · obtain ⟨status, image⟩ := sound isSound
        exact ⟨status, fun c mem => (still c mem).trans (image c mem)⟩
      · obtain ⟨status, image⟩ := unsound notSound
        exact ⟨status, fun c mem => (still c mem).trans (image c mem)⟩
    · have bound := (List.getElem?_eq_some_iff.mp at_x).1
      rw [List.length_append, List.length_singleton] at bound
      have last : k = a.index.length := by omega
      subst last
      rw [List.getElem?_append_right (Nat.le_refl _), Nat.sub_self] at at_x
      rw [List.getElem?_append_right (Nat.le_of_eq length.symm), length, Nat.sub_self] at at_f
      cases at_x
      cases at_f
      rw [List.take_left' rfl]
      exact scanned_entry scanned
  · rw [assigned, List.mem_append, not_or] at fresh
    rw [image_scanEntry_other fresh.2, scanned.image c fresh.1]
  · rw [index, List.zip_append length]
    have marks : (scanEntry nv badCells retired a e).damaged = true ↔
        a.damaged = true ∨ (a.soundAt nv badCells retired e = false ∧ e.status ≠ .damaged) := by
      rw [scanEntry_eq]
      simp
    rw [marks, scanned.damaged]
    have entry : (a.soundAt nv badCells retired e = false ∧ e.status ≠ .damaged) ↔
        (a.entry nv badCells retired e).status = .damaged ∧ e.status ≠ .damaged := by
      refine and_congr_left fun fine => ?_
      rw [Scan.entry]
      dsimp only
      cases a.soundAt nv badCells retired e with
      | false => simp
      | true => simp [fine]
    rw [entry]
    constructor
    · rintro (⟨p, mem, holds⟩ | holds)
      · exact ⟨p, List.mem_append_left _ mem, holds⟩
      · exact ⟨_, List.mem_append_right _ (List.mem_singleton_self _), holds⟩
    · rintro ⟨p, mem, holds⟩
      rcases List.mem_append.mp mem with old | new
      · exact .inl ⟨p, old, holds⟩
      · cases List.mem_singleton.mp new
        exact .inr holds

end

/-- The scan of a whole Tag Index. -/
theorem scanned_all (nv : NvMemory) (badCells retired : List Nat) (rest done : List NvEntry) (a : Scan)
    (scanned : Scanned nv badCells retired done a) :
    Scanned nv badCells retired (done ++ rest) (rest.foldl (scanEntry nv badCells retired) a) := by
  induction rest generalizing done a with
  | nil => rwa [List.append_nil]
  | cons e rest ih =>
    have step := ih (done ++ [e]) _ (scanned_step (e := e) scanned)
    rwa [List.append_assoc] at step

end Sys2Proof.Machine
end

section
/-! PROOFS. START_UP_SCAN_END rebuilds the volatile state (O5). -/
namespace Sys2Proof.Machine

/-! ### The parts of the scan's end (R23, R24) -/

/-- The cells that the stored Chain Table marks RETIRED. -/
def NvMemory.retiredCells (nv : NvMemory) : List Nat := (nv.chain.filter (fun e => decide (e.2 = .retired))).map Prod.fst

theorem mem_retiredCells (nv : NvMemory) (c : Nat) : c ∈ nv.retiredCells ↔ (c, ChainEntry.retired) ∈ nv.chain := by
  simp [NvMemory.retiredCells]

/-- The index entries that check correctly. -/
def NvMemory.keptEntries (nv : NvMemory) (badEntries : List Nat) : List NvEntry :=
  nv.index.filter (fun e => decide (e.tag ∉ badEntries))

/-- What the scan rebuilds from the stored index (R23). -/
def NvMemory.scan (nv : NvMemory) (badCells badEntries : List Nat) : Scan :=
  (nv.keptEntries badEntries).foldl (scanEntry nv badCells nv.retiredCells)
    { index := [], image := [], assigned := [], damaged := false }

theorem scanned_scan (nv : NvMemory) (badCells badEntries : List Nat) :
    Scanned nv badCells nv.retiredCells (nv.keptEntries badEntries) (nv.scan badCells badEntries) :=
  scanned_all nv badCells nv.retiredCells (nv.keptEntries badEntries) [] _ (scanned_start nv badCells _)

/-- The settings in force after the scan (R24). -/
def NvMemory.scanSettings (nv : NvMemory) (badSettings : List Nat) : Settings :=
  (loadSettings nv.settings badSettings).getD .factory

/-- The Cell Pool after the scan, POOL_LOW not yet evaluated (R23). -/
def NvMemory.scanPool (nv : NvMemory) (badCells badEntries : List Nat) : Pool :=
  let scan := nv.scan badCells badEntries
  { free := (List.range Config.poolCells).filter (fun c => !(nv.retiredCells.contains c || scan.assigned.contains c))
    retired := nv.retiredCells
    chain := nv.chain.filter (fun e => nv.retiredCells.contains e.1 || scan.assigned.contains e.1)
    image := scan.image, index := scan.index
    counter := max nv.counter (nextRevision scan.index), low := false }

/-- The scan has found a record to be DAMAGED, or dropped an entry. -/
def NvMemory.scanDamage (nv : NvMemory) (badCells badEntries : List Nat) : Bool :=
  (nv.scan badCells badEntries).damaged || nv.index.any (fun e => badEntries.contains e.tag)

/-- The state after the scan. -/
def State.scannedState (s : State) (sync : Level) (badCells badEntries badSettings : List Nat) : State :=
  let settings := s.nv.scanSettings badSettings
  let pool := s.nv.scanPool badCells badEntries
  let low := decide (pool.free.length < settings.watermark)
  let lost := (loadSettings s.nv.settings badSettings).isNone
  { s with
    power := .on
    pl := s.pl.leaveScan.raiseIf lost .settingsLost
    dl := (s.dl.leaveScan.raiseIf lost .settingsLost).raiseIf low .poolLow
    sl := ((s.sl.leaveScan.raiseIf (s.nv.scanDamage badCells badEntries) .recordDamaged).raiseIf lost .settingsLost).raiseIf
      low .poolLow
    pool := { pool with low := low }, settings := settings
    positions := List.replicate (settings.columns * settings.rows) .atRest
    dirty := [], cursor := 0, history := []
    timer := { state := if settings.runAtStart then .running else .stopped, counter := settings.reload, stage := 0 }
    frame := { s.frame with settled := sync, candidate := 0 }
    global := .resetWith settings.white }

/-- The scan's end before its notices. -/
def State.scanBuilt (s : State) (sync : Level) (badCells badEntries badSettings : List Nat) : State :=
  let settings := s.nv.scanSettings badSettings
  { s with
    power := .on
    pl := s.pl.leaveScan, dl := s.dl.leaveScan, sl := s.sl.leaveScan
    pool := s.nv.scanPool badCells badEntries, settings := settings
    positions := List.replicate (settings.columns * settings.rows) .atRest
    dirty := [], cursor := 0, history := []
    timer := { state := if settings.runAtStart then .running else .stopped, counter := settings.reload, stage := 0 }
    frame := { s.frame with settled := sync, candidate := 0 }
    global := .resetWith settings.white }

theorem scanNotices_eq (u : State) (damage lost : Bool) :
    (if lost then (if damage then u.raise .sl .recordDamaged else u).raiseAll .settingsLost
     else if damage then u.raise .sl .recordDamaged else u) =
      { u with
        pl := u.pl.raiseIf lost .settingsLost, dl := u.dl.raiseIf lost .settingsLost
        sl := (u.sl.raiseIf damage .recordDamaged).raiseIf lost .settingsLost } := by
  cases damage <;> cases lost <;> rfl

theorem scanEnd_eq (s : State) (sync : Level) (badCells badEntries badSettings : List Nat) :
    s.scanEnd sync badCells badEntries badSettings = s.scannedState sync badCells badEntries badSettings := by
  have kept : s.nv.index.filter (fun e => !badEntries.contains e.tag) = s.nv.keptEntries badEntries :=
    List.filter_congr fun e _ => by simp
  have built : s.scanEnd sync badCells badEntries badSettings = State.evalLow
      (if (loadSettings s.nv.settings badSettings).isNone then
        (if s.nv.scanDamage badCells badEntries then (s.scanBuilt sync badCells badEntries badSettings).raise .sl .recordDamaged
          else s.scanBuilt sync badCells badEntries badSettings).raiseAll .settingsLost
       else if s.nv.scanDamage badCells badEntries then (s.scanBuilt sync badCells badEntries badSettings).raise .sl .recordDamaged
       else s.scanBuilt sync badCells badEntries badSettings) := by
    unfold State.scanEnd
    rw [kept]
    rfl
  have quiet : (s.nv.scanPool badCells badEntries).low = false := rfl
  rw [built, scanNotices_eq, evalLow_raiseIf, State.scannedState]
  simp only [State.scanBuilt, quiet, Bool.not_false, Bool.and_true] <;> rfl

end Sys2Proof.Machine
end

section
/-! PROOFS. START_UP_SCAN_END rebuilds the volatile state (O5). -/
namespace Sys2Proof.Machine

/-! ### The revision counter (R8) -/

theorem le_nextRevisionFrom (index : List IndexEntry) (m : Nat) :
    m ≤ index.foldl (fun m e => max m (e.revision + 1)) m := by
  induction index generalizing m with
  | nil => exact Nat.le_refl m
  | cons e index ih => exact Nat.le_trans (Nat.le_max_left _ _) (ih _)

theorem revision_lt_nextRevisionFrom {index : List IndexEntry} {e : IndexEntry} (mem : e ∈ index) (m : Nat) :
    e.revision < index.foldl (fun m e => max m (e.revision + 1)) m := by
  induction index generalizing m with
  | nil => cases mem
  | cons x index ih =>
    rcases List.mem_cons.mp mem with rfl | later
    · exact Nat.lt_of_lt_of_le (Nat.lt_of_lt_of_le (Nat.lt_succ_self _) (Nat.le_max_right m _)) (le_nextRevisionFrom _ _)
    · exact ih later _

theorem nextRevisionFrom_cases (index : List IndexEntry) (m : Nat) :
    index.foldl (fun m e => max m (e.revision + 1)) m = m ∨
      ∃ e ∈ index, index.foldl (fun m e => max m (e.revision + 1)) m = e.revision + 1 := by
  induction index generalizing m with
  | nil => exact .inl rfl
  | cons x index ih =>
    rw [List.foldl_cons]
    rcases ih (max m (x.revision + 1)) with same | ⟨e, mem, found⟩
    · rw [same]
      rcases Nat.le_total m (x.revision + 1) with le | le
      · exact .inr ⟨x, List.mem_cons_self, Nat.max_eq_right le⟩
      · exact .inl (Nat.max_eq_left le)
    · exact .inr ⟨e, List.mem_cons_of_mem _ mem, found⟩

/-! ### The saved settings (R24) -/

theorem loadSettings_some {cells : List (Option Settings)} {bad : List Nat} {img : Settings}
    (loaded : loadSettings cells bad = some img) : bad = [] ∧ ∀ c ∈ cells, c = some img := by
  unfold loadSettings at loaded
  split at loaded
  · split at loaded
    · next fine =>
      cases loaded
      exact ⟨fine.1, fun c mem => of_decide_eq_true (List.all_eq_true.mp fine.2 c mem)⟩
    · cases loaded
  · cases loaded
  · cases loaded

theorem loadSettings_replicate (img : Settings) : loadSettings (List.replicate 8 (some img)) [] = some img := by
  simp [loadSettings]

theorem loadSettings_none {cells : List (Option Settings)} {bad : List Nat} (length : cells.length = 8)
    (lost : (∀ img, cells ≠ List.replicate 8 (some img)) ∨ bad ≠ []) : loadSettings cells bad = none := by
  cases loaded : loadSettings cells bad with
  | none => rfl
  | some img =>
    obtain ⟨fine, same⟩ := loadSettings_some loaded
    rcases lost with differs | errors
    · exact absurd (List.eq_replicate_iff.mpr ⟨length, same⟩) (differs img)
    · exact absurd fine errors

/-! ### The pool after the scan -/

theorem mem_scanFree (nv : NvMemory) (badCells badEntries : List Nat) (c : Nat) :
    c ∈ (nv.scanPool badCells badEntries).free ↔ c < 1536 ∧ c ∉ nv.retiredCells ∧
      ∀ e ∈ (nv.scan badCells badEntries).index, c ∉ e.cells := by
  have assigned := (scanned_scan nv badCells badEntries).assigned c
  simp only [NvMemory.scanPool, List.mem_filter, List.mem_range, Bool.not_eq_true', ← Bool.not_eq_true, Bool.or_eq_true,
    List.contains_iff_mem, assigned]
  refine and_congr Iff.rfl ⟨fun none_of => ?_, fun ⟨kept, free⟩ held => ?_⟩
  · exact ⟨fun gone => none_of (.inl gone), fun e mem cell => none_of (.inr ⟨e, mem, cell⟩)⟩
  · rcases held with gone | ⟨e, mem, cell⟩
    · exact kept gone
    · exact free e mem cell

theorem mapGet_filter_key {α : Type} (p : Nat → Bool) (m : List (Nat × α)) (k : Nat) :
    mapGet k (m.filter (fun e => p e.1)) = if p k then mapGet k m else none := by
  induction m with
  | nil => simp [mapGet]
  | cons e m ih =>
    obtain ⟨j, v⟩ := e
    by_cases same : j = k
    · subst same
      by_cases kept : p j = true
      · simp [mapGet, kept]
      · rw [List.filter_cons_of_neg (by simpa using kept), ih, if_neg kept, if_neg kept]
    · by_cases kept : p j = true
      · rw [List.filter_cons_of_pos (by simpa using kept)]
        simp only [mapGet, if_neg same, ih]
      · rw [List.filter_cons_of_neg (by simpa using kept), ih]
        simp only [mapGet, if_neg same]

theorem chainOf_scanPool (nv : NvMemory) (badCells badEntries : List Nat) (c : Nat) :
    chainOf (nv.scanPool badCells badEntries).chain c =
      if c ∈ nv.retiredCells ∨ ∃ x ∈ (nv.scan badCells badEntries).index, c ∈ x.cells then chainOf nv.chain c else .free := by
  have assigned := (scanned_scan nv badCells badEntries).assigned c
  have kept : (nv.retiredCells.contains c || (nv.scan badCells badEntries).assigned.contains c) = true ↔
      c ∈ nv.retiredCells ∨ ∃ x ∈ (nv.scan badCells badEntries).index, c ∈ x.cells := by
    rw [Bool.or_eq_true, List.contains_iff_mem, List.contains_iff_mem, assigned]
  have found : mapGet c (nv.scanPool badCells badEntries).chain =
      if (nv.retiredCells.contains c || (nv.scan badCells badEntries).assigned.contains c) = true then mapGet c nv.chain
      else none := mapGet_filter_key (fun k => nv.retiredCells.contains k || (nv.scan badCells badEntries).assigned.contains k) _ c
  rw [chainOf, found]
  by_cases held : c ∈ nv.retiredCells ∨ ∃ x ∈ (nv.scan badCells badEntries).index, c ∈ x.cells
  · rw [if_pos held, if_pos (kept.mpr held), chainOf]
  · rw [if_neg held, if_neg (fun h => held (kept.mp h))]

/-! ### The notices -/

section
variable (s : State) (sync : Level) (badCells badEntries badSettings : List Nat)

theorem hasFlag_scannedState (l : Link) (n : Notice) :
    ((s.scannedState sync badCells badEntries badSettings).port l).hasFlag n = ((s.port l).hasFlag n ||
      (decide (l = .sl ∧ n = .recordDamaged) && s.nv.scanDamage badCells badEntries) ||
      (decide (n = .settingsLost) && (loadSettings s.nv.settings badSettings).isNone) ||
      (decide (l ≠ .pl ∧ n = .poolLow) && (s.scannedState sync badCells badEntries badSettings).pool.low)) := by
  cases l with
  | pl =>
    refine (hasFlag_raiseIf _ _ _ _).trans ?_
    simp [Bool.and_comm]
    rfl
  | dl =>
    refine (hasFlag_raiseIf _ _ _ _).trans ?_
    rw [hasFlag_raiseIf]
    simp [Bool.and_comm]
    rfl
  | sl =>
    refine (hasFlag_raiseIf _ _ _ _).trans ?_
    rw [hasFlag_raiseIf, hasFlag_raiseIf]
    simp [Bool.and_comm]
    rfl

end

theorem exec_startUpScanEnd {s : State} (starting : s.power = .starting) (sync : Level) (badCells badEntries badSettings : List Nat) :
    exec (.startUpScanEnd sync badCells badEntries badSettings) s =
      .next (s.scannedState sync badCells badEntries badSettings) := by
  refine congrArg Host.Outcome.next ?_
  rw [← scanEnd_eq]
  simp only [starting]

end Sys2Proof.Machine
end

section
/-! PROOFS. START_UP_SCAN_END rebuilds the volatile state (O5). -/
namespace Sys2Proof.Machine

theorem port_scannedState (s : State) (sync : Level) (badCells badEntries badSettings : List Nat) (l : Link) :
    (s.scannedState sync badCells badEntries badSettings).port l = { s.port l with
      state := .down, wordBits := []
      flags := ((s.scannedState sync badCells badEntries badSettings).port l).flags } := by
  cases l <;> rfl

theorem low_scannedState (s : State) (sync : Level) (badCells badEntries badSettings : List Nat) :
    let t := s.scannedState sync badCells badEntries badSettings
    t.pool.low = decide (t.pool.free.length < t.settings.watermark) := by
  unfold State.scannedState
  dsimp only

theorem free_scannedState (s : State) (sync : Level) (badCells badEntries badSettings : List Nat) :
    (s.scannedState sync badCells badEntries badSettings).pool.free = (s.nv.scanPool badCells badEntries).free := by
  unfold State.scannedState
  dsimp only

/-- What the scan makes of one stored entry, in the terms of the stored Chain Table. -/
theorem scan_entry (nv : NvMemory) (badCells badEntries : List Nat) {k : Nat} {x : IndexEntry} {e : NvEntry}
    (at_x : (nv.scan badCells badEntries).index[k]? = some x) (at_e : (nv.keptEntries badEntries)[k]? = some e) :
    Walked nv.chain (fun c => (c, ChainEntry.retired) ∈ nv.chain ∨
        ∃ y ∈ (nv.scan badCells badEntries).index.take k, c ∈ y.cells) e.head x.cells ∧
      (SoundRecord nv.chain (readCell nv badCells) e.tag x.cells → x.status = e.status ∧
        ∀ c ∈ x.cells, mapGet c (nv.scan badCells badEntries).image = mapGet c nv.cells) ∧
      (¬SoundRecord nv.chain (readCell nv badCells) e.tag x.cells → x.status = .damaged ∧
        ∀ c ∈ x.cells, mapGet c (nv.scan badCells badEntries).image = none) := by
  obtain ⟨walked, sound, unsound⟩ := (scanned_scan nv badCells badEntries).entries k x e at_x at_e
  exact ⟨walked.congr fun c => or_congr_left (mem_retiredCells nv c), sound, unsound⟩

/-- The notice of DAMAGED records at the scan (R23). -/
theorem scanDamage_iff (nv : NvMemory) (badCells badEntries : List Nat) : nv.scanDamage badCells badEntries = true ↔
    (∃ e ∈ nv.index, e.tag ∈ badEntries) ∨
      ∃ p ∈ (nv.scan badCells badEntries).index.zip (nv.keptEntries badEntries), p.1.status = .damaged ∧ p.2.status ≠ .damaged := by
  rw [NvMemory.scanDamage, Bool.or_eq_true, (scanned_scan nv badCells badEntries).damaged, or_comm]
  simp [List.any_eq_true]

/-- The counter after the scan (R8). -/
theorem scanCounter_cases (nv : NvMemory) (badCells badEntries : List Nat) :
    let counter := (nv.scanPool badCells badEntries).counter
    (∀ e ∈ (nv.scan badCells badEntries).index, e.revision < counter) ∧ nv.counter ≤ counter ∧ 1 ≤ counter ∧
      (counter = nv.counter ∨ counter = 1 ∨ ∃ e ∈ (nv.scan badCells badEntries).index, counter = e.revision + 1) := by
  have counter : (nv.scanPool badCells badEntries).counter =
    max nv.counter (nextRevision (nv.scan badCells badEntries).index) := rfl
  have one : 1 ≤ nextRevision (nv.scan badCells badEntries).index := le_nextRevisionFrom _ 1
  dsimp only
  rw [counter]
  refine ⟨fun e mem => ?_, Nat.le_max_left _ _, Nat.le_trans one (Nat.le_max_right _ _), ?_⟩
  · exact Nat.lt_of_lt_of_le (revision_lt_nextRevisionFrom mem 1) (Nat.le_max_right _ _)
  · rcases Nat.le_total nv.counter (nextRevision (nv.scan badCells badEntries).index) with le | le
    · rw [Nat.max_eq_right le]
      exact .inr (nextRevisionFrom_cases _ 1)
    · exact .inl (Nat.max_eq_left le)

/-- The global vector at rest (R111). -/
theorem resetWith_eq (white : List Gains) : Global.resetWith white =
    (let w := white.getD 0 .unity
     let gain (x : Int) : Int := max 0 (min x 4095)
     let v : GlobalVector := ⟨1000, gain w.r, gain w.g, gain w.b⟩
     { intent := ⟨1000, 0, 0, 0, 0⟩, target := v, applied := v, remaining := 0 }) := by
  rw [Global.resetWith, globalTargetOf_eq]
  simp [Intent.reset]

/-- Settles O5: the index is rebuilt entry by entry along the stored chains, the image from the sound records, the rest of
the volatile state from what is stored. -/
theorem startUpScanRebuilds : Obligations.StartUpScanRebuilds := by
  intro sync badCells badEntries badSettings s starting
  have flags := hasFlag_scannedState s sync badCells badEntries badSettings
  have scanned := scanned_scan s.nv badCells badEntries
  obtain ⟨below, stored, positive, reached⟩ := scanCounter_cases s.nv badCells badEntries
  refine ⟨_, exec_startUpScanEnd starting sync badCells badEntries badSettings, rfl, port_scannedState s sync badCells badEntries
    badSettings, scanned.stored, fun k x e at_x at_e => scan_entry s.nv badCells badEntries at_x at_e, fun c free => ?_,
    fun c => ?_, ?_, low_scannedState s sync badCells badEntries badSettings, fun l desk => ?_, fun l n settings low damage => ?_, mem_retiredCells s.nv,
    fun c => ?_, below, stored, positive, reached, fun img saved fine => ?_, fun length lost => ?_,
    rfl, rfl, rfl, ?_, rfl⟩
  · exact scanned.image c fun held => by
      obtain ⟨x, mem, cell⟩ := (scanned.assigned c).mp held
      exact free x mem cell
  · exact chainOf_scanPool s.nv badCells badEntries c
  · refine Iff.trans ?_ (or_congr_right (scanDamage_iff s.nv badCells badEntries))
    rw [flags .sl .recordDamaged]
    simp
  · rw [flags l .poolLow]
    simp [desk]
  · rw [flags l n]
    have noDamage : ¬(l = .sl ∧ n = .recordDamaged) := fun h => damage.elim (fun h' => h' h.2) (fun h' => h' h.1)
    have noLow : ¬(l ≠ .pl ∧ n = .poolLow) := fun h => low.elim (fun h' => h' h.2) (fun h' => h.1 h')
    simp [noDamage, noLow, settings]
  · rw [free_scannedState]
    exact mem_scanFree s.nv badCells badEntries c
  · have loaded : loadSettings s.nv.settings badSettings = some img := by rw [saved, fine, loadSettings_replicate]
    refine ⟨?_, fun l => ?_⟩
    · change s.nv.scanSettings badSettings = img
      rw [NvMemory.scanSettings, loaded]
      rfl
    · rw [flags l .settingsLost, loaded]
      simp
  · have none_loaded := loadSettings_none length lost
    refine ⟨?_, fun l => ?_⟩
    · change s.nv.scanSettings badSettings = .factory
      rw [NvMemory.scanSettings, none_loaded]
      rfl
    · rw [flags l .settingsLost, none_loaded]
      simp
  · exact resetWith_eq (s.nv.scanSettings badSettings).white

end Sys2Proof.Machine
end

section
/-! PROOFS. HANG's checks (R67): the values, the routes and the conflicts. -/
namespace Sys2Proof.Machine

/-! ### The operands (R67, R183) -/

theorem exec_hang (l : Link) (f : Frame) (s : State) : exec (.hang l f) s =
    .next (takeCall (bothRow 0x0029 true true) false (hasLength 3) (ownHang l f.operands) l f s) := rfl

/-- The masked branches. -/
def hangMask (m : Word) : List Nat := [0, 1, 2, 3].filter (fun b => m.getLsbD b)

theorem setMembers_eq_hangMask (m : Word) : setMembers 4 m = hangMask m := rfl

theorem nodup_hangMask (m : Word) : (hangMask m).Nodup := List.Pairwise.filter _ (show [0, 1, 2, 3].Nodup by decide)

theorem length_hangMask (m : Word) : (hangMask m).length ≤ 4 := List.length_filter_le _ [0, 1, 2, 3]

theorem hangMask_eq_nil {m : Word} (small : m.toNat ≤ 15) : hangMask m = [] ↔ m = 0 := by
  constructor
  · intro empty
    refine BitVec.eq_of_getLsbD_eq fun b _ => ?_
    refine Eq.trans ?_ BitVec.getLsbD_zero.symm
    rw [← Bool.not_eq_true]
    intro bit
    have mem := (mem_resetSet small b).mpr bit
    rw [setMembers_eq_hangMask, empty] at mem
    cases mem
  · rintro rfl
    rfl

theorem policy_ofWord_eq_none {p : Word} (beyond : 1 < p.toNat) : Policy.ofWord p = none := by
  obtain ⟨h0, h1⟩ := ne_zero_one_of_lt beyond
  rw [Policy.ofWord, if_neg h0, if_neg h1]

/-- The policy an operand names. -/
def hangPolicy (p : Word) : Policy := if p = 0 then .record else .default

theorem policy_ofWord {p : Word} (small : p.toNat ≤ 1) : Policy.ofWord p = some (hangPolicy p) := by
  rw [Policy.ofWord, hangPolicy]
  by_cases zero : p = 0
  · rw [if_pos zero, if_pos zero]
  · have one : p = 1 := by bv_omega
    rw [if_neg zero, if_neg zero, if_pos one]

theorem parseHang_eq_none {m p : Word} (r : Word) (beyond : 15 < m.toNat ∨ 1 < p.toNat) : parseHang [m, r, p] = none := by
  rw [parseHang]
  rcases beyond with mask | policy
  · rw [show setOk 4 m = false from decide_eq_false (by omega)]
  · rw [policy_ofWord_eq_none policy]
    cases setOk 4 m <;> rfl

theorem parseHang_eq_some {m p : Word} (r : Word) (mask : m.toNat ≤ 15) (policy : p.toNat ≤ 1) :
    parseHang [m, r, p] = some (hangMask m, r.toNat, hangPolicy p) := by
  rw [parseHang, show setOk 4 m = true from decide_eq_true (by omega), policy_ofWord policy]
  rfl

/-! ### The routes of the masked branches -/

theorem maskedRoutes_eq_none {s : State} {mask : List Nat} {b : Nat} (masked : b ∈ mask) (absent : s.route b = none) :
    s.maskedRoutes mask = none := by
  induction mask with
  | nil => cases masked
  | cons c mask ih =>
    rw [State.maskedRoutes]
    rcases List.mem_cons.mp masked with rfl | later
    · rw [absent]
    · rw [ih later]
      cases s.route c <;> rfl

theorem maskedRoutes_eq_some {s : State} {rs : List (Nat × Route)} (routed : ∀ e ∈ rs, s.route e.1 = some e.2) :
    s.maskedRoutes (rs.map Prod.fst) = some rs := by
  induction rs with
  | nil => rfl
  | cons e rs ih =>
    rw [List.map_cons, State.maskedRoutes, routed e List.mem_cons_self,
      ih fun x mem => routed x (List.mem_cons_of_mem _ mem)]

/-! ### The conflicts (R67) -/

theorem mem_bothIf (p : Bool) (a b c : Nat) : c ∈ bothIf p a b ↔ p = true ∧ (c = a ∨ c = b) := by
  cases p <;> simp [bothIf]

theorem share_iff (ps qs : List Nat) : share ps qs = true ↔ ∃ i, i ∈ ps ∧ i ∈ qs := by
  simp [share, List.any_eq_true]

theorem mem_indexed_iff {s : State} {e : Nat × Position} : e ∈ s.indexed ↔ s.positions[e.1]? = some e.2 := by
  refine ⟨getElem?_of_mem_indexed, fun at_i => ?_⟩
  have at_k : s.indexed[e.1]? = some e := by rw [State.indexed_getElem?, at_i]; rfl
  exact List.mem_of_getElem? at_k

section
variable (s : State) (rs : List (Nat × Route)) (mask : List Nat) (c : Nat)

/-- The routes of a hang with the positions they cover. -/
def State.covered : List (Nat × List Nat) := rs.map (fun r => (r.1, s.routePositions r.2))

theorem exists_mem_covered (P : Nat × List Nat → Prop) :
    (∃ a ∈ s.covered rs, P a) ↔ ∃ a ∈ rs, P (a.1, s.routePositions a.2) := by
  constructor
  · rintro ⟨e, mem, holds⟩
    obtain ⟨a, listed, rfl⟩ := List.mem_map.mp mem
    exact ⟨a, listed, holds⟩
  · rintro ⟨a, listed, holds⟩
    exact ⟨_, List.mem_map_of_mem listed, holds⟩

theorem mem_maskedConflicts : c ∈ maskedConflicts (s.covered rs) ↔ ∃ a ∈ rs, ∃ b ∈ rs, a.1 ≠ b.1 ∧
    (∃ i, i ∈ s.routePositions a.2 ∧ i ∈ s.routePositions b.2) ∧ (c = a.1 ∨ c = b.1) := by
  simp only [maskedConflicts, List.mem_flatMap, exists_mem_covered, mem_bothIf, Bool.and_eq_true, share_iff,
    decide_eq_true_eq, and_assoc]

theorem mem_liveConflicts : c ∈ s.liveConflicts mask (s.covered rs) ↔ ∃ a ∈ rs, ∃ (i : Nat) (q : Position) (u : TileAt),
    s.positions[i]? = some q ∧ i ∈ s.routePositions a.2 ∧ q.hung.tile = some u ∧ u.branch ∉ mask ∧
      (c = a.1 ∨ c = u.branch) := by
  simp only [State.liveConflicts, List.mem_flatMap]
  constructor
  · rintro ⟨⟨i, q⟩, mem, conflict⟩
    cases tile : q.hung.tile with
    | none => simp [tile] at conflict
    | some u =>
      by_cases masked : u.branch ∈ mask
      · simp [tile, masked] at conflict
      · simp only [tile, List.contains_iff_mem, masked, if_false, List.mem_flatMap, exists_mem_covered,
          mem_bothIf] at conflict
        obtain ⟨a, routed, covers, named⟩ := conflict
        exact ⟨a, routed, i, q, u, mem_indexed_iff.mp mem, covers, tile, masked, named⟩
  · rintro ⟨a, routed, i, q, u, at_i, covers, tile, masked, named⟩
    refine ⟨(i, q), mem_indexed_iff.mpr at_i, ?_⟩
    simp only [tile, List.contains_iff_mem, masked, if_false, List.mem_flatMap, exists_mem_covered, mem_bothIf]
    exact ⟨a, routed, covers, named⟩

theorem mem_hangConflicts (other : Option HangWork) : c ∈ s.hangConflicts mask (s.covered rs) other ↔
    ∃ h, other = some h ∧ ∃ b ∈ h.branches, (b.branch ∈ mask ∧ c = b.branch) ∨
      ∃ a ∈ rs, (∃ i, i ∈ s.routePositions a.2 ∧ i ∈ s.routePositions b.route) ∧ (c = a.1 ∨ c = b.branch) := by
  cases other with
  | none => simp [State.hangConflicts]
  | some h =>
    have masked (b : HangBranch) : c ∈ (if mask.contains b.branch then [b.branch] else []) ↔
        b.branch ∈ mask ∧ c = b.branch := by
      by_cases mem : b.branch ∈ mask <;> simp [mem]
    simp only [State.hangConflicts, List.mem_flatMap, List.mem_append, masked, exists_mem_covered, mem_bothIf,
      share_iff, Option.some.injEq, exists_eq_left']

theorem mem_hangRefusal (l : Link) : c ∈ s.hangRefusal l mask (s.covered rs) ↔
    c ∈ maskedConflicts (s.covered rs) ∨ c ∈ s.liveConflicts mask (s.covered rs) ∨
      c ∈ s.hangConflicts mask (s.covered rs) (s.hangOf (otherLink l)) := by
  rw [State.hangRefusal, mem_insertAll, List.mem_append, List.mem_append]
  exact (or_iff_left List.not_mem_nil).trans or_assoc

end

end Sys2Proof.Machine
end

section
/-! PROOFS. HANG's roll calls join the queue (R67 to R69). -/
namespace Sys2Proof.Machine

/-! ### A hang with its outcomes -/

/-- The chain's parts that a hang's roll calls may touch. -/
structure ChainParts where
  wire : Option Wire
  branches : List Branch
  orders : List Order
  spaceWaiters : List Link
  idleWaits : List (Nat × Link)

/-- The chain's parts of a state. -/
def State.parts (s : State) : ChainParts := ⟨s.wire, s.branches, s.orders, s.spaceWaiters, s.idleWaits⟩

/-- `s` with a link's job a running hang, and with these parts of the chain. -/
def State.runsHang (s : State) (l : Link) (h : HangWork) (e : ChainParts) : State :=
  { s.setPort l { s.port l with job := some ⟨false, false, .hang h⟩ } with
    wire := e.wire, branches := e.branches, orders := e.orders, spaceWaiters := e.spaceWaiters, idleWaits := e.idleWaits }

section
variable {s : State} {l : Link} {h : HangWork} {e : ChainParts}

theorem job_runsHang (s : State) (l : Link) (h : HangWork) (e : ChainParts) :
    ((s.runsHang l h e).port l).job = some ⟨false, false, .hang h⟩ := by
  cases l <;> rfl

theorem hangOf_runsHang (s : State) (l : Link) (h : HangWork) (e : ChainParts) : (s.runsHang l h e).hangOf l = some h :=
  hangOf_of_job (job_runsHang s l h e) rfl

theorem setWork_runsHang (k : HangWork) : (s.runsHang l h e).setWork l (.hang k) = s.runsHang l k e := by
  rw [setWork_eq (job_runsHang s l h e)]
  cases l <;> rfl

theorem queueRollCall_runsHang {b : Nat} (due : h.toQueue = some b) : (s.runsHang l h e).queueRollCall l =
    s.runsHang l (h.setOutcome b .queued) { e with orders := e.orders ++ [⟨.rollCall, b, .hang l⟩] } := by
  rw [queueRollCall_of_hang (hangOf_runsHang s l h e) due, State.setHang, setWork_runsHang]
  rfl

theorem hasToQueue_runsHang (s : State) (l : Link) (h : HangWork) (e : ChainParts) :
    (s.runsHang l h e).hasToQueue l = h.toQueue.isSome := by
  rw [State.hasToQueue, hangOf_runsHang]

end

/-- A hang at its acceptance, with an outcome for each branch (R66). -/
def State.calling (s : State) (ramp : Nat) (policy : Policy) (rs : List (Nat × Route)) (outcome : Nat → CallOutcome) :
    HangWork :=
  { s.startHang ramp policy rs with branches := rs.map (fun e => ⟨e.1, e.2, outcome e.1, [], false, false⟩) }

section
variable {s : State} {l : Link} {ramp : Nat} {policy : Policy} {rs : List (Nat × Route)} {outcome : Nat → CallOutcome}

theorem calling_congr {outcome' : Nat → CallOutcome} (same : ∀ b ∈ rs.map Prod.fst, outcome b = outcome' b) :
    s.calling ramp policy rs outcome = s.calling ramp policy rs outcome' := by
  have branches : rs.map (fun e => (⟨e.1, e.2, outcome e.1, [], false, false⟩ : HangBranch)) =
      rs.map (fun e => ⟨e.1, e.2, outcome' e.1, [], false, false⟩) :=
    List.map_congr_left fun e mem => by rw [same e.1 (List.mem_map_of_mem mem)]
  rw [State.calling, State.calling, branches]

/-- One branch's outcome replaced. -/
theorem branches_calling (b : Nat) (o : CallOutcome) :
    (s.calling ramp policy rs outcome).branches.map (fun y => if y.branch = b then { y with outcome := o } else y) =
      (s.calling ramp policy rs (fun c => if c = b then o else outcome c)).branches := by
  simp only [State.calling, List.map_map]
  refine List.map_congr_left fun e _ => ?_
  by_cases same : e.1 = b
  · simp [same]
  · simp [same]

theorem calling_setOutcome (b : Nat) (o : CallOutcome) : (s.calling ramp policy rs outcome).setOutcome b o =
    s.calling ramp policy rs (fun c => if c = b then o else outcome c) :=
  congrArg (fun bs => ({ s.calling ramp policy rs outcome with branches := bs } : HangWork)) (branches_calling b o)

theorem toQueue_calling : (s.calling ramp policy rs outcome).toQueue =
    (rs.map Prod.fst).find? (fun b => decide (outcome b = .toQueue)) := by
  rw [HangWork.toQueue, State.calling, List.find?_map, List.find?_map, Option.map_map]
  rfl

end

/-! ### The roll calls queued (R67, R69) -/

/-- The outcome of a branch when the roll calls of `done` have been queued. -/
def queuedIn (done : List Nat) (b : Nat) : CallOutcome := if b ∈ done then .queued else .toQueue

theorem find_toQueue {done todo : List Nat} (once : (done ++ todo).Nodup) :
    (done ++ todo).find? (fun b => decide (queuedIn done b = .toQueue)) = todo.head? := by
  have apart := apart_of_nodup_append once
  have skip : done.find? (fun b => decide (queuedIn done b = .toQueue)) = none := by
    refine List.find?_eq_none.mpr fun b mem => ?_
    simp [queuedIn, mem]
  rw [List.find?_append, skip, Option.none_or]
  cases todo with
  | nil => rfl
  | cons b todo =>
    have fresh : b ∉ done := fun mem => apart mem List.mem_cons_self
    rw [List.find?_cons_of_pos (by simp [queuedIn, fresh]), List.head?_cons]

/-- The space waiters once a hang waits, if it is not waiting already. -/
def withWaiter (l : Link) (ls : List Link) : List Link := if ls.contains l then ls else ls ++ [l]

/-- The roll calls of a list of branches. -/
def rollCalls (l : Link) (bs : List Nat) : List Order := bs.map (fun b => ⟨.rollCall, b, .hang l⟩)

theorem offerRollCalls_runsHang {s : State} {l : Link} {ramp : Nat} {policy : Policy} {rs : List (Nat × Route)}
    (n : Nat) (done todo : List Nat) (mask : rs.map Prod.fst = done ++ todo) (once : (done ++ todo).Nodup)
    (fuel : todo.length < n) (e : ChainParts) :
    offerRollCalls l n (s.runsHang l (s.calling ramp policy rs (queuedIn done)) e) =
      (let k := min todo.length (8 - e.orders.length)
       s.runsHang l (s.calling ramp policy rs (queuedIn (done ++ todo.take k))) { e with
        orders := e.orders ++ rollCalls l (todo.take k)
        spaceWaiters := if k < todo.length then withWaiter l e.spaceWaiters else e.spaceWaiters }) := by
  induction n generalizing done todo e with
  | zero => exact absurd fuel (Nat.not_lt_zero _)
  | succ n ih =>
    have head : (s.runsHang l (s.calling ramp policy rs (queuedIn done)) e).hasToQueue l = todo.head?.isSome := by
      rw [hasToQueue_runsHang, toQueue_calling, mask, find_toQueue once]
    cases todo with
    | nil =>
      rw [offerRollCalls, head]
      simp [rollCalls]
    | cons b todo =>
      by_cases room : e.orders.length < 8
      · have due : (s.calling ramp policy rs (queuedIn done)).toQueue = some b := by
          rw [toQueue_calling, mask, find_toQueue once]
          rfl
        have queued : s.calling ramp policy rs (fun c => if c = b then .queued else queuedIn done c) =
            s.calling ramp policy rs (queuedIn (done ++ [b])) := calling_congr fun c _ => by
          by_cases same : c = b
          · simp [same, queuedIn]
          · simp [same, queuedIn]
        have steps : offerRollCalls l (n + 1) (s.runsHang l (s.calling ramp policy rs (queuedIn done)) e) =
            offerRollCalls l n (s.runsHang l (s.calling ramp policy rs (queuedIn (done ++ [b])))
              { e with orders := e.orders ++ [⟨.rollCall, b, .hang l⟩] }) := by
          rw [offerRollCalls, head, ← queued, ← calling_setOutcome, ← queueRollCall_runsHang due]
          exact (if_pos rfl).trans (if_pos room)
        have shorter : done ++ b :: todo = (done ++ [b]) ++ todo := by simp
        rw [steps, ih (done ++ [b]) todo (mask.trans shorter) (shorter ▸ once) (Nat.lt_of_succ_lt_succ fuel)]
        obtain ⟨k, left⟩ : ∃ k, 8 - e.orders.length = k + 1 := ⟨7 - e.orders.length, by omega⟩
        have left' : 8 - (e.orders ++ [(⟨.rollCall, b, .hang l⟩ : Order)]).length = k := by
          rw [List.length_append, List.length_singleton]
          omega
        dsimp only
        rw [left', left, List.length_cons, Nat.add_min_add_right, List.take_succ_cons]
        simp only [rollCalls, List.map_cons, List.append_assoc, List.singleton_append, Nat.add_lt_add_iff_right]
      · have waits : offerRollCalls l (n + 1) (s.runsHang l (s.calling ramp policy rs (queuedIn done)) e) =
            (s.runsHang l (s.calling ramp policy rs (queuedIn done)) e).waitForSpace l := by
          rw [offerRollCalls, head]
          exact (if_pos rfl).trans (if_neg room)
        have full : 8 - e.orders.length = 0 := by omega
        rw [waits]
        dsimp only
        rw [full, Nat.min_zero, List.take_zero,
          if_pos (show 0 < (b :: todo).length from Nat.succ_pos _), List.append_nil]
        simp only [rollCalls, List.map_nil, List.append_nil]
        rw [State.waitForSpace, withWaiter]
        have same : (s.runsHang l (s.calling ramp policy rs (queuedIn done)) e).spaceWaiters = e.spaceWaiters := rfl
        rw [same]
        split <;> rfl

theorem filter_queuedIn_take {mask : List Nat} (once : mask.Nodup) (k : Nat) :
    mask.filter (fun b => decide (queuedIn (mask.take k) b = .queued)) = mask.take k := by
  have apart := apart_of_nodup_append ((List.take_append_drop k mask).symm ▸ once)
  have queued (b : Nat) : decide (queuedIn (mask.take k) b = .queued) = decide (b ∈ mask.take k) := by
    by_cases mem : b ∈ mask.take k <;> simp [queuedIn, mem]
  calc mask.filter (fun b => decide (queuedIn (mask.take k) b = .queued))
      = (mask.take k ++ mask.drop k).filter (fun b => decide (b ∈ mask.take k)) := by
        rw [List.take_append_drop]
        exact List.filter_congr fun b _ => queued b
    _ = mask.take k ++ [] := by
        rw [List.filter_append, List.filter_eq_self.mpr fun b mem => decide_eq_true mem,
          List.filter_eq_nil_iff.mpr fun b mem taken => apart (of_decide_eq_true taken) mem]
    _ = mask.take k := List.append_nil _

/-- The roll calls that have joined the queue are counted (R67). -/
theorem queuedCalls_runsHang (s : State) (l : Link) (ramp : Nat) (policy : Policy) (rs : List (Nat × Route)) (e : ChainParts)
    (once : (rs.map Prod.fst).Nodup) (k : Nat) :
    (s.runsHang l (s.calling ramp policy rs (queuedIn ((rs.map Prod.fst).take k))) e).queuedCalls l =
      ((rs.map Prod.fst).take k).length := by
  have counts : (s.runsHang l (s.calling ramp policy rs (queuedIn ((rs.map Prod.fst).take k))) e).queuedCalls l =
      ((s.calling ramp policy rs (queuedIn ((rs.map Prod.fst).take k))).branches.filter
        (fun b => decide (b.outcome = .queued))).length := by
    unfold State.queuedCalls
    rw [hangOf_runsHang]
  have taken := congrArg List.length (filter_queuedIn_take once k)
  rw [List.filter_map, List.length_map] at taken
  rw [counts]
  refine Eq.trans ?_ taken
  rw [State.calling, List.filter_map, List.length_map]
  rfl

end Sys2Proof.Machine
end

section
/-! PROOFS. A free transmitter takes a hang's roll calls (R48, R60, R69). -/
namespace Sys2Proof.Machine

section
variable {s : State} {l : Link} {ramp : Nat} {policy : Policy} {rs : List (Nat × Route)} {outcome : Nat → CallOutcome}
variable {e : ChainParts} {b : Nat} {x : Branch}

/-- One branch's outcome replaced in the running hang. -/
theorem setBranches_runsHang (o : CallOutcome) :
    (s.runsHang l (s.calling ramp policy rs outcome) e).setPort l
      { (s.runsHang l (s.calling ramp policy rs outcome) e).port l with
        job := some ⟨false, false, .hang { s.calling ramp policy rs outcome with
          branches := (s.calling ramp policy rs outcome).branches.map
            (fun y => if y.branch = b then { y with outcome := o } else y) }⟩ } =
      s.runsHang l (s.calling ramp policy rs (fun c => if c = b then o else outcome c)) e := by
  rw [branches_calling]
  cases l <;> rfl

/-- A branch of the mask with its outcome. -/
theorem mem_branches_calling {c : Nat} (masked : c ∈ rs.map Prod.fst) :
    ∃ y ∈ (s.calling ramp policy rs outcome).branches, y.branch = c ∧ y.outcome = outcome c := by
  obtain ⟨r, routed, rfl⟩ := List.mem_map.mp masked
  exact ⟨_, List.mem_map_of_mem routed, rfl, rfl⟩

/-- A roll call for a branch in FAULT, with another still out (R48, R69). -/
theorem checkOrder_rollCall_fault (at_b : e.branches[b]? = some x) (fault : x.state = .fault)
    (out : ∃ c ∈ rs.map Prod.fst, c ≠ b ∧ (outcome c).isFinal = false) :
    (s.runsHang l (s.calling ramp policy rs outcome) e).checkOrder ⟨.rollCall, b, .hang l⟩ =
      s.runsHang l (s.calling ramp policy rs (fun c => if c = b then .failed .branchFault else outcome c)) e := by
  obtain ⟨c, masked, other, waits⟩ := out
  obtain ⟨y, listed, named, called⟩ := mem_branches_calling (s := s) (ramp := ramp) (policy := policy) (outcome := outcome) masked
  have at_b' : (s.runsHang l (s.calling ramp policy rs outcome) e).branches[b]? = some x := at_b
  rw [checkOrder_fault (o := ⟨.rollCall, b, .hang l⟩) at_b' fault]
  dsimp only
  rw [tell_hang_branchFault (job_runsHang s l _ e) rfl b ⟨y, listed, by rw [named]; exact other, by rw [called]; exact waits⟩]
  exact setBranches_runsHang (.failed .branchFault)

/-- A roll call for a branch that is busy otherwise (R48, R60). -/
theorem checkOrder_rollCall_waits (at_b : e.branches[b]? = some x) (busy : x.state ≠ .idle) (works : x.state ≠ .fault) :
    (s.runsHang l (s.calling ramp policy rs outcome) e).checkOrder ⟨.rollCall, b, .hang l⟩ =
      s.runsHang l (s.calling ramp policy rs (fun c => if c = b then .waitingIdle else outcome c))
        { e with idleWaits := e.idleWaits ++ [(b, l)] } := by
  have at_b' : (s.runsHang l (s.calling ramp policy rs outcome) e).branches[b]? = some x := at_b
  rw [checkOrder_rollCall_busy (o := ⟨.rollCall, b, .hang l⟩) at_b' busy works rfl]
  dsimp only
  rw [tell_hang_branchBusy (job_runsHang s l _ e) rfl b]
  exact congrArg (fun u : State => ({ u with idleWaits := e.idleWaits ++ [(b, l)] } : State)) (setBranches_runsHang .waitingIdle)

/-- A roll call for an IDLE branch goes on the wire (R42, R50). -/
theorem checkOrder_rollCall_sent (h : HangWork) (at_b : e.branches[b]? = some x) (idle : x.state = .idle) :
    (s.runsHang l h e).checkOrder ⟨.rollCall, b, .hang l⟩ = s.runsHang l h { e with
      branches := e.branches.set b { x with state := .calling }, wire := some (Order.sent ⟨.rollCall, b, .hang l⟩) } :=
  checkOrder_rollCall (s := s.runsHang l h e) (o := ⟨.rollCall, b, .hang l⟩) at_b idle rfl

/-- The transmitter takes the oldest roll call; its place is given to no one. -/
theorem takeOrders_runsHang (n : Nat) (h : HangWork) (os : List Order) (o : Order) (owed : s.owed = []) (free : e.wire = none)
    (space : e.spaceWaiters = []) : takeOrders (n + 1) (s.runsHang l h { e with orders := o :: os }) =
      takeOrders n ((s.runsHang l h { e with orders := os }).checkOrder o) := by
  have owed' : (s.runsHang l h { e with orders := os }).owed = [] := by
    rw [State.runsHang, State.setPort_owed, owed]
  rw [takeOrders_cons n (s := s.runsHang l h { e with orders := o :: os }) (o := o) (rest := os) free rfl]
  exact congrArg (fun u : State => takeOrders n (u.checkOrder o))
    (givePlace_idle (s := s.runsHang l h { e with orders := os }) owed' space)

end

/-! ### The roll calls taken one after another -/

/-- The state of a branch, if there is one. -/
def State.stateOf (s : State) (b : Nat) : Option BranchState := (s.branches[b]?).map Branch.state

/-- The outcome of a branch when the roll calls of the branches `done`, none of them IDLE, have been taken. -/
def State.takenIn (s : State) (done : List Nat) (b : Nat) : CallOutcome :=
  if b ∉ done then .queued else if s.stateOf b = some .fault then .failed .branchFault else .waitingIdle

section
variable {s : State} {l : Link} {ramp : Nat} {policy : Policy} {rs : List (Nat × Route)}

theorem takenIn_snoc_same (done : List Nat) (b : Nat) : s.takenIn (done ++ [b]) b =
    if s.stateOf b = some .fault then .failed .branchFault else .waitingIdle := by
  simp [State.takenIn]

theorem calling_takenIn_snoc (done : List Nat) (b : Nat) {o : CallOutcome} (taken : s.takenIn (done ++ [b]) b = o) :
    s.calling ramp policy rs (fun c => if c = b then o else s.takenIn done c) =
      s.calling ramp policy rs (s.takenIn (done ++ [b])) := by
  refine calling_congr fun c _ => ?_
  by_cases same : c = b
  · rw [if_pos same, same, taken]
  · rw [if_neg same]
    simp [State.takenIn, same]

/-- A branch that another step waits for: its roll call is not among those taken, or waits on its branch. -/
theorem takenIn_waits {done : List Nat} {c : Nat} (alive : c ∉ done ∨ s.stateOf c ≠ some .fault) :
    (s.takenIn done c).isFinal = false := by
  rw [State.takenIn]
  by_cases mem : c ∈ done
  · rw [if_neg (not_not_intro mem), if_neg (alive.resolve_left (not_not_intro mem))]
    rfl
  · rw [if_pos mem]
    rfl

/-- The chain's parts while the free transmitter takes roll calls. -/
def State.takingParts (s : State) (l : Link) (left : List Nat) (waits : List (Nat × Link)) : ChainParts :=
  { wire := none, branches := s.branches, orders := rollCalls l left, spaceWaiters := [], idleWaits := waits }

/-- The waits of the branches that are not in FAULT (R60). -/
def State.idleWaitsOf (s : State) (l : Link) (bs : List Nat) : List (Nat × Link) :=
  (bs.filter (fun b => decide (s.stateOf b ≠ some .fault))).map (fun b => (b, l))

/-- The roll calls of branches that are not IDLE are taken and refused one after another, while one is still out. -/
theorem takeOrders_refused (owed : s.owed = []) (n : Nat) (busy done rest : List Nat) (waits : List (Nat × Link))
    (refused : ∀ b ∈ busy, s.stateOf b ≠ some .idle ∧ s.stateOf b ≠ none)
    (alive : ∃ c ∈ rs.map Prod.fst, c ∉ done ++ busy ∨ s.stateOf c ≠ some .fault) :
    takeOrders (n + busy.length) (s.runsHang l (s.calling ramp policy rs (s.takenIn done))
        (s.takingParts l (busy ++ rest) waits)) =
      takeOrders n (s.runsHang l (s.calling ramp policy rs (s.takenIn (done ++ busy)))
        (s.takingParts l rest (waits ++ s.idleWaitsOf l busy))) := by
  induction busy generalizing done waits with
  | nil => simp [State.idleWaitsOf]
  | cons b busy ih =>
    obtain ⟨notIdle, isBranch⟩ := refused b List.mem_cons_self
    obtain ⟨x, at_b⟩ : ∃ x, s.branches[b]? = some x := by
      cases at_b : s.branches[b]? with
      | none => rw [State.stateOf, at_b] at isBranch; exact absurd rfl isBranch
      | some x => exact ⟨x, rfl⟩
    have state : s.stateOf b = some x.state := by rw [State.stateOf, at_b]; rfl
    have alive' : ∃ c ∈ rs.map Prod.fst, c ∉ (done ++ [b]) ++ busy ∨ s.stateOf c ≠ some .fault := by
      rwa [List.append_assoc, List.singleton_append]
    have rest' (waits' : List (Nat × Link)) :=
      ih (done ++ [b]) waits' (fun c mem => refused c (List.mem_cons_of_mem _ mem)) alive'
    have all : (done ++ [b]) ++ busy = done ++ b :: busy := by rw [List.append_assoc, List.singleton_append]
    have take := takeOrders_runsHang (s := s) (l := l) (e := s.takingParts l (busy ++ rest) waits) (n + busy.length)
      (s.calling ramp policy rs (s.takenIn done)) (rollCalls l (busy ++ rest)) ⟨.rollCall, b, .hang l⟩ owed rfl rfl
    refine (show _ = _ from take).trans ?_
    by_cases fault : x.state = .fault
    · have isFault : s.stateOf b = some .fault := by rw [state, fault]
      have out : ∃ c ∈ rs.map Prod.fst, c ≠ b ∧ (s.takenIn done c).isFinal = false := by
        obtain ⟨c, masked, waiting⟩ := alive
        refine ⟨c, masked, ?_, takenIn_waits (waiting.imp_left fun absent mem => absent (List.mem_append_left _ mem))⟩
        rintro rfl
        exact waiting.elim (fun absent => absent (List.mem_append_right _ List.mem_cons_self)) (fun fine => fine isFault)
      have check := checkOrder_rollCall_fault (s := s) (l := l) (ramp := ramp) (policy := policy)
        (e := s.takingParts l (busy ++ rest) waits) at_b fault out
      have next := calling_takenIn_snoc (s := s) (ramp := ramp) (policy := policy) (rs := rs) done b
        ((takenIn_snoc_same done b).trans (if_pos isFault))
      have none_waits : s.idleWaitsOf l (b :: busy) = s.idleWaitsOf l busy := by
        rw [State.idleWaitsOf, List.filter_cons_of_neg (by simp [isFault])]
        rfl
      refine (congrArg (takeOrders (n + busy.length)) (check.trans (by rw [next]))).trans ?_
      rw [rest', all, none_waits]
    · have notFault : s.stateOf b ≠ some .fault := by
        rw [state]
        exact fun h => fault (Option.some.inj h)
      have busyState : x.state ≠ .idle := fun h => notIdle (by rw [state, h])
      have check := checkOrder_rollCall_waits (s := s) (l := l) (ramp := ramp) (policy := policy) (rs := rs)
        (outcome := s.takenIn done) (e := s.takingParts l (busy ++ rest) waits) at_b busyState fault
      have next := calling_takenIn_snoc (s := s) (ramp := ramp) (policy := policy) (rs := rs) done b
        ((takenIn_snoc_same done b).trans (if_neg notFault))
      have one_waits : s.idleWaitsOf l (b :: busy) = (b, l) :: s.idleWaitsOf l busy := by
        rw [State.idleWaitsOf, List.filter_cons_of_pos (by simp [notFault])]
        rfl
      refine (congrArg (takeOrders (n + busy.length)) (check.trans (by rw [next]))).trans ?_
      refine (rest' (waits ++ [(b, l)])).trans ?_
      rw [all, one_waits, List.append_assoc, List.singleton_append]

end

end Sys2Proof.Machine
end

section
/-! PROOFS. HANG accepted (R66 to R69). -/
namespace Sys2Proof.Machine

/-! ### What HANG's own checks decide -/

section
variable {s : State} {l : Link} {m r p : Word} {rs : List (Nat × Route)}

theorem ownHang_badValue (bad : m = 0 ∨ 15 < m.toNat ∨ 1023 < r.toNat ∨ 1 < p.toNat ∨ ∃ b ∈ hangMask m, s.route b = none) :
    ownHang l [m, r, p] s = .refuse .badValue [] := by
  by_cases words : 15 < m.toNat ∨ 1 < p.toNat
  · rw [ownHang, parseHang_eq_none r words]
  · obtain ⟨small, policy⟩ : m.toNat ≤ 15 ∧ p.toNat ≤ 1 := by omega
    rw [ownHang, parseHang_eq_some r small policy]
    dsimp only
    cases mask : hangMask m with
    | nil => rfl
    | cons b bs =>
      by_cases absent : ∃ c ∈ hangMask m, s.route c = none
      · obtain ⟨c, masked, none_routed⟩ := absent
        have none_routes : s.maskedRoutes (b :: bs) = none := maskedRoutes_eq_none (mask ▸ masked) none_routed
        rw [none_routes]
      · have nonzero : m ≠ 0 := fun zero => by
          rw [(hangMask_eq_nil small).mpr zero] at mask
          cases mask
        have long : 1023 < r.toNat := by
          rcases bad with zero | big | long | big | no_route
          · exact absurd zero nonzero
          · omega
          · exact long
          · omega
          · exact absurd no_route absent
        cases s.maskedRoutes (b :: bs) with
        | none => rfl
        | some rs => exact if_pos long

theorem ownHang_eq (nonzero : m ≠ 0) (small : m.toNat ≤ 15) (short : r.toNat ≤ 1023) (policy : p.toNat ≤ 1)
    (masked : rs.map Prod.fst = hangMask m) (routed : ∀ e ∈ rs, s.route e.1 = some e.2) : ownHang l [m, r, p] s =
      match (generalizing := false) s.hangRefusal l (hangMask m) (s.covered rs) with
      | c :: cs => .refuse .routeConflict [setWord (c :: cs)]
      | [] =>
        let s' := (s.startJob l (.hang (s.startHang r.toNat (hangPolicy p) rs))).offerAll l
        .accept .ok [wordOfNat (s'.queuedCalls l)] s'.kick := by
  have routes := maskedRoutes_eq_some routed
  rw [masked] at routes
  rw [ownHang, parseHang_eq_some r small policy]
  dsimp only
  cases mask : hangMask m with
  | nil => exact absurd ((hangMask_eq_nil small).mp mask) nonzero
  | cons b bs =>
    rw [mask] at routes
    rw [routes]
    exact if_neg (Nat.not_lt.mpr short)

end

/-! ### Acceptance -/

theorem startJob_hang (s : State) (l : Link) (ramp : Nat) (policy : Policy) (rs : List (Nat × Route)) :
    s.startJob l (.hang (s.startHang ramp policy rs)) = s.runsHang l (s.calling ramp policy rs (queuedIn [])) s.parts := by
  have fresh : s.startHang ramp policy rs = s.calling ramp policy rs (queuedIn []) := rfl
  rw [fresh]
  cases l <;> rfl

/-- The chain's parts once a hang's roll calls have been offered. -/
def State.offeredParts (s : State) (l : Link) (mask : List Nat) (k : Nat) : ChainParts :=
  { s.parts with
    orders := s.orders ++ rollCalls l (mask.take k)
    spaceWaiters := if k < mask.length then withWaiter l s.spaceWaiters else s.spaceWaiters }

theorem offerAll_started {s : State} {l : Link} {ramp : Nat} {policy : Policy} {rs : List (Nat × Route)} {mask : List Nat}
    (masked : rs.map Prod.fst = mask) (once : mask.Nodup) (few : mask.length ≤ 4) :
    (s.startJob l (.hang (s.startHang ramp policy rs))).offerAll l =
      (let k := min mask.length (8 - s.orders.length)
       s.runsHang l (s.calling ramp policy rs (queuedIn (mask.take k))) (s.offeredParts l mask k)) := by
  rw [startJob_hang]
  exact offerRollCalls_runsHang 5 [] mask masked once (by omega) s.parts

/-- A hang accepted: the roll calls offered and counted, the transmitter kicked (R67). -/
theorem ownHang_accepts {s : State} {l : Link} {m r p : Word} {rs : List (Nat × Route)} (nonzero : m ≠ 0)
    (small : m.toNat ≤ 15) (short : r.toNat ≤ 1023) (policy : p.toNat ≤ 1) (masked : rs.map Prod.fst = hangMask m)
    (routed : ∀ e ∈ rs, s.route e.1 = some e.2) (clear : s.hangRefusal l (hangMask m) (s.covered rs) = []) :
    ownHang l [m, r, p] s =
      (let k := min (hangMask m).length (8 - s.orders.length)
       .accept .ok [wordOfNat k] (s.runsHang l (s.calling r.toNat (hangPolicy p) rs (queuedIn ((hangMask m).take k)))
        (s.offeredParts l (hangMask m) k)).kick) := by
  have offered := offerAll_started (s := s) (l := l) (ramp := r.toNat) (policy := hangPolicy p) masked (nodup_hangMask m)
    (length_hangMask m)
  have counted := queuedCalls_runsHang s l r.toNat (hangPolicy p) rs
    (s.offeredParts l (hangMask m) (min (hangMask m).length (8 - s.orders.length))) (masked ▸ nodup_hangMask m)
    (min (hangMask m).length (8 - s.orders.length))
  rw [masked, List.length_take, Nat.min_eq_left (Nat.min_le_left _ _)] at counted
  rw [ownHang_eq nonzero small short policy masked routed, clear, offered]
  dsimp only
  rw [counted]

/-- The staged map at acceptance (R68). -/
theorem mem_startStaged (s : State) (mask : List Nat) (i : Nat) (x : Hung) : (i, x) ∈ s.startStaged mask ↔
    x = .empty ∧ ∃ (q : Position) (u : TileAt), s.positions[i]? = some q ∧ q.hung.tile = some u ∧ u.branch ∈ mask := by
  simp only [State.startStaged, List.mem_filterMap]
  constructor
  · rintro ⟨⟨k, q⟩, mem, staged⟩
    cases tile : q.hung.tile with
    | none => simp [tile] at staged
    | some u =>
      by_cases masked : u.branch ∈ mask
      · simp only [tile, List.contains_iff_mem, masked, if_true, Option.some.injEq, Prod.mk.injEq] at staged
        obtain ⟨rfl, rfl⟩ := staged
        exact ⟨rfl, q, u, mem_indexed_iff.mp mem, tile, masked⟩
      · simp [tile, masked] at staged
  · rintro ⟨rfl, q, u, at_i, tile, masked⟩
    exact ⟨(i, q), mem_indexed_iff.mpr at_i, by simp [tile, masked]⟩

/-! ### The call -/

theorem runsHang_reply (u : State) (l : Link) (h : HangWork) (e : ChainParts) (st : Status) (ws : List Word) :
    (u.runsHang l h e).reply l st ws = (u.reply l st ws).runsHang l h e := by
  cases l <;> rfl

/-- A hang accepted whose job goes on calling: the call's outcome, from what its own effect leaves. -/
theorem exec_hang_calling {s : State} {l : Link} {f : Frame} {ws words : List Word} {h : HangWork} {e : ChainParts}
    (takes : s.takes l f 0x29 = true) (admits : s.Admits (bothRow 0x0029 true true) l) (operands : f.operands = ws)
    (three : ws.length = 3) (own : ownHang l ws (s.called l) = .accept .ok words ((s.called l).runsHang l h e)) :
    exec (.hang l f) s = .next ((s.answered l .ok words).runsHang l h e) := by
  rw [exec_hang, operands]
  have length : hasLength 3 f.operands = true := by
    rw [operands]
    exact decide_eq_true three
  exact congrArg Host.Outcome.next (takeCall_changes (c := bothRow 0x0029 true true) (od := false) (len := hasLength 3)
    (own := ownHang l ws) (fun u => u.runsHang l h e) (fun u => runsHang_reply u l h e .ok words) takes admits length own)

end Sys2Proof.Machine
end

section
/-! PROOFS. HANG with the transmitter free (R48, R50, R60, R67 to R70, R75). -/
namespace Sys2Proof.Machine

section
variable {s : State} {l : Link} {ramp : Nat} {policy : Policy} {rs : List (Nat × Route)} {mask : List Nat}

/-! ### The roll calls taken at acceptance -/

/-- The parts after the offer, with the queue empty before it. -/
theorem offeredParts_free (free : s.wire = none) (empty : s.orders = []) (space : s.spaceWaiters = []) (few : mask.length ≤ 4) :
    s.offeredParts l mask (min mask.length (8 - s.orders.length)) = s.takingParts l mask s.idleWaits := by
  have all : min mask.length (8 - s.orders.length) = mask.length := by
    rw [empty, List.length_nil]
    omega
  rw [all, State.offeredParts, if_neg (Nat.lt_irrefl _), List.take_length, State.takingParts, State.parts, free, empty, space]
  rfl

theorem calling_queued_all (masked : rs.map Prod.fst = mask) :
    s.calling ramp policy rs (queuedIn mask) = s.calling ramp policy rs (s.takenIn []) :=
  calling_congr fun b mem => by
    rw [queuedIn, if_pos (masked ▸ mem), State.takenIn, if_pos List.not_mem_nil]

/-- The branches of a list are refused when the transmitter is kicked, and the rest is left to take (R48). -/
theorem kick_refused (owed : s.owed = []) (busy rest : List Nat)
    (refused : ∀ b ∈ busy, s.stateOf b ≠ some .idle ∧ s.stateOf b ≠ none)
    (alive : ∃ c ∈ rs.map Prod.fst, c ∉ busy ∨ s.stateOf c ≠ some .fault) :
    (s.runsHang l (s.calling ramp policy rs (s.takenIn [])) (s.takingParts l (busy ++ rest) s.idleWaits)).kick =
      takeOrders (rest.length + 8) (s.runsHang l (s.calling ramp policy rs (s.takenIn busy))
        (s.takingParts l rest (s.idleWaits ++ s.idleWaitsOf l busy))) := by
  have fuel : (s.runsHang l (s.calling ramp policy rs (s.takenIn [])) (s.takingParts l (busy ++ rest) s.idleWaits)).orders.length
      + (s.runsHang l (s.calling ramp policy rs (s.takenIn [])) (s.takingParts l (busy ++ rest) s.idleWaits)).owed.length + 8 =
      rest.length + 8 + busy.length := by
    have orders : (s.runsHang l (s.calling ramp policy rs (s.takenIn []))
        (s.takingParts l (busy ++ rest) s.idleWaits)).orders.length = (busy ++ rest).length := List.length_map _
    have none_owed : (s.runsHang l (s.calling ramp policy rs (s.takenIn []))
        (s.takingParts l (busy ++ rest) s.idleWaits)).owed = [] := by
      rw [State.runsHang, State.setPort_owed, owed]
    rw [orders, none_owed, List.length_append, List.length_nil]
    omega
  rw [State.kick, fuel]
  exact takeOrders_refused owed _ busy [] rest s.idleWaits refused alive

/-- With every masked branch refused the transmitter rests. -/
theorem kick_all_refused (owed : s.owed = []) (busy : List Nat)
    (refused : ∀ b ∈ busy, s.stateOf b ≠ some .idle ∧ s.stateOf b ≠ none)
    (alive : ∃ c ∈ rs.map Prod.fst, c ∉ busy ∨ s.stateOf c ≠ some .fault) :
    (s.runsHang l (s.calling ramp policy rs (s.takenIn [])) (s.takingParts l busy s.idleWaits)).kick =
      s.runsHang l (s.calling ramp policy rs (s.takenIn busy))
        (s.takingParts l [] (s.idleWaits ++ s.idleWaitsOf l busy)) := by
  have refuses := kick_refused (l := l) (ramp := ramp) (policy := policy) owed busy [] refused alive
  rw [List.append_nil] at refuses
  rw [refuses]
  exact takeOrders_quiescent _ (.inr rfl)

/-- The parts with the first IDLE branch's roll call on the wire (R42, R50). -/
def State.sentParts (s : State) (l : Link) (b : Nat) (x : Branch) (rest : List Nat) (waits : List (Nat × Link)) : ChainParts :=
  { wire := some (Order.sent ⟨.rollCall, b, .hang l⟩), branches := s.branches.set b { x with state := .calling }
    orders := rollCalls l rest, spaceWaiters := [], idleWaits := waits }

/-- The first IDLE branch's roll call goes out. -/
theorem kick_sent (owed : s.owed = []) (busy : List Nat) (b : Nat) (rest : List Nat) {x : Branch}
    (refused : ∀ c ∈ busy, s.stateOf c ≠ some .idle ∧ s.stateOf c ≠ none) (masked : b ∈ rs.map Prod.fst) (out : b ∉ busy)
    (at_b : s.branches[b]? = some x) (idle : x.state = .idle) :
    (s.runsHang l (s.calling ramp policy rs (s.takenIn [])) (s.takingParts l (busy ++ b :: rest) s.idleWaits)).kick =
      s.runsHang l (s.calling ramp policy rs (s.takenIn busy))
        (s.sentParts l b x rest (s.idleWaits ++ s.idleWaitsOf l busy)) := by
  rw [kick_refused owed busy (b :: rest) refused ⟨b, masked, .inl out⟩]
  have take := takeOrders_runsHang (s := s) (l := l) (e := s.takingParts l rest (s.idleWaits ++ s.idleWaitsOf l busy))
    (rest.length + 8) (s.calling ramp policy rs (s.takenIn busy)) (rollCalls l rest) ⟨.rollCall, b, .hang l⟩ owed rfl rfl
  have check := checkOrder_rollCall_sent (s := s) (l := l) (e := s.takingParts l rest (s.idleWaits ++ s.idleWaitsOf l busy))
    (s.calling ramp policy rs (s.takenIn busy)) at_b idle
  rw [List.length_cons, Nat.add_right_comm]
  refine (show _ = _ from take).trans ((congrArg (takeOrders _) check).trans ?_)
  exact takeOrders_quiescent _ (.inl nofun)

/-! ### Every masked branch in FAULT -/

/-- The outcome of a branch in FAULT. -/
def allFault : Nat → CallOutcome := fun _ => .failed .branchFault

/-- A hang whose every branch failed has nothing to lay: its staged map is empty (R70). -/
theorem restoreFailed_allFault :
    restoreFailed s.positions (s.calling ramp policy rs allFault).branches (s.calling ramp policy rs allFault).staged = [] := by
  refine List.filter_eq_nil_iff.mpr fun e mem => ?_
  have staged : (e.1, e.2) ∈ s.startStaged (rs.map Prod.fst) := mem
  obtain ⟨-, q, u, at_i, tile, inMask⟩ := (mem_startStaged s _ e.1 e.2).mp staged
  have failed : u.branch ∈ ((s.calling ramp policy rs allFault).branches.filter (fun b => b.outcome.isFailed)).map
      HangBranch.branch := by
    obtain ⟨y, listed, named, called⟩ := mem_branches_calling (s := s) (ramp := ramp) (policy := policy) (outcome := allFault) inMask
    exact List.mem_map.mpr ⟨y, List.mem_filter.mpr ⟨listed, by rw [called]; rfl⟩, named⟩
  rw [at_i, Option.bind_some, tile]
  simpa [and_assoc] using failed

theorem layBranches_allFault (columns rows : Nat) (y : Lay) :
    (s.calling ramp policy rs allFault).branches.foldl (layBranch columns rows) y = y := by
  rw [State.calling]
  induction rs with
  | nil => rfl
  | cons r rs ih => exact ih

/-- The hang of an all-FAULT mask, resolved. -/
def State.faultedHang (s : State) (ramp : Nat) (policy : Policy) (rs : List (Nat × Route)) (phase : HangPhase) : HangWork :=
  { s.calling ramp policy rs allFault with phase := phase, staged := [] }

/-- The end of a hang in which every branch failed: its PLACE is posted, or waits for a place (R75). -/
def State.faultedEnd (s : State) (l : Link) (ramp : Nat) (policy : Policy) (rs : List (Nat × Route)) (u : State) : State :=
  let full : Bool := decide (16 ≤ s.changes.length)
  { u.setPort l { u.port l with
      job := some ⟨false, !full, .hang (s.faultedHang ramp policy rs (if full then .posting else .posted))⟩ } with
    changes := s.changes ++ (if full then [] else [.place l ramp [] []])
    postWaiters := s.postWaiters ++ (if full then [l] else []) }

theorem enterPosting_faulted (e : ChainParts) (fresh : l ∉ s.postWaiters) :
    (s.runsHang l (s.faultedHang ramp policy rs .recording) e).enterPosting l =
      { s.faultedEnd l ramp policy rs s with
        wire := e.wire, branches := e.branches, orders := e.orders, spaceWaiters := e.spaceWaiters, idleWaits := e.idleWaits } := by
  have posting : (s.runsHang l (s.faultedHang ramp policy rs .recording) e).setHang l (s.faultedHang ramp policy rs .posting) =
      s.runsHang l (s.faultedHang ramp policy rs .posting) e := setWork_runsHang _
  have changes : (s.runsHang l (s.faultedHang ramp policy rs .posting) e).changes = s.changes := by
    rw [State.runsHang, State.setPort_changes]
  have waiters : (s.runsHang l (s.faultedHang ramp policy rs .posting) e).postWaiters = s.postWaiters := by
    rw [State.runsHang, State.setPort_postWaiters]
  have enters : (s.runsHang l (s.faultedHang ramp policy rs .recording) e).enterPosting l =
      if s.changes.length < 16 then (s.runsHang l (s.faultedHang ramp policy rs .posting) e).post l
      else if s.postWaiters.contains l then s.runsHang l (s.faultedHang ramp policy rs .posting) e
      else { s.runsHang l (s.faultedHang ramp policy rs .posting) e with postWaiters := s.postWaiters ++ [l] } := by
    rw [State.enterPosting, hangOf_runsHang]
    dsimp only
    rw [show (s.runsHang l (s.faultedHang ramp policy rs .recording) e).setHang l
      { s.faultedHang ramp policy rs .recording with phase := .posting } = s.runsHang l (s.faultedHang ramp policy rs .posting) e from
      posting, changes, waiters]
    rfl
  rw [enters, State.faultedEnd]
  by_cases room : s.changes.length < 16
  · have notFull : decide (16 ≤ s.changes.length) = false := decide_eq_false (by omega)
    rw [if_pos room, notFull, State.post, job_runsHang, hangOf_runsHang, changes]
    dsimp only
    simp only [Bool.false_eq_true, if_false, List.append_nil, Bool.not_false]
    cases l <;> rfl
  · have full : decide (16 ≤ s.changes.length) = true := decide_eq_true (by omega)
    have absent : s.postWaiters.contains l = false := by simpa using fresh
    rw [if_neg room, absent, full]
    simp only [Bool.false_eq_true, if_false, if_true, List.append_nil, Bool.not_true]
    cases l <;> rfl

theorem resolve_allFault (e : ChainParts) (fresh : l ∉ s.postWaiters) :
    (s.runsHang l (s.calling ramp policy rs allFault) e).resolve l (s.calling ramp policy rs allFault) =
      { s.faultedEnd l ramp policy rs s with
        wire := e.wire, branches := e.branches, orders := e.orders, spaceWaiters := e.spaceWaiters, idleWaits := e.idleWaits } := by
  rw [← enterPosting_faulted e fresh]
  unfold State.resolve
  have positions : (s.runsHang l (s.calling ramp policy rs allFault) e).positions = s.positions := by
    rw [State.runsHang, State.setPort_positions]
  have unmarked : (s.calling ramp policy rs allFault).branches.map (fun b =>
      if b.outcome = .reported ∧ b.excess = true then { b with over128 := true } else b) =
      (s.calling ramp policy rs allFault).branches := by
    rw [State.calling, List.map_map]
    rfl
  rw [positions, restoreFailed_allFault]
  dsimp only
  rw [layBranches_allFault (s := s) (ramp := ramp) (policy := policy) (rs := rs), unmarked]
  have recorded : (s.runsHang l (s.calling ramp policy rs allFault) e).setHang l (s.faultedHang ramp policy rs .recording) =
      s.runsHang l (s.faultedHang ramp policy rs .recording) e := setWork_runsHang _
  cases policy with
  | record =>
    rw [← recorded]
    rfl
  | default =>
    rw [← recorded]
    rfl

end

end Sys2Proof.Machine
end

section
/-! PROOFS. HANG of branches that are all in FAULT (R48, R70, R75). -/
namespace Sys2Proof.Machine

section
variable {s : State} {l : Link} {ramp : Nat} {policy : Policy} {rs : List (Nat × Route)}

/-- The last outcome of a hang whose every branch failed resolves it. -/
theorem hangOutcome_allFault (outcome : Nat → CallOutcome) (last : Nat) (e : ChainParts)
    (others : ∀ b ∈ rs.map Prod.fst, b ≠ last → outcome b = .failed .branchFault) :
    (s.runsHang l (s.calling ramp policy rs outcome) e).hangOutcome l last
        (fun x => { x with outcome := .failed .branchFault }) =
      (s.runsHang l (s.calling ramp policy rs allFault) e).resolve l (s.calling ramp policy rs allFault) := by
  have failed : (s.calling ramp policy rs outcome).modBranch last (fun x => { x with outcome := .failed .branchFault }) =
      s.calling ramp policy rs allFault := by
    refine Eq.trans (calling_setOutcome last (.failed .branchFault)) (calling_congr fun b masked => ?_)
    by_cases same : b = last
    · exact if_pos same
    · exact (if_neg same).trans (others b masked same)
  have final : (s.calling ramp policy rs allFault).branches.all (fun x => x.outcome.isFinal) = true := by
    simp [State.calling, allFault, CallOutcome.isFinal]
  rw [State.hangOutcome, hangOf_runsHang]
  dsimp only
  rw [failed, State.setHang, setWork_runsHang]
  exact if_pos ⟨rfl, final⟩

/-- With every masked branch in FAULT the hang resolves as the transmitter is kicked. -/
theorem kick_all_fault {mask : List Nat} (owed : s.owed = []) (masked : rs.map Prod.fst = mask) (once : mask.Nodup)
    (some_branch : mask ≠ []) (fresh : l ∉ s.postWaiters) (fault : ∀ b ∈ mask, s.stateOf b = some .fault) :
    (s.runsHang l (s.calling ramp policy rs (s.takenIn [])) (s.takingParts l mask s.idleWaits)).kick =
      { s.faultedEnd l ramp policy rs s with
        wire := none, branches := s.branches, orders := [], spaceWaiters := [], idleWaits := s.idleWaits } := by
  obtain ⟨init, last, split⟩ := (List.eq_nil_or_concat mask).resolve_left some_branch
  rw [List.concat_eq_append] at split
  subst split
  have apart : last ∉ init := fun mem => apart_of_nodup_append once mem (List.mem_singleton_self last)
  have faults (b : Nat) (mem : b ∈ init) : s.stateOf b = some .fault := fault b (List.mem_append_left _ mem)
  obtain ⟨x, at_last, broken⟩ : ∃ x, s.branches[last]? = some x ∧ x.state = .fault :=
    Option.map_eq_some_iff.mp (fault last (List.mem_append_right _ (List.mem_singleton_self last)))
  have no_waits : s.idleWaitsOf l init = [] := by
    rw [State.idleWaitsOf, List.filter_eq_nil_iff.mpr fun b mem => by simp [faults b mem]]
    rfl
  have refuses := kick_refused (s := s) (l := l) (ramp := ramp) (policy := policy) (rs := rs) owed init [last]
    (fun b mem => by simp [faults b mem]) ⟨last, masked ▸ List.mem_append_right _ (List.mem_singleton_self last), .inl apart⟩
  rw [no_waits, List.append_nil] at refuses
  have take := takeOrders_runsHang (s := s) (l := l) (e := s.takingParts l [] s.idleWaits) 8
    (s.calling ramp policy rs (s.takenIn init)) [] ⟨.rollCall, last, .hang l⟩ owed rfl rfl
  have check : (s.runsHang l (s.calling ramp policy rs (s.takenIn init)) (s.takingParts l [] s.idleWaits)).checkOrder
      ⟨.rollCall, last, .hang l⟩ = { s.faultedEnd l ramp policy rs s with
        wire := none, branches := s.branches, orders := [], spaceWaiters := [], idleWaits := s.idleWaits } := by
    have at_last' : (s.runsHang l (s.calling ramp policy rs (s.takenIn init))
      (s.takingParts l [] s.idleWaits)).branches[last]? = some x := at_last
    rw [checkOrder_fault (o := ⟨.rollCall, last, .hang l⟩) at_last' broken]
    refine (hangOutcome_allFault (s.takenIn init) last _ fun b mem other => ?_).trans (resolve_allFault _ fresh)
    rw [masked] at mem
    have before : b ∈ init := (List.mem_append.mp mem).resolve_right fun same => other (List.mem_singleton.mp same)
    rw [State.takenIn, if_neg (not_not_intro before), if_pos (faults b before)]
  rw [refuses]
  refine (show _ = _ from take).trans ((congrArg (takeOrders 8) check).trans ?_)
  exact takeOrders_quiescent _ (.inr rfl)

end

/-! ### What the call's taking leaves as it was -/

@[simp] theorem called_route (s : State) (l : Link) : (s.called l).route = s.route := by cases l <;> rfl

@[simp] theorem called_routePositions (s : State) (l : Link) : (s.called l).routePositions = s.routePositions := by
  cases l <;> rfl

@[simp] theorem called_covered (s : State) (l : Link) (rs : List (Nat × Route)) : (s.called l).covered rs = s.covered rs := by
  rw [State.covered, called_routePositions, State.covered]

@[simp] theorem called_liveConflicts (s : State) (l : Link) (mask : List Nat) (rs : List (Nat × List Nat)) :
    (s.called l).liveConflicts mask rs = s.liveConflicts mask rs := by cases l <;> rfl

@[simp] theorem called_hangConflicts (s : State) (l : Link) (mask : List Nat) (rs : List (Nat × List Nat))
    (other : Option HangWork) : (s.called l).hangConflicts mask rs other = s.hangConflicts mask rs other := by
  cases other with
  | none => rfl
  | some h => rw [State.hangConflicts, called_routePositions, State.hangConflicts]

@[simp] theorem called_hangRefusal (s : State) (l : Link) (mask : List Nat) (rs : List (Nat × List Nat)) :
    (s.called l).hangRefusal l mask rs = s.hangRefusal l mask rs := by
  rw [State.hangRefusal, called_liveConflicts, called_hangConflicts, called_hangOf, State.hangRefusal]

@[simp] theorem called_calling (s : State) (l : Link) : (s.called l).calling = s.calling := by cases l <;> rfl

@[simp] theorem called_takenIn (s : State) (l : Link) : (s.called l).takenIn = s.takenIn := by cases l <;> rfl

end Sys2Proof.Machine
end

section
/-! PROOFS. HANG, declined and accepted (R67 to R70). -/
namespace Sys2Proof.Machine

@[simp] theorem called_offeredParts (s : State) (l : Link) : (s.called l).offeredParts = s.offeredParts := by cases l <;> rfl

@[simp] theorem called_takingParts (s : State) (l : Link) : (s.called l).takingParts = s.takingParts := by cases l <;> rfl

@[simp] theorem called_stateOf (s : State) (l : Link) : (s.called l).stateOf = s.stateOf := by cases l <;> rfl

@[simp] theorem called_idleWaitsOf (s : State) (l : Link) : (s.called l).idleWaitsOf = s.idleWaitsOf := by cases l <;> rfl

/-- A conflict of a hang, by the branches it names (R67). -/
theorem mem_hangRefusal_iff (s : State) (l : Link) (rs : List (Nat × Route)) (mask : List Nat) (c : Nat) :
    c ∈ s.hangRefusal l mask (s.covered rs) ↔
      (∃ a ∈ rs, ∃ b ∈ rs, a.1 ≠ b.1 ∧ (∃ i, i ∈ s.routePositions a.2 ∧ i ∈ s.routePositions b.2) ∧ (c = a.1 ∨ c = b.1)) ∨
      (∃ a ∈ rs, ∃ (i : Nat) (q : Position) (u : TileAt), s.positions[i]? = some q ∧ i ∈ s.routePositions a.2 ∧
        q.hung.tile = some u ∧ u.branch ∉ mask ∧ (c = a.1 ∨ c = u.branch)) ∨
      (∃ h : HangWork, s.hangOf (otherLink l) = some h ∧ ∃ b ∈ h.branches,
        (b.branch ∈ mask ∧ c = b.branch) ∨
        ∃ a ∈ rs, (∃ i, i ∈ s.routePositions a.2 ∧ i ∈ s.routePositions b.route) ∧ (c = a.1 ∨ c = b.branch)) := by
  rw [mem_hangRefusal, mem_maskedConflicts, mem_liveConflicts, mem_hangConflicts]

/-- A HANG that its link's checks let through, of well-formed operands. -/
structure State.JudgesHang (s : State) (l : Link) (f : Frame) (m r p : Word) (rs : List (Nat × Route)) : Prop where
  takes : s.takes l f 0x29 = true
  admits : s.Admits (bothRow 0x0029 true true) l
  operands : f.operands = [m, r, p]
  nonzero : m ≠ 0
  small : m.toNat ≤ 15
  short : r.toNat ≤ 1023
  policy : p.toNat ≤ 1
  masked : rs.map Prod.fst = hangMask m
  routed : ∀ e ∈ rs, s.route e.1 = some e.2

section
variable {s : State} {l : Link} {f : Frame} {m r p : Word} {rs : List (Nat × Route)}

theorem exec_hang_declined {st : Status} {ws : List Word} (takes : s.takes l f 0x29 = true)
    (admits : s.Admits (bothRow 0x0029 true true) l) (operands : f.operands = [m, r, p])
    (own : ownHang l [m, r, p] (s.called l) = .refuse st ws) : exec (.hang l f) s = .next (s.declined l st ws) := by
  rw [exec_hang]
  exact congrArg Host.Outcome.next (takeCall_declines (c := bothRow 0x0029 true true) takes admits (hasLength_of operands)
    (operands ▸ own))

theorem State.JudgesHang.called (judged : s.JudgesHang l f m r p rs) : ∀ e ∈ rs, (s.called l).route e.1 = some e.2 :=
  fun e mem => (congrFun (called_route s l) e.1).trans (judged.routed e mem)

/-- A hang in conflict is declined, with the set of the branches that conflict (R67). -/
theorem exec_hang_conflict (judged : s.JudgesHang l f m r p rs) {c : Nat} (met : c ∈ s.hangRefusal l (hangMask m) (s.covered rs)) :
    exec (.hang l f) s =
      .next (s.declined l .routeConflict [setWord (s.hangRefusal l (hangMask m) (s.covered rs))]) := by
  refine exec_hang_declined judged.takes judged.admits judged.operands ?_
  rw [ownHang_eq judged.nonzero judged.small judged.short judged.policy judged.masked judged.called, called_covered,
    called_hangRefusal]
  cases refusal : s.hangRefusal l (hangMask m) (s.covered rs) with
  | nil =>
    rw [refusal] at met
    cases met
  | cons c cs => rfl

/-- What a hang without conflicts does by itself: the roll calls that fit are queued, and the transmitter is kicked. -/
theorem State.JudgesHang.accepts (judged : s.JudgesHang l f m r p rs)
    (clear : s.hangRefusal l (hangMask m) (s.covered rs) = []) : ownHang l [m, r, p] (s.called l) =
      (let k := min (hangMask m).length (8 - s.orders.length)
       .accept .ok [wordOfNat k] ((s.called l).runsHang l (s.calling r.toNat (hangPolicy p) rs
        (queuedIn ((hangMask m).take k))) (s.offeredParts l (hangMask m) k)).kick) := by
  have accepts := ownHang_accepts (s := s.called l) (l := l) judged.nonzero judged.small judged.short judged.policy
    judged.masked judged.called (by rw [called_covered, called_hangRefusal, clear])
  rwa [State.called_orders, called_calling, called_offeredParts] at accepts

/-- A hang accepted while an order is on the wire: its roll calls wait in the queue. -/
theorem exec_hang_waits (judged : s.JudgesHang l f m r p rs) (clear : s.hangRefusal l (hangMask m) (s.covered rs) = [])
    (busy : s.wire ≠ none) : exec (.hang l f) s =
      (let k := min (hangMask m).length (8 - s.orders.length)
       .next ((s.answered l .ok [wordOfNat k]).runsHang l
        (s.calling r.toNat (hangPolicy p) rs (queuedIn ((hangMask m).take k))) (s.offeredParts l (hangMask m) k))) := by
  refine exec_hang_calling judged.takes judged.admits judged.operands rfl ((judged.accepts clear).trans ?_)
  dsimp only
  rw [kick_quiescent]
  exact .inl busy

/-- A hang accepted with the queue empty and the wire free. -/
theorem State.JudgesHang.accepts_free (judged : s.JudgesHang l f m r p rs)
    (clear : s.hangRefusal l (hangMask m) (s.covered rs) = []) (free : s.wire = none) (empty : s.orders = [])
    (space : s.spaceWaiters = []) : ownHang l [m, r, p] (s.called l) =
      .accept .ok [wordOfNat (hangMask m).length] ((s.called l).runsHang l (s.calling r.toNat (hangPolicy p) rs (s.takenIn []))
        (s.takingParts l (hangMask m) s.idleWaits)).kick := by
  have few := length_hangMask m
  have all : min (hangMask m).length (8 - s.orders.length) = (hangMask m).length := by
    rw [empty, List.length_nil]
    omega
  rw [judged.accepts clear]
  dsimp only
  rw [offeredParts_free free empty space few, all, List.take_length, calling_queued_all judged.masked]

/-- A free transmitter takes the roll calls of the branches that are not IDLE, and sends the first IDLE one's. -/
theorem exec_hang_free (judged : s.JudgesHang l f m r p rs) (clear : s.hangRefusal l (hangMask m) (s.covered rs) = [])
    (free : s.wire = none) (empty : s.orders = []) (space : s.spaceWaiters = []) (busy : List Nat)
    {e : ChainParts} (kicked : ((s.called l).runsHang l (s.calling r.toNat (hangPolicy p) rs (s.takenIn []))
        (s.takingParts l (hangMask m) s.idleWaits)).kick =
      (s.called l).runsHang l (s.calling r.toNat (hangPolicy p) rs (s.takenIn busy)) e) : exec (.hang l f) s =
      .next ((s.answered l .ok [wordOfNat (hangMask m).length]).runsHang l
        (s.calling r.toNat (hangPolicy p) rs (s.takenIn busy)) e) := by
  refine exec_hang_calling judged.takes judged.admits judged.operands rfl ((judged.accepts_free clear free empty space).trans ?_)
  rw [kicked]

end

end Sys2Proof.Machine
end

section
/-! PROOFS. HANG starts its roll calls (O34). -/
namespace Sys2Proof.Machine

section
variable {s : State} {l : Link} {ramp : Nat} {policy : Policy} {rs : List (Nat × Route)}

/-- A kick takes the roll calls of the branches that are not IDLE, up to the first IDLE one's. -/
theorem kick_takes_rollCalls {mask : List Nat} (owed : s.owed = []) (masked : rs.map Prod.fst = mask) (once : mask.Nodup)
    (busy rest : List Nat) (split : mask = busy ++ rest) (refused : ∀ b ∈ busy, s.stateOf b ≠ some .idle ∧ s.stateOf b ≠ none)
    (idle : ∀ b, rest.head? = some b → s.stateOf b = some .idle) (alive : rest = [] → ∃ b ∈ busy, s.stateOf b ≠ some .fault) :
    ∃ e : ChainParts, (s.runsHang l (s.calling ramp policy rs (s.takenIn [])) (s.takingParts l mask s.idleWaits)).kick =
        s.runsHang l (s.calling ramp policy rs (s.takenIn busy)) e ∧
      e.wire = rest.head?.map (fun b => Order.sent ⟨.rollCall, b, .hang l⟩) ∧ e.orders = rollCalls l rest.tail ∧
      e.spaceWaiters = [] ∧ e.branches.length = s.branches.length ∧
      (∀ (b : Nat) (x : Branch), s.branches[b]? = some x →
        e.branches[b]? = some (if rest.head? = some b then { x with state := .calling } else x)) ∧
      e.idleWaits = s.idleWaits ++ s.idleWaitsOf l busy := by
  subst split
  cases rest with
  | nil =>
    obtain ⟨c, mem, works⟩ := alive rfl
    rw [List.append_nil] at masked ⊢
    exact ⟨_, kick_all_refused owed busy refused ⟨c, masked ▸ mem, .inr works⟩, rfl, rfl, rfl, rfl, fun b x at_b => at_b, rfl⟩
  | cons b rest =>
    obtain ⟨x, at_b, isIdle⟩ : ∃ x, s.branches[b]? = some x ∧ x.state = .idle := Option.map_eq_some_iff.mp (idle b rfl)
    have out : b ∉ busy := fun mem => apart_of_nodup_append once mem List.mem_cons_self
    have isMasked : b ∈ rs.map Prod.fst := masked ▸ List.mem_append_right _ List.mem_cons_self
    refine ⟨_, kick_sent owed busy b rest refused isMasked out at_b isIdle, rfl, rfl, rfl, List.length_set, fun c y at_c => ?_, rfl⟩
    rw [State.sentParts, List.head?_cons, List.getElem?_set]
    by_cases same : b = c
    · subst same
      obtain rfl : x = y := Option.some.inj (at_b.symm.trans at_c)
      have inside : b < s.branches.length := (List.getElem?_eq_some_iff.mp at_b).1
      rw [if_pos rfl, if_pos rfl, if_pos inside]
    · rw [if_neg same, if_neg fun eq => same (Option.some.inj eq), at_c]

/-- What is left of the chain when every branch failed is what was there. -/
theorem faultedEnd_parts (u : State) : { s.faultedEnd l ramp policy rs u with
      wire := u.wire, branches := u.branches, orders := u.orders, spaceWaiters := u.spaceWaiters, idleWaits := u.idleWaits } =
    s.faultedEnd l ramp policy rs u := by
  cases l <;> rfl

theorem faultedEnd_reply (u : State) (st : Status) (ws : List Word) :
    (s.faultedEnd l ramp policy rs u).reply l st ws = s.faultedEnd l ramp policy rs (u.reply l st ws) := by
  cases l <;> rfl

theorem called_faultedEnd (u : State) : (s.called l).faultedEnd l ramp policy rs u = s.faultedEnd l ramp policy rs u := by
  cases l <;> rfl

end

section
variable {s : State} {l : Link} {f : Frame} {m r p : Word} {rs : List (Nat × Route)}

/-- A hang accepted whose every branch is in FAULT (R70, R75). -/
theorem exec_hang_faulted (judged : s.JudgesHang l f m r p rs) (clear : s.hangRefusal l (hangMask m) (s.covered rs) = [])
    (free : s.wire = none) (empty : s.orders = []) (owed : s.owed = []) (space : s.spaceWaiters = [])
    (fresh : l ∉ s.postWaiters) (fault : ∀ b ∈ hangMask m, s.stateOf b = some .fault) : exec (.hang l f) s =
      .next (s.faultedEnd l r.toNat (hangPolicy p) rs (s.answered l .ok [wordOfNat (hangMask m).length])) := by
  have some_branch : hangMask m ≠ [] := fun none_masked => judged.nonzero ((hangMask_eq_nil judged.small).mp none_masked)
  have parts := faultedEnd_parts (s := s) (l := l) (ramp := r.toNat) (policy := hangPolicy p) (rs := rs) (s.called l)
  rw [State.called_wire, State.called_orders, State.called_spaceWaiters, free, empty, space] at parts
  have kicked := kick_all_fault (s := s.called l) (l := l) (ramp := r.toNat) (policy := hangPolicy p)
    ((State.called_owed s l).trans owed) judged.masked (nodup_hangMask m) some_branch
    (by rwa [State.called, State.setPort_postWaiters]) (by rwa [called_stateOf])
  rw [called_calling, called_takenIn, called_takingParts, called_faultedEnd, parts, State.called_idleWaits] at kicked
  have own := judged.accepts_free clear free empty space
  rw [kicked] at own
  rw [exec_hang]
  exact congrArg Host.Outcome.next (takeCall_changes (c := bothRow 0x0029 true true) (od := false) (len := hasLength 3)
    (own := ownHang l f.operands) (s.faultedEnd l r.toNat (hangPolicy p) rs) (fun u => faultedEnd_reply u .ok _) judged.takes
    judged.admits (hasLength_of judged.operands) (judged.operands ▸ own))

/-- The hang of a link started, with an outcome for each branch (R66, R68). -/
def State.HangStarted (s : State) (l : Link) (r p : Word) (rs : List (Nat × Route)) (mask : List Nat) (t : State) (queued : Nat)
    (outcome : Nat → CallOutcome) : Prop := ∃ h : HangWork,
  h.ramp = r.toNat ∧ h.policy = (if p = 0 then .record else .default) ∧ h.phase = .calling ∧
  h.branches = rs.map (fun e => ⟨e.1, e.2, outcome e.1, [], false, false⟩) ∧
  (∀ i x, (i, x) ∈ h.staged ↔ x = .empty ∧ ∃ (q : Position) (u : TileAt), s.positions[i]? = some q ∧
    q.hung.tile = some u ∧ u.branch ∈ mask) ∧
  h.seen = [] ∧ h.strangers = [] ∧ h.counts = .zero ∧ h.prov = none ∧
  (let a := s.answered l .ok [wordOfNat queued]
   t = { a.setPort l { a.port l with job := some ⟨false, false, .hang h⟩ } with
    wire := t.wire, branches := t.branches, orders := t.orders, spaceWaiters := t.spaceWaiters, idleWaits := t.idleWaits })

theorem hangStarted_calling {mask : List Nat} (masked : rs.map Prod.fst = mask) (queued : Nat) (outcome : Nat → CallOutcome)
    (e : ChainParts) : s.HangStarted l r p rs mask
      ((s.answered l .ok [wordOfNat queued]).runsHang l (s.calling r.toNat (hangPolicy p) rs outcome) e) queued outcome :=
  ⟨s.calling r.toNat (hangPolicy p) rs outcome, rfl, rfl, rfl, rfl, fun i x => masked ▸ mem_startStaged s (rs.map Prod.fst) i x,
    rfl, rfl, rfl, rfl, rfl⟩

end

/-- Settles O34: each of HANG's checks in turn, then the roll calls taken by the transmitter, by induction on the branches. -/
theorem hangStartsItsRollCalls : Obligations.HangStartsItsRollCalls := by
  intro l f m r p s unlocked takes no_job operands mask
  have admits : s.Admits (bothRow 0x0029 true true) l := by
    rcases unlocked with rfl | ⟨rfl, unlocked⟩
    · exact ⟨rfl, nofun, fun _ => no_job⟩
    · exact admits_locked rfl unlocked no_job
  refine ⟨fun bad => exec_hang_declined takes admits operands (ownHang_badValue ?_), ?_⟩
  · rwa [called_route]
  intro rs nonzero small short policy masked routed covers met
  have judged : s.JudgesHang l f m r p rs := ⟨takes, admits, operands, nonzero, small, short, policy, masked, routed⟩
  have conflict (c : Nat) : c ∈ s.hangRefusal l mask (s.covered rs) ↔ met c := mem_hangRefusal_iff s l rs mask c
  refine ⟨fun ⟨c, mem⟩ => ⟨_, fun b small => ?_, exec_hang_conflict judged ((conflict c).mpr mem)⟩, ?_⟩
  · rw [getLsbD_setWord _ b small, List.contains_iff_mem]
    exact conflict b
  intro clear started call
  have clear : s.hangRefusal l mask (s.covered rs) = [] :=
    List.eq_nil_iff_forall_not_mem.mpr fun c mem => clear c ((conflict c).mp mem)
  refine ⟨?_, ?_, ?_⟩
  · intro busy n patient
    refine ⟨_, exec_hang_waits judged clear busy, hangStarted_calling (s := s) (l := l) (r := r) (p := p) masked n (queuedIn (mask.take n)) (s.offeredParts l mask n), rfl, ?_, rfl, rfl, rfl⟩
    show (if n < mask.length then withWaiter l s.spaceWaiters else s.spaceWaiters) = _
    by_cases waits : n < mask.length
    · have absent : ¬ s.spaceWaiters.contains l = true := fun mem => patient waits (List.contains_iff_mem.mp mem)
      rw [if_pos waits, if_pos waits, withWaiter, if_neg absent]
    · rw [if_neg waits, if_neg waits, List.append_nil]
  · intro free empty owed space busy rest split stateOf refused idle alive
    obtain ⟨e, kicked, wire, orders, waiters, length, branches, waits⟩ := kick_takes_rollCalls (s := s.called l) (l := l)
      (ramp := r.toNat) (policy := hangPolicy p) (rs := rs) ((State.called_owed s l).trans owed) masked (nodup_hangMask m)
      busy rest split (by rwa [called_stateOf]) (by rwa [called_stateOf]) (by rwa [called_stateOf])
    rw [called_calling, called_takenIn, called_takingParts, State.called_idleWaits] at kicked
    rw [State.called_branches] at length branches
    rw [State.called_idleWaits, called_idleWaitsOf] at waits
    exact ⟨_, exec_hang_free judged clear free empty space busy kicked,
      hangStarted_calling (s := s) (l := l) (r := r) (p := p) masked mask.length (s.takenIn busy) e, wire, orders, waiters, length, branches, waits⟩
  · intro free empty owed space fresh fault full
    exact ⟨_, s.faultedHang r.toNat (hangPolicy p) rs (if full then .posting else .posted),
      exec_hang_faulted judged clear free empty owed space fresh fault, rfl, rfl, rfl, rfl⟩

end Sys2Proof.Machine
end

section
/-! PROOFS. A waiting hang is told that its branch is IDLE, or posts (R60, R75). -/
namespace Sys2Proof.Machine

/-! ### The hang a link's job runs -/

/-- `s` with a link's job working on a hang. -/
def State.worksOn (s : State) (l : Link) (j : Job) (h : HangWork) : State :=
  s.setPort l { s.port l with job := some { j with work := .hang h } }

section
variable {s : State} {l : Link} {j : Job} {h k : HangWork} {b : Nat}

theorem job_worksOn (s : State) (l : Link) (j : Job) (h : HangWork) :
    ((s.worksOn l j h).port l).job = some { j with work := .hang h } := by
  cases l <;> rfl

theorem hangOf_worksOn (s : State) (l : Link) (j : Job) (h : HangWork) : (s.worksOn l j h).hangOf l = some h :=
  hangOf_of_job (job_worksOn s l j h) rfl

theorem setHang_worksOn : (s.worksOn l j h).setHang l k = s.worksOn l j k := by
  rw [State.setHang, setWork_eq (job_worksOn s l j h)]
  cases l <;> rfl

theorem setHang_of_job (job : (s.port l).job = some j) : s.setHang l k = s.worksOn l j k := by
  rw [State.setHang, setWork_eq job, State.worksOn]

/-! ### Told IDLE (R60, R69) -/

theorem setOutcome_setOutcome (o o' : CallOutcome) : (h.setOutcome b o).setOutcome b o' = h.setOutcome b o' := by
  rw [HangWork.setOutcome, HangWork.setOutcome, HangWork.setOutcome, HangWork.modBranch, HangWork.modBranch, HangWork.modBranch]
  simp only [List.map_map]
  congr 1
  refine List.map_congr_left fun y _ => ?_
  by_cases same : y.branch = b
  · simp [same]
  · simp [same]

/-- A waiting branch whose outcome is reset is the one to queue. -/
theorem toQueue_setOutcome_some (waits : h.outcomeOf b = some .waitingIdle) (settled : ∀ x ∈ h.branches, x.outcome ≠ .toQueue) :
    (h.setOutcome b .toQueue).toQueue = some b := by
  obtain ⟨y, found, -⟩ := Option.map_eq_some_iff.mp waits
  have named : y.branch = b := by simpa using List.find?_some found
  have due : ∃ z, (h.setOutcome b .toQueue).branches.find? (fun x => decide (x.outcome = .toQueue)) = some z := by
    refine Option.isSome_iff_exists.mp (List.find?_isSome.mpr ⟨{ y with outcome := .toQueue }, ?_, decide_eq_true rfl⟩)
    exact List.mem_map.mpr ⟨y, List.mem_of_find?_eq_some found, if_pos named⟩
  obtain ⟨z, first⟩ := due
  obtain ⟨x, listed, same⟩ := List.mem_map.mp (List.mem_of_find?_eq_some first)
  have isDue : z.outcome = .toQueue := by simpa using List.find?_some first
  have isNamed : z.branch = b := by
    by_cases other : x.branch = b
    · rw [if_pos other] at same
      rw [← same]
      exact other
    · rw [if_neg other] at same
      subst same
      exact absurd isDue (settled x listed)
  rw [HangWork.toQueue, first, Option.map_some, isNamed]

theorem toQueue_queued_none (settled : ∀ x ∈ h.branches, x.outcome ≠ .toQueue) : (h.setOutcome b .queued).toQueue = none :=
  toQueue_setOutcome_none nofun fun y listed _ => settled y listed

theorem toldIdle_queues (job : (s.port l).job = some j) (work : j.work = .hang h) (waits : h.outcomeOf b = some .waitingIdle)
    (settled : ∀ x ∈ h.branches, x.outcome ≠ .toQueue) (room : s.orders.length < 8) :
    s.toldIdle l b = (s.worksOn l j (h.setOutcome b .queued)).pushOrder ⟨.rollCall, b, .hang l⟩ := by
  have due := toQueue_setOutcome_some waits settled
  have places : (s.worksOn l j (h.setOutcome b .toQueue)).orders.length < 8 := by
    rwa [State.worksOn, State.setPort_orders]
  have first : offerRollCalls l 5 (s.worksOn l j (h.setOutcome b .toQueue)) =
      offerRollCalls l 4 ((s.worksOn l j (h.setOutcome b .queued)).pushOrder ⟨.rollCall, b, .hang l⟩) := by
    have has : (s.worksOn l j (h.setOutcome b .toQueue)).hasToQueue l = true := by
      rw [State.hasToQueue, hangOf_worksOn]
      dsimp only
      rw [due]
      rfl
    rw [offerRollCalls, if_pos has, if_pos (show _ < Config.orderPlaces from places),
      queueRollCall_of_hang (hangOf_worksOn s l j _) due, setHang_worksOn, setOutcome_setOutcome]
  have rest : ((s.worksOn l j (h.setOutcome b .queued)).pushOrder ⟨.rollCall, b, .hang l⟩).hasToQueue l = false := by
    have hang : ((s.worksOn l j (h.setOutcome b .queued)).pushOrder ⟨.rollCall, b, .hang l⟩).hangOf l =
      some (h.setOutcome b .queued) := by cases l <;> rfl
    rw [State.hasToQueue, hang]
    dsimp only
    rw [toQueue_queued_none settled]
    rfl
  rw [State.toldIdle, hangOf_of_job job work]
  dsimp only
  rw [if_pos waits, setHang_of_job job, State.offerAll, first, offerRollCalls, rest]
  rfl

theorem exec_waitingHangToldIdle {w : Wire} (job : (s.port l).job = some j) (work : j.work = .hang h) (waiting : (b, l) ∈ s.idleWaits)
    (idle : (s.branch b).state = .idle) (waits : h.outcomeOf b = some .waitingIdle)
    (settled : ∀ x ∈ h.branches, x.outcome ≠ .toQueue) (wire : s.wire = some w) (room : s.orders.length < 8) :
    exec (.waitingHangToldIdle l b) s = .next
      { s.worksOn l j (h.setOutcome b .queued) with
        idleWaits := s.idleWaits.filter (fun e => decide (e ≠ (b, l))), orders := s.orders ++ [⟨.rollCall, b, .hang l⟩] } := by
  have told := toldIdle_queues (s := { s with idleWaits := s.idleWaits.filter (fun e => decide (e ≠ (b, l))) }) (l := l)
    (by cases l <;> exact job) work waits settled room
  refine congrArg Host.Outcome.next ((if_pos ⟨List.contains_iff_mem.mpr waiting, idle⟩).trans ?_)
  rw [told, kick_quiescent]
  · cases l <;> rfl
  · refine .inl ?_
    have same : ((({ s with idleWaits := s.idleWaits.filter (fun e => decide (e ≠ (b, l))) } : State).worksOn l j
      (h.setOutcome b .queued)).pushOrder ⟨.rollCall, b, .hang l⟩).wire = some w := by cases l <;> exact wire
    rw [same]
    nofun

/-! ### PLACE_POST (R75) -/

theorem post_of_job (job : (s.port l).job = some j) (work : j.work = .hang h) : s.post l =
    { s.worksOn l { j with committed := true } { h with phase := .posted } with
      changes := s.changes ++ [.place l h.ramp h.staged h.seen] } := by
  rw [State.post, job, hangOf_of_job job work]
  rfl

theorem exec_placePost (job : (s.port l).job = some j) (work : j.work = .hang h) {rest : List Link}
    (first : s.postWaiters = l :: rest) (room : s.changes.length < 16) : exec (.placePost l) s = .next
      { s.worksOn l { j with committed := true } { h with phase := .posted } with
        postWaiters := rest, changes := s.changes ++ [.place l h.ramp h.staged h.seen] } := by
  have posts := post_of_job (s := { s with postWaiters := rest }) (l := l) (by cases l <;> exact job) work
  have steps : exec (.placePost l) s = .next (State.post { s with postWaiters := rest } l) := by
    refine congrArg Host.Outcome.next ?_
    rw [first]
    exact if_pos ⟨rfl, room⟩
  rw [steps, posts]
  cases l <;> rfl

/-- A hang that passes to POSTING with a place in the Change Queue posts. -/
theorem enterPosting_posts (job : (s.port l).job = some j) (work : j.work = .hang h) (room : s.changes.length < 16) :
    s.enterPosting l = { s.worksOn l { j with committed := true } { h with phase := .posted } with
      changes := s.changes ++ [.place l h.ramp h.staged h.seen] } := by
  have queue : (s.worksOn l j { h with phase := .posting }).changes = s.changes := by rw [State.worksOn, State.setPort_changes]
  rw [State.enterPosting, hangOf_of_job job work]
  dsimp only
  rw [setHang_of_job job, if_pos (by rw [queue]; exact room), post_of_job (job_worksOn s l j _) rfl, queue]
  cases l <;> rfl

/-- A hang that passes to POSTING with the Change Queue full waits for a place. -/
theorem enterPosting_waits (job : (s.port l).job = some j) (work : j.work = .hang h) (full : 16 ≤ s.changes.length) :
    s.enterPosting l = { s.worksOn l j { h with phase := .posting } with
      postWaiters := if s.postWaiters.contains l then s.postWaiters else s.postWaiters ++ [l] } := by
  have queue : (s.worksOn l j { h with phase := .posting }).changes = s.changes := by rw [State.worksOn, State.setPort_changes]
  have waiters : (s.worksOn l j { h with phase := .posting }).postWaiters = s.postWaiters := by
    rw [State.worksOn, State.setPort_postWaiters]
  rw [State.enterPosting, hangOf_of_job job work]
  dsimp only
  rw [setHang_of_job job, if_neg (by rw [queue]; exact Nat.not_lt.mpr full), waiters]
  cases s.postWaiters.contains l
  · rfl
  · cases l <;> rfl

end

end Sys2Proof.Machine
end

section
/-! PROOFS. A hang takes the outcome of its last stranger's write and posts (R17, R74, R75). -/
namespace Sys2Proof.Machine

/-! ### The state of a stranger's tile -/

theorem stayHung_of_unplaced {s : State} {t : TileAt} (unplaced : s.positionOf t.tag = none) : stayHung s.positions t = none := by
  rw [stayHung, show positionIn s.positions t.tag = none from unplaced]

theorem noSpace_of_unplaced {s : State} {t : TileAt} (unplaced : s.positionOf t.tag = none) :
    s.noSpace t = .unrecorded t .noSpace := by
  rw [State.noSpace, stayHung_of_unplaced unplaced]

/-- A tile without a position takes its state from its record (R73). -/
theorem classify_of_unplaced {s : State} {t : TileAt} (unplaced : s.positionOf t.tag = none) : s.classify t =
    match (generalizing := false) s.findEntry t.tag with
    | none => .unrecorded t .noRecord
    | some e => if e.status = .damaged then .unrecorded t .damaged else .placed t := by
  rw [State.classify, stayHung_of_unplaced unplaced]
  dsimp only
  rw [State.condition]
  cases s.findEntry t.tag with
  | none => rfl
  | some e => cases status : e.status <;> simp [status]

theorem settleTag_congr {tag : Nat} {f g : TileAt → Hung} (same : ∀ t : TileAt, t.tag = tag → f t = g t)
    (staged : List (Nat × Hung)) : settleTag tag f staged = settleTag tag g staged := by
  refine List.map_congr_left fun e _ => ?_
  cases e.2 with
  | empty => rfl
  | duplicate t => rfl
  | placed t => exact ite_congr rfl (fun tagged => by rw [same t tagged]) fun _ => rfl
  | unrecorded t c => exact ite_congr rfl (fun tagged => by rw [same t tagged]) fun _ => rfl

/-! ### The outcome taken (R17, R74) -/

/-- The staged map once a provisional write of a tag has ended. -/
def State.stagedAfter (s : State) (e : ProvEnd) (tag : Nat) (staged : List (Nat × Hung)) : List (Nat × Hung) :=
  match e with
  | .done => settleTag tag s.classify staged
  | .poolFull => settleTag tag s.noSpace staged
  | .failed => staged

/-- The provisional records a hang counts for an outcome. -/
def ProvEnd.recorded : ProvEnd → Nat
  | .done => 1
  | .poolFull => 0
  | .failed => 0

/-- A hang that has taken the outcome of its last stranger's write, and posted. -/
def HangWork.postedAfter (h : HangWork) (e : ProvEnd) (staged : List (Nat × Hung)) : HangWork :=
  { h with
    phase := .posted, prov := none, strangers := [], staged := staged
    counts := { h.counts with provisional := h.counts.provisional + e.recorded } }

section
variable {s : State} {l : Link} {j : Job} {h : HangWork} {p : RecWrite}

theorem provEnd_posts (job : (s.port l).job = some j) (work : j.work = .hang h) (prov : h.prov = some p)
    (last : h.strangers.tail = []) (room : s.changes.length < 16) (e : ProvEnd) : s.provEnd l e =
      { s.worksOn l { j with committed := true } (h.postedAfter e (s.stagedAfter e p.tag h.staged)) with
        changes := s.changes ++ [.place l h.ramp (s.stagedAfter e p.tag h.staged) h.seen] } := by
  have queue (k : HangWork) : (s.worksOn l j k).changes = s.changes := by rw [State.worksOn, State.setPort_changes]
  have takes (k : HangWork) : recordStrangers l [] (s.worksOn l j k) =
      { s.worksOn l { j with committed := true } { k with phase := .posted } with
        changes := s.changes ++ [.place l k.ramp k.staged k.seen] } := by
    rw [recordStrangers, enterPosting_posts (job_worksOn s l j k) rfl (by rw [queue]; exact room), queue]
    cases l <;> rfl
  rw [State.provEnd, hangOf_of_job job work]
  dsimp only
  rw [prov]
  dsimp only
  rw [last, setHang_of_job job, takes]
  cases e with
  | done => rfl
  | poolFull => rfl
  | failed => rfl

/-- The write of the hang replaced by one of the same tag, whose outcome is then taken. -/
theorem provEnd_setWrite_posts (job : (s.port l).job = some j) (work : j.work = .hang h) (v : RecWrite)
    (last : h.strangers.tail = []) (room : s.changes.length < 16) (e : ProvEnd) : (s.setWrite l v).provEnd l e =
      { s.worksOn l { j with committed := true } (h.postedAfter e (s.stagedAfter e v.tag h.staged)) with
        changes := s.changes ++ [.place l h.ramp (s.stagedAfter e v.tag h.staged) h.seen] } := by
  have writes : s.setWrite l v = s.worksOn l j { h with prov := some v } := setWrite_of_hang job work v
  have queue : (s.worksOn l j { h with prov := some v }).changes = s.changes := by rw [State.worksOn, State.setPort_changes]
  have staged : (s.worksOn l j { h with prov := some v }).stagedAfter e v.tag h.staged = s.stagedAfter e v.tag h.staged := by
    cases l <;> rfl
  rw [writes, provEnd_posts (h := { h with prov := some v }) (job_worksOn s l j _) rfl rfl last (by rw [queue]; exact room) e, queue, staged]
  cases l <;> rfl

/-- The state once the outcome of a hang's last write has been taken: posted, with this map. -/
structure State.PostedAs (s : State) (l : Link) (j : Job) (h : HangWork) (e : ProvEnd) (staged : List (Nat × Hung)) (t : State) :
    Prop where
  job : (t.port l).job = some { j with committed := true, work := .hang (h.postedAfter e staged) }
  changes : t.changes = s.changes ++ [.place l h.ramp staged h.seen]

/-- A provisional write that ends without its swap, the last of its hang (R8, R14, R17). -/
theorem failWrite_provisional (job : (s.port l).job = some j) (work : j.work = .hang h) (provisional : p.provisional = true)
    (last : h.strangers.tail = []) (room : s.changes.length < 16) (unplaced : s.positionOf p.tag = none) (res : ResultCode) :
    s.PostedAs l j h (if res = .poolFull then .poolFull else .failed)
        (if res = .poolFull then settleTag p.tag (fun u => .unrecorded u .noSpace) h.staged else h.staged)
        (s.failWrite l p res) ∧
      ∀ k, k ∈ (s.failWrite l p res).pool.free ↔ k ∈ s.pool.free ∨ k ∈ p.written ∨ k ∈ p.unwritten := by
  have freed := freeCells_freedFrom s p.claim
  have runs : ((s.freeCells p.claim).port l).job = some j := by
    rw [freed]
    cases l <;> exact job
  have queue : (s.freeCells p.claim).changes = s.changes := by rw [freed]; rfl
  have staged : (s.freeCells p.claim).stagedAfter (if res = .poolFull then .poolFull else .failed) p.tag h.staged =
      if res = .poolFull then settleTag p.tag (fun u => .unrecorded u .noSpace) h.staged else h.staged := by
    by_cases full : res = .poolFull
    · rw [if_pos full, if_pos full]
      refine settleTag_congr (fun t tagged => noSpace_of_unplaced ?_) h.staged
      rw [tagged, freed]
      exact unplaced
    · rw [if_neg full, if_neg full]
      rfl
  have ends : s.failWrite l p res = _ :=
    (if_pos provisional).trans (provEnd_setWrite_posts runs work { p with written := [], unwritten := [] } last
      (by rw [queue]; exact room) (if res = .poolFull then .poolFull else .failed))
  refine ⟨⟨?_, ?_⟩, fun k => ?_⟩
  · rw [ends, ← staged]
    cases l <;> rfl
  · rw [ends, ← staged, ← queue]
  · have pool : (s.failWrite l p res).pool = (s.freeCells p.claim).pool := by
      rw [ends]
      cases l <;> rfl
    rw [pool, (claimReleased_freeCells s p.claim).free, RecWrite.claim, List.mem_append]

/-- A provisional write whose swap has completed, the last of its hang (R15, R17). -/
theorem endWrite_provisional {v : Nat} (job : (s.port l).job = some j) (work : j.work = .hang h) (provisional : p.provisional = true)
    (last : h.strangers.tail = []) (room : s.changes.length < 16) (unplaced : s.positionOf p.tag = none) :
    s.PostedAs l j h .done (settleTag p.tag .placed h.staged) ((s.swapRecord p v).endWrite l p v) := by
  have runs : ((s.swapRecord p v).port l).job = some j := by rw [swapRecord_eq, job_reindexed, job]
  have queue : (s.swapRecord p v).changes = s.changes := by
    rw [swapRecord_eq, reindexed_eq, freeCells_freedFrom]
    rfl
  have found : (s.swapRecord p v).findEntry p.tag = some (p.indexEntry v) := by
    have index : (s.swapRecord p v).pool.index = putEntry (p.indexEntry v) s.pool.index := by
      rw [swapRecord_eq, pool_reindexed, freeCells_freedFrom]
      rfl
    rw [State.findEntry, index]
    exact find_putEntry_same (p.indexEntry v) _
  have still : (s.swapRecord p v).positionOf p.tag = none := by
    have freed : ((s.indexes { s.nv with index := s.nvIndexWith (p.nvEntry v), counter := v + 1 }
        (putEntry (p.indexEntry v) s.pool.index) (v + 1)).freeCells (s.cellsOf p.tag)).positionOf p.tag = none := by
      rw [freeCells_freedFrom]
      exact unplaced
    rw [swapRecord_eq, State.reindexed, State.refreshTag, freed]
    exact freed
  have sound : (p.indexEntry v).status ≠ .damaged := by
    rw [RecWrite.indexEntry, if_pos provisional]
    nofun
  have staged : (s.swapRecord p v).stagedAfter .done p.tag h.staged = settleTag p.tag .placed h.staged := by
    refine settleTag_congr (fun t tagged => ?_) h.staged
    rw [classify_of_unplaced (by rw [tagged]; exact still), tagged, found]
    exact if_neg sound
  have ends : (s.swapRecord p v).endWrite l p v = _ :=
    (if_pos provisional).trans (provEnd_setWrite_posts runs work { p with written := [], unwritten := [], reserved := false } last
      (by rw [queue]; exact room) .done)
  refine ⟨?_, ?_⟩
  · rw [ends, ← staged]
    cases l <;> rfl
  · rw [ends, ← staged, ← queue]

end

end Sys2Proof.Machine
end

section
/-! PROOFS. The events that end the write of a hang's last stranger (R15, R17, R74). -/
namespace Sys2Proof.Machine

section
variable {s u : State} {l : Link} {j : Job} {h : HangWork} {p : RecWrite}

theorem State.PostedAs.of_changes {e : ProvEnd} {staged : List (Nat × Hung)} {t : State} (posted : u.PostedAs l j h e staged t)
    (same : u.changes = s.changes) : s.PostedAs l j h e staged t :=
  ⟨posted.job, by rw [posted.changes, same]⟩

theorem exec_indexSwapComplete_posts (job : (s.port l).job = some j) (work : j.work = .hang h) (prov : h.prov = some p)
    (provisional : p.provisional = true) (last : h.strangers.tail = []) (room : s.changes.length < 16)
    (unplaced : s.positionOf p.tag = none) (current : s.nvPort.current = some ⟨⟨l, .swap⟩, true⟩) (revised : p.revision ≠ none) :
    ∃ t, exec .indexSwapComplete s = .next t ∧ s.PostedAs l j h .done (settleTag p.tag .placed h.staged) t := by
  obtain ⟨v, revision⟩ := Option.ne_none_iff_exists'.mp revised
  have runs : (s.clearCurrent.port l).job = some j := by cases l <;> exact job
  exact ⟨_, exec_indexSwapComplete current (writeOf_of_hang job work prov) revision,
    (endWrite_provisional (s := s.clearCurrent) runs work provisional last room unplaced).of_changes rfl⟩

/-- A hang whose last stranger's write has failed, with the cells of the write free again. -/
def State.GaveUp (s : State) (l : Link) (j : Job) (h : HangWork) (p : RecWrite) (staged : List (Nat × Hung)) (t : State) : Prop :=
  (∃ e : ProvEnd, e.recorded = 0 ∧ s.PostedAs l j h e staged t) ∧
    ∀ k, k ∈ t.pool.free ↔ k ∈ s.pool.free ∨ k ∈ p.written ∨ k ∈ p.unwritten

/-- The write of a hang's last stranger fails in a state that differs from `s` in its NV memory and NV Port. -/
theorem failWrite_gaveUp (job : (u.port l).job = some j) (work : j.work = .hang h) (provisional : p.provisional = true)
    (last : h.strangers.tail = []) (room : u.changes.length < 16) (unplaced : u.positionOf p.tag = none)
    (changes : u.changes = s.changes) (pool : u.pool = s.pool) (res : ResultCode) :
    s.GaveUp l j h p (if res = .poolFull then settleTag p.tag (fun t => .unrecorded t .noSpace) h.staged else h.staged)
      (u.failWrite l p res) := by
  obtain ⟨posted, freed⟩ := failWrite_provisional job work provisional last room unplaced res
  refine ⟨⟨_, ?_, posted.of_changes changes⟩, fun k => by rw [freed, pool]⟩
  by_cases full : res = .poolFull
  · rw [if_pos full]
    rfl
  · rw [if_neg full]
    rfl

variable (job : (s.port l).job = some j) (work : j.work = .hang h) (prov : h.prov = some p)
variable (provisional : p.provisional = true) (last : h.strangers.tail = []) (room : s.changes.length < 16)
variable (unplaced : s.positionOf p.tag = none)
include job work prov provisional last room unplaced

/-- The replacements are spent (R14). -/
theorem exec_retiredWriteComplete_spent {cell : Nat} (current : s.nvPort.current = some ⟨⟨l, .retire cell⟩, true⟩)
    (spent : 3 ≤ p.replacements) : ∃ t, exec .retiredWriteComplete s = .next t ∧ s.GaveUp l j h p h.staged t := by
  have runs : ((s.stored (s.nv.writeChain cell .retired)).port l).job = some j := by cases l <;> exact job
  refine ⟨_, exec_retiredWriteComplete (writeOf_of_hang job work prov) current, ?_⟩
  rw [replaceCell_spent _ spent]
  exact failWrite_gaveUp (s := s) runs work provisional last room unplaced rfl rfl .verifyFailed

/-- No cell is left for a replacement (R14, R74). -/
theorem exec_retiredWriteComplete_full {cell : Nat} (current : s.nvPort.current = some ⟨⟨l, .retire cell⟩, true⟩)
    (left : p.replacements < 3) (full : s.pool.free = []) : ∃ t, exec .retiredWriteComplete s = .next t ∧
      s.GaveUp l j h p (settleTag p.tag (fun u => .unrecorded u .noSpace) h.staged) t := by
  have runs : ((s.stored (s.nv.writeChain cell .retired)).port l).job = some j := by cases l <;> exact job
  refine ⟨_, exec_retiredWriteComplete (writeOf_of_hang job work prov) current, ?_⟩
  rw [replaceCell_full (u := s.stored (s.nv.writeChain cell .retired)) (Nat.not_le.mpr left) full]
  exact failWrite_gaveUp (s := s) runs work provisional last room unplaced rfl rfl .poolFull

/-- The revisions are spent (R8). -/
theorem exec_nvRequestBegin_spent (free : s.nvPort.current = none) (first : s.nvPort.waiting.head? = some ⟨l, .swap⟩)
    (spent : s.pool.counter = 4294967295) : ∃ t, exec .nvRequestBegin s = .next t ∧ s.GaveUp l j h p h.staged t := by
  obtain ⟨rest, oldest⟩ := List.head?_eq_some_iff.mp first
  have runs : (({ s with nvPort := { s.nvPort with waiting := rest } } : State).port l).job = some j := by rw [port_nvPort, job]
  refine ⟨_, exec_begins free oldest (.inl rfl), ?_⟩
  rw [beginRequest_exhausted oldest rfl (writeOf_of_hang job work prov) spent]
  exact failWrite_gaveUp (s := s) runs work provisional last room unplaced rfl rfl .revisionExhausted

end

end Sys2Proof.Machine
end

section
/-! PROOFS. Tables with several entries set. -/
namespace Sys2Proof.Machine

section
variable {α β : Type}

/-- The table with entries set one after another. -/
def setAll (ws m : List (Nat × α)) : List (Nat × α) := ws.foldl (fun d e => mapSet e.1 e.2 d) m

theorem setAll_cons (e : Nat × α) (ws m : List (Nat × α)) : setAll (e :: ws) m = setAll ws (mapSet e.1 e.2 m) := rfl

theorem setAll_snoc (e : Nat × α) (ws m : List (Nat × α)) : setAll (ws ++ [e]) m = mapSet e.1 e.2 (setAll ws m) := by
  rw [setAll, List.foldl_append]
  rfl

theorem rising_setAll (ws m : List (Nat × α)) (sorted : rising (m.map Prod.fst)) : rising ((setAll ws m).map Prod.fst) := by
  induction ws generalizing m with
  | nil => exact sorted
  | cons e ws ih => exact ih _ (rising_mapSet e.1 e.2 m sorted)

theorem mapGet_setAll_other (k : Nat) (ws m : List (Nat × α)) (unset : k ∉ ws.map Prod.fst) :
    mapGet k (setAll ws m) = mapGet k m := by
  induction ws generalizing m with
  | nil => rfl
  | cons e ws ih =>
    rw [List.map_cons, List.mem_cons, not_or] at unset
    rw [setAll_cons, ih _ unset.2, mapGet_mapSet_other _ _ _ _ unset.1]

theorem mapGet_setAll_of_mem {k : Nat} {v : α} {ws : List (Nat × α)} (distinct : (ws.map Prod.fst).Nodup) (m : List (Nat × α))
    (set : (k, v) ∈ ws) : mapGet k (setAll ws m) = some v := by
  induction ws generalizing m with
  | nil => cases set
  | cons e ws ih =>
    obtain ⟨fresh, distinct⟩ := List.nodup_cons.mp distinct
    rw [setAll_cons]
    rcases List.mem_cons.mp set with rfl | later
    · rw [mapGet_setAll_other _ _ _ fresh, mapGet_mapSet_same]
    · exact ih distinct _ later

theorem mem_mapSet {k : Nat} {v : α} {m : List (Nat × α)} {e : Nat × α} (listed : e ∈ mapSet k v m) : e = (k, v) ∨ e ∈ m := by
  induction m with
  | nil => exact .inl (List.mem_singleton.mp listed)
  | cons x m ih =>
    obtain ⟨i, u⟩ := x
    rw [mapSet] at listed
    split at listed
    · exact List.mem_cons.mp listed
    · split at listed
      · exact (List.mem_cons.mp listed).imp_right (List.mem_cons_of_mem _)
      · rcases List.mem_cons.mp listed with rfl | later
        · exact .inr List.mem_cons_self
        · exact (ih later).imp_right (List.mem_cons_of_mem _)

/-- An entry set where nothing counted was. -/
theorem countP_mapSet (p : Nat × α → Bool) (k : Nat) (v : α) (m : List (Nat × α)) (uncounted : ∀ e ∈ m, e.1 = k → p e = false) :
    (mapSet k v m).countP p = m.countP p + [(k, v)].countP p := by
  induction m with
  | nil => simp [mapSet]
  | cons x m ih =>
    obtain ⟨i, u⟩ := x
    rw [mapSet]
    split
    · simp only [List.countP_cons, List.countP_nil]
      omega
    · split
      · next same =>
        have none_there : ¬ p (i, u) = true := by
          rw [uncounted (i, u) List.mem_cons_self same]
          exact Bool.false_ne_true
        simp only [List.countP_cons, List.countP_nil, if_neg none_there]
        omega
      · simp only [List.countP_cons, ih fun e mem => uncounted e (List.mem_cons_of_mem _ mem), List.countP_nil]
        omega

theorem countP_setAll (p : Nat × α → Bool) {ws : List (Nat × α)} (distinct : (ws.map Prod.fst).Nodup) (m : List (Nat × α))
    (uncounted : ∀ e ∈ m, e.1 ∈ ws.map Prod.fst → p e = false) : (setAll ws m).countP p = m.countP p + ws.countP p := by
  induction ws generalizing m with
  | nil => rfl
  | cons e ws ih =>
    obtain ⟨fresh, distinct⟩ := List.nodup_cons.mp distinct
    have later : ∀ x ∈ mapSet e.1 e.2 m, x.1 ∈ ws.map Prod.fst → p x = false := fun x listed again => by
      rcases mem_mapSet listed with rfl | before
      · exact absurd again fresh
      · exact uncounted x before (List.mem_cons_of_mem _ again)
    rw [setAll_cons, ih distinct _ later,
      countP_mapSet p e.1 e.2 m fun x listed same => uncounted x listed (same ▸ List.mem_cons_self)]
    have same : p (e.1, e.2) = p e := rfl
    simp only [List.countP_cons, List.countP_nil, same]
    omega

/-- A table whose every entry is changed under its key. -/
theorem mapGet_map_entry (f : Nat × α → Nat × β) (keeps : ∀ e, (f e).1 = e.1) (k : Nat) (m : List (Nat × α)) :
    mapGet k (m.map f) = (mapGet k m).map (fun v => (f (k, v)).2) := by
  induction m with
  | nil => rfl
  | cons e m ih =>
    obtain ⟨i, v⟩ := e
    have key : (f (i, v)).1 = i := keeps (i, v)
    have head : f (i, v) = (i, (f (i, v)).2) := Prod.ext key rfl
    rw [List.map_cons, head, mapGet, mapGet]
    by_cases same : i = k
    · rw [if_pos same, if_pos same, same]
      rfl
    · rw [if_neg same, if_neg same, ih]

/-- A rising table read in the order of its keys, from a key on. -/
theorem filterMap_eq_range' (g : Nat × α → Option β) (n a : Nat) {m : List (Nat × α)} (sorted : rising (m.map Prod.fst))
    (within : ∀ e ∈ m, a ≤ e.1 ∧ e.1 < a + n) :
    m.filterMap g = (List.range' a n).filterMap (fun k => (mapGet k m).bind (fun v => g (k, v))) := by
  induction n generalizing a m with
  | zero =>
    cases m with
    | nil => rfl
    | cons e m =>
      have := within e List.mem_cons_self
      omega
  | succ n ih =>
    rw [List.range'_succ]
    by_cases first : ∃ v rest, m = (a, v) :: rest
    · obtain ⟨v, rest, rfl⟩ := first
      obtain ⟨above, sorted⟩ := List.pairwise_cons.mp sorted
      have within' : ∀ e ∈ rest, a + 1 ≤ e.1 ∧ e.1 < a + 1 + n := fun e mem => by
        have low := above e.1 (List.mem_map_of_mem mem)
        have high := (within e (List.mem_cons_of_mem _ mem)).2
        dsimp only at low
        omega
      have skip : ∀ k ∈ List.range' (a + 1) n, (mapGet k ((a, v) :: rest)).bind (fun v => g (k, v)) =
          (mapGet k rest).bind (fun v => g (k, v)) := fun k mem => by
        have apart : a ≠ k := by
          have := List.mem_range'_1.mp mem
          omega
        rw [mapGet, if_neg apart]
      have here : (mapGet a ((a, v) :: rest)).bind (fun v => g (a, v)) = g (a, v) := by
        rw [mapGet, if_pos rfl, Option.bind_some]
      rw [List.filterMap_cons, List.filterMap_cons, here, filterMap_congr_of_mem skip, ih (a + 1) sorted within']
    · have above : ∀ e ∈ m, a + 1 ≤ e.1 ∧ e.1 < a + 1 + n := fun e mem => by
        have high := within e mem
        have apart : e.1 ≠ a := by
          rintro rfl
          cases m with
          | nil => cases mem
          | cons x m =>
            have behind := (List.pairwise_cons.mp sorted).1
            rcases List.mem_cons.mp mem with rfl | later
            · exact first ⟨_, _, rfl⟩
            · have rises := behind e.1 (List.mem_map_of_mem later)
              have low := (within x List.mem_cons_self).1
              omega
        omega
      have unlisted : mapGet a m = none := mapGet_eq_none fun e mem same => by
        have := (above e mem).1
        omega
      rw [List.filterMap_cons_none (by rw [unlisted, Option.bind_none]), ih (a + 1) sorted above]

/-- A rising table read in the order of its keys. -/
theorem filterMap_eq_range (g : Nat × α → Option β) (n : Nat) {m : List (Nat × α)} (sorted : rising (m.map Prod.fst))
    (below : ∀ e ∈ m, e.1 < n) : m.filterMap g = (List.range n).filterMap (fun k => (mapGet k m).bind (fun v => g (k, v))) := by
  rw [List.range_eq_range']
  exact filterMap_eq_range' g n 0 sorted fun e mem => ⟨Nat.zero_le _, by rw [Nat.zero_add]; exact below e mem⟩

end

end Sys2Proof.Machine
end

section
/-! PROOFS. Tile lists laid along their routes (R70, R71). -/
namespace Sys2Proof.Machine

/-- A tile found at a position, with its batch code. -/
abbrev FoundTile := Nat × TileAt × Nat

/-! ### The tiles found, in the order of the lists -/

/-- The tile found at place `n` bears the tag of one found before. -/
abbrev AgainIn (fs : List FoundTile) (n : Nat) (u : TileAt) : Prop := ∃ e ∈ fs.take n, e.2.1.tag = u.tag

/-- The tiles found with their places. -/
def numbered (fs : List FoundTile) : List (Nat × FoundTile) := (List.range fs.length).zip fs

/-- The first tile of each tag. -/
def firstsOf (fs : List FoundTile) : List (Nat × FoundTile) := (numbered fs).filter (fun e => decide (¬AgainIn fs e.1 e.2.2.1))

/-- What the tiles found make of their positions. -/
def laidOf (fs : List FoundTile) : List (Nat × Hung) :=
  (numbered fs).map (fun e => (e.2.1, if AgainIn fs e.1 e.2.2.1 then .duplicate e.2.2.1 else .placed e.2.2.1))

theorem numbered_snoc (fs : List FoundTile) (f : FoundTile) : numbered (fs ++ [f]) = numbered fs ++ [(fs.length, f)] := by
  rw [numbered, List.length_append, List.length_singleton, List.range_succ, List.zip_append List.length_range]
  rfl

theorem mem_numbered {fs : List FoundTile} {e : Nat × FoundTile} : e ∈ numbered fs ↔ fs[e.1]? = some e.2 := by
  induction fs using snoc_induction with
  | nil => simp [numbered]
  | snoc fs f ih =>
    rw [numbered_snoc, List.mem_append, ih, List.mem_singleton]
    constructor
    · rintro (before | rfl)
      · rw [List.getElem?_append_left (List.getElem?_eq_some_iff.mp before).1, before]
      · exact List.getElem?_concat_length
    · intro at_e
      by_cases before : e.1 < fs.length
      · exact .inl (by rwa [List.getElem?_append_left before] at at_e)
      · have inside := (List.getElem?_eq_some_iff.mp at_e).1
        rw [List.length_append, List.length_singleton] at inside
        have last : e.1 = fs.length := by omega
        rw [last, List.getElem?_concat_length] at at_e
        exact .inr (Prod.ext last (Option.some.inj at_e).symm)

theorem lt_of_mem_numbered {fs : List FoundTile} {e : Nat × FoundTile} (mem : e ∈ numbered fs) : e.1 < fs.length :=
  (List.getElem?_eq_some_iff.mp (mem_numbered.mp mem)).1

theorem againIn_snoc {fs : List FoundTile} {n : Nat} (before : n ≤ fs.length) (f : FoundTile) (u : TileAt) :
    AgainIn (fs ++ [f]) n u ↔ AgainIn fs n u := by
  rw [AgainIn, List.take_append_of_le_length before]

theorem againIn_length (fs : List FoundTile) (f : FoundTile) (u : TileAt) :
    AgainIn (fs ++ [f]) fs.length u ↔ ∃ e ∈ fs, e.2.1.tag = u.tag := by
  rw [againIn_snoc (Nat.le_refl _), AgainIn, List.take_length]

theorem firstsOf_snoc (fs : List FoundTile) (f : FoundTile) : firstsOf (fs ++ [f]) =
    firstsOf fs ++ (if ∃ e ∈ fs, e.2.1.tag = f.2.1.tag then [] else [(fs.length, f)]) := by
  have before : (numbered fs).filter (fun e => decide (¬AgainIn (fs ++ [f]) e.1 e.2.2.1)) = firstsOf fs :=
    List.filter_congr fun e mem => by rw [decide_eq_decide, againIn_snoc (Nat.le_of_lt (lt_of_mem_numbered mem))]
  rw [firstsOf, numbered_snoc, List.filter_append, before]
  by_cases again : ∃ e ∈ fs, e.2.1.tag = f.2.1.tag
  · rw [if_pos again, List.filter_cons_of_neg (by simpa only [decide_eq_true_eq, Classical.not_not, againIn_length] using again)]
    rfl
  · rw [if_neg again, List.filter_cons_of_pos (by simpa only [decide_eq_true_eq, againIn_length] using again)]
    rfl

theorem laidOf_snoc (fs : List FoundTile) (f : FoundTile) : laidOf (fs ++ [f]) =
    laidOf fs ++ [(f.1, if ∃ e ∈ fs, e.2.1.tag = f.2.1.tag then .duplicate f.2.1 else .placed f.2.1)] := by
  have before : (numbered fs).map (fun e => (e.2.1, if AgainIn (fs ++ [f]) e.1 e.2.2.1 then Hung.duplicate e.2.2.1
      else .placed e.2.2.1)) = laidOf fs :=
    List.map_congr_left fun e mem => by
      rw [ite_congr_iff (againIn_snoc (Nat.le_of_lt (lt_of_mem_numbered mem)) f e.2.2.1) rfl rfl]
  rw [laidOf, numbered_snoc, List.map_append, before, List.map_singleton, ite_congr_iff (againIn_length fs f f.2.1) rfl rfl]

theorem keys_laidOf (fs : List FoundTile) : (laidOf fs).map Prod.fst = fs.map Prod.fst := by
  induction fs using snoc_induction with
  | nil => rfl
  | snoc fs f ih => rw [laidOf_snoc, List.map_append, List.map_append, ih]; rfl

/-- Every tag found has a first tile. -/
theorem exists_mem_firstsOf (fs : List FoundTile) (tag : Nat) :
    (∃ e ∈ firstsOf fs, e.2.2.1.tag = tag) ↔ ∃ e ∈ fs, e.2.1.tag = tag := by
  induction fs using snoc_induction with
  | nil => simp [firstsOf, numbered]
  | snoc fs f ih =>
    simp only [firstsOf_snoc, List.mem_append, or_and_right, exists_or, ih, List.mem_singleton, exists_eq_left]
    by_cases again : ∃ e ∈ fs, e.2.1.tag = f.2.1.tag
    · rw [if_pos again]
      constructor
      · rintro (before | ⟨e, mem, -⟩)
        · exact .inl before
        · cases mem
      · rintro (before | same)
        · exact .inl before
        · exact .inl (same ▸ again)
    · rw [if_neg again]
      simp

/-! ### The lists laid -/

/-- Where its route puts an answer of a branch. -/
def HangBranch.foundAt (columns rows : Nat) (b : HangBranch) (a : RollAnswer) : Option FoundTile :=
  if a.chainIndex < b.route.expected then
    (b.route.position columns rows a.chainIndex).map (fun i => (i, ⟨a.tag, a.orientation, b.branch, a.chainIndex⟩, a.batch))
  else none

/-- The tiles a branch's list puts on the wall. -/
def HangBranch.found (columns rows : Nat) (b : HangBranch) : List FoundTile := b.list.filterMap (b.foundAt columns rows)

/-- The position of a chain index that the list of a branch does not reach. -/
def HangBranch.shortAt (columns rows : Nat) (b : HangBranch) (i : Nat) : Option Nat :=
  if i < b.list.length then none else b.route.position columns rows i

/-- The positions of a route that the list of its branch does not reach. -/
def HangBranch.shorts (columns rows : Nat) (b : HangBranch) : List Nat :=
  (List.range b.route.expected).filterMap (b.shortAt columns rows)

/-- The work in hand once these tiles have been found and these positions left without. -/
structure Lay.Holds (start : List (Nat × Hung)) (fs : List FoundTile) (es : List Nat) (y : Lay) : Prop where
  seen : y.seen = (firstsOf fs).map (fun e => ⟨e.2.2.1.tag, e.2.2.2, e.2.2.1.orientation⟩)
  duplicates : y.duplicates + (firstsOf fs).length = fs.length
  decided : ∃ ws : List (Nat × Hung), y.decided = setAll ws start ∧ ws.Perm (laidOf fs ++ es.map (fun p => (p, .empty)))

theorem filterMap_cons_toList {α β : Type} (f : α → Option β) (a : α) (as : List α) :
    (a :: as).filterMap f = (f a).toList ++ as.filterMap f := by
  rw [List.filterMap_cons]
  cases f a <;> rfl

section
variable {columns rows : Nat} {b : HangBranch} {start : List (Nat × Hung)} {fs : List FoundTile} {es : List Nat} {y : Lay}

theorem Lay.Holds.seen_any (holds : y.Holds start fs es) (tag : Nat) :
    y.seen.any (fun x => x.tag == tag) = true ↔ ∃ e ∈ fs, e.2.1.tag = tag := by
  rw [holds.seen, List.any_map, List.any_eq_true, ← exists_mem_firstsOf]
  simp

theorem Lay.Holds.answer (holds : y.Holds start fs es) (a : RollAnswer) :
    (layAnswer columns rows b y a).Holds start (fs ++ (b.foundAt columns rows a).toList) es := by
  have any := holds.seen_any a.tag
  rw [layAnswer, HangBranch.foundAt]
  by_cases inside : a.chainIndex < b.route.expected
  · rw [if_pos inside, if_pos inside]
    cases place : b.route.position columns rows a.chainIndex with
    | none =>
      rw [Option.map_none, Option.toList_none, List.append_nil]
      exact holds
    | some i =>
      obtain ⟨seen, duplicates, ws, decided, log⟩ := holds
      rw [Option.map_some, Option.toList_some]
      have logged (v : Hung) : (ws ++ [(i, v)]).Perm ((laidOf fs ++ [(i, v)]) ++ es.map (fun p => (p, .empty))) := by
        rw [List.append_assoc]
        exact (log.append_right _).trans (by
          rw [List.append_assoc]
          exact List.perm_append_comm.append_left _)
      have set (v : Hung) : mapSet i v y.decided = setAll (ws ++ [(i, v)]) start := by rw [decided, setAll_snoc]
      dsimp only
      by_cases again : ∃ e ∈ fs, e.2.1.tag = a.tag
      · rw [if_pos (any.mpr again)]
        refine ⟨?_, ?_, _, set _, ?_⟩
        · rw [firstsOf_snoc, if_pos again, List.append_nil]
          exact seen
        · rw [firstsOf_snoc, if_pos again, List.append_nil, List.length_append, List.length_singleton]
          dsimp only
          omega
        · rw [laidOf_snoc, if_pos again]
          exact logged _
      · rw [if_neg (mt any.mp again)]
        refine ⟨?_, ?_, _, set _, ?_⟩
        · rw [firstsOf_snoc, if_neg again, List.map_append, ← seen]
          rfl
        · rw [firstsOf_snoc, if_neg again, List.length_append, List.length_append, List.length_singleton, List.length_singleton]
          dsimp only
          omega
        · rw [laidOf_snoc, if_neg again]
          exact logged _
  · rw [if_neg inside, if_neg inside, Option.toList_none, List.append_nil]
    obtain ⟨seen, duplicates, decided⟩ := holds
    exact ⟨seen, duplicates, decided⟩

theorem Lay.Holds.answers (holds : y.Holds start fs es) (as : List RollAnswer) :
    (as.foldl (layAnswer columns rows b) y).Holds start (fs ++ as.filterMap (b.foundAt columns rows)) es := by
  induction as generalizing y fs with
  | nil =>
    rw [List.filterMap_nil, List.append_nil]
    exact holds
  | cons a as ih =>
    have step := ih (holds.answer (columns := columns) (rows := rows) (b := b) a)
    rwa [List.append_assoc, ← filterMap_cons_toList] at step

theorem Lay.Holds.short (holds : y.Holds start fs es) (i : Nat) :
    (layShort columns rows b y i).Holds start fs (es ++ (b.shortAt columns rows i).toList) := by
  rw [layShort, HangBranch.shortAt]
  by_cases reached : i < b.list.length
  · rw [if_pos reached, if_pos reached, Option.toList_none, List.append_nil]
    exact holds
  · rw [if_neg reached, if_neg reached]
    cases b.route.position columns rows i with
    | none =>
      rw [Option.toList_none, List.append_nil]
      exact holds
    | some p =>
      obtain ⟨seen, duplicates, ws, decided, log⟩ := holds
      refine ⟨seen, duplicates, ws ++ [(p, .empty)], ?_, ?_⟩
      · rw [setAll_snoc, ← decided]
      · rw [Option.toList_some, List.map_append, ← List.append_assoc]
        exact log.append_right _

theorem Lay.Holds.shorts (holds : y.Holds start fs es) (is : List Nat) :
    (is.foldl (layShort columns rows b) y).Holds start fs (es ++ is.filterMap (b.shortAt columns rows)) := by
  induction is generalizing y es with
  | nil =>
    rw [List.filterMap_nil, List.append_nil]
    exact holds
  | cons i is ih =>
    have step := ih (holds.short (columns := columns) (rows := rows) (b := b) i)
    rwa [List.append_assoc, ← filterMap_cons_toList] at step

/-- The branch has reported. -/
def HangBranch.isReported (b : HangBranch) : Bool := decide (b.outcome = .reported)

theorem layBranch_reported (reported : b.isReported = true) : layBranch columns rows y b =
    (List.range b.route.expected).foldl (layShort columns rows b) (b.list.foldl (layAnswer columns rows b) y) := by
  rw [layBranch, of_decide_eq_true reported]

theorem layBranch_unreported (silent : b.isReported = false) : layBranch columns rows y b = y := by
  have other : b.outcome ≠ .reported := of_decide_eq_false silent
  rw [layBranch]
  cases outcome : b.outcome with
  | reported => exact absurd outcome other
  | failed c => rfl
  | toQueue => rfl
  | queued => rfl
  | waitingIdle => rfl

/-- Every reported branch laid. -/
theorem Lay.Holds.branches (holds : y.Holds start fs es) (bs : List HangBranch) :
    (bs.foldl (layBranch columns rows) y).Holds start (fs ++ (bs.filter HangBranch.isReported).flatMap (HangBranch.found columns rows))
      (es ++ (bs.filter HangBranch.isReported).flatMap (HangBranch.shorts columns rows)) := by
  induction bs generalizing y fs es with
  | nil => simpa using holds
  | cons b bs ih =>
    rw [List.foldl_cons]
    by_cases reported : b.isReported = true
    · have step := ih ((holds.answers (columns := columns) (rows := rows) (b := b) b.list).shorts (columns := columns) (rows := rows) (b := b) (List.range b.route.expected))
      rw [layBranch_reported reported, List.filter_cons_of_pos reported, List.flatMap_cons, List.flatMap_cons]
      rwa [List.append_assoc, List.append_assoc] at step
    · rw [layBranch_unreported (Bool.eq_false_iff.mpr reported), List.filter_cons_of_neg reported]
      exact ih holds

end

end Sys2Proof.Machine
end

section
/-! PROOFS. The positions that a hang's lists decide, and the tiles counted (R70 to R72). -/
namespace Sys2Proof.Machine

theorem position_lt {r : Route} {columns rows i p : Nat} (at_i : r.position columns rows i = some p) : p < columns * rows := by
  rw [Route.position] at at_i
  split at at_i
  · next inside =>
    obtain ⟨left, right, top, bottom⟩ := inside
    rw [← Option.some.inj at_i]
    have column : (r.place i).1.toNat + 1 ≤ columns := by omega
    have row : (r.place i).2.toNat + 1 ≤ rows := by omega
    calc (r.place i).2.toNat * columns + (r.place i).1.toNat < ((r.place i).2.toNat + 1) * columns := by
          rw [Nat.add_mul]
          omega
      _ ≤ rows * columns := Nat.mul_le_mul_right _ row
      _ = columns * rows := Nat.mul_comm _ _
  · cases at_i

/-- The list of a branch as its chain answered, and a route inside the grid. -/
structure HangBranch.Sound (columns rows : Nat) (b : HangBranch) : Prop where
  indexed : b.list.map RollAnswer.chainIndex = List.range b.list.length
  inside : b.route.inside columns rows = true

section
variable {columns rows : Nat} {b : HangBranch}

theorem HangBranch.Sound.position (sound : b.Sound columns rows) {i : Nat} (below : i < b.route.expected) :
    ∃ p, b.route.position columns rows i = some p :=
  Option.isSome_iff_exists.mp (List.all_eq_true.mp sound.inside i (List.mem_range.mpr below))

theorem keys_found (sound : b.Sound columns rows) : (b.found columns rows).map Prod.fst =
    (List.range b.list.length).filterMap (fun i => if i < b.route.expected then b.route.position columns rows i else none) := by
  rw [← sound.indexed, List.filterMap_map, HangBranch.found, List.map_filterMap]
  refine filterMap_congr_of_mem fun a _ => ?_
  rw [HangBranch.foundAt, Function.comp]
  by_cases inside : a.chainIndex < b.route.expected
  · rw [if_pos inside, if_pos inside]
    cases b.route.position columns rows a.chainIndex <;> rfl
  · rw [if_neg inside, if_neg inside]
    rfl

/-- A branch's list and the rest of its route cover the route (R70). -/
theorem keys_found_shorts (sound : b.Sound columns rows) :
    (b.found columns rows).map Prod.fst ++ b.shorts columns rows = b.route.positions columns rows := by
  rw [keys_found sound, HangBranch.shorts, Route.positions]
  have reached (n : Nat) (few : n ≤ b.route.expected) : (List.range n).filterMap
      (fun i => if i < b.route.expected then b.route.position columns rows i else none) =
      (List.range n).filterMap (b.route.position columns rows) :=
    filterMap_congr_of_mem fun i mem => if_pos (Nat.lt_of_lt_of_le (List.mem_range.mp mem) few)
  have left (n : Nat) (few : n ≤ b.list.length) : (List.range n).filterMap (b.shortAt columns rows) = [] :=
    List.filterMap_eq_nil_iff.mpr fun i mem => if_pos (Nat.lt_of_lt_of_le (List.mem_range.mp mem) few)
  rcases Nat.le_total b.list.length b.route.expected with short | long
  · obtain ⟨k, more⟩ := Nat.exists_eq_add_of_le short
    have unreached : ((List.range k).map (b.list.length + ·)).filterMap (b.shortAt columns rows) =
        ((List.range k).map (b.list.length + ·)).filterMap (b.route.position columns rows) :=
      filterMap_congr_of_mem fun i mem => by
        obtain ⟨n, -, rfl⟩ := List.mem_map.mp mem
        exact if_neg (by omega)
    rw [reached _ short, more, List.range_add, List.filterMap_append, List.filterMap_append, left _ (Nat.le_refl _),
      unreached, List.nil_append]
  · obtain ⟨k, more⟩ := Nat.exists_eq_add_of_le long
    have extra : ((List.range k).map (b.route.expected + ·)).filterMap
        (fun i => if i < b.route.expected then b.route.position columns rows i else none) = [] :=
      List.filterMap_eq_nil_iff.mpr fun i mem => by
        obtain ⟨n, -, rfl⟩ := List.mem_map.mp mem
        exact if_neg (by omega)
    rw [left _ long, more, List.range_add, List.filterMap_append, extra, reached _ (Nat.le_refl _), List.append_nil,
      List.append_nil]

/-- The lists and the rests of several routes cover them. -/
theorem perm_found_shorts (bs : List HangBranch) (sound : ∀ b ∈ bs, b.Sound columns rows) :
    ((bs.flatMap (HangBranch.found columns rows)).map Prod.fst ++ bs.flatMap (HangBranch.shorts columns rows)).Perm
      (bs.flatMap (fun b => b.route.positions columns rows)) := by
  induction bs with
  | nil => exact List.Perm.refl _
  | cons b bs ih =>
    have rest := ih fun c mem => sound c (List.mem_cons_of_mem _ mem)
    rw [List.flatMap_cons, List.flatMap_cons, List.flatMap_cons, List.map_append, ← keys_found_shorts (sound b List.mem_cons_self)]
    refine List.Perm.trans ?_ (rest.append_left _)
    rw [List.append_assoc, List.append_assoc]
    exact (List.perm_append_comm_assoc _ _ _).append_left _

/-! ### What is counted -/

theorem excess_answers (as : List RollAnswer) (y : Lay) : (as.foldl (layAnswer columns rows b) y).excess =
    y.excess + as.countP (fun a => decide (b.route.expected ≤ a.chainIndex)) := by
  induction as generalizing y with
  | nil => rfl
  | cons a as ih =>
    rw [List.foldl_cons, ih, List.countP_cons]
    by_cases inside : a.chainIndex < b.route.expected
    · have kept : (layAnswer columns rows b y a).excess = y.excess := by
        rw [layAnswer, if_pos inside]
        split
        · rfl
        · split <;> rfl
      rw [kept, if_neg (by simpa using inside), Nat.add_zero]
    · have more : (layAnswer columns rows b y a).excess = y.excess + 1 := by rw [layAnswer, if_neg inside]
      rw [more, if_pos (by simpa using inside)]
      omega

theorem short_answers (as : List RollAnswer) (y : Lay) : (as.foldl (layAnswer columns rows b) y).short = y.short := by
  refine List.foldlRecOn (motive := fun z : Lay => z.short = y.short) as _ rfl fun z same a _ => ?_
  rw [← same, layAnswer]
  split
  · split
    · rfl
    · split <;> rfl
  · rfl

theorem excess_shorts (is : List Nat) (y : Lay) : (is.foldl (layShort columns rows b) y).excess = y.excess := by
  refine List.foldlRecOn (motive := fun z : Lay => z.excess = y.excess) is _ rfl fun z same i _ => ?_
  rw [← same, layShort]
  split
  · rfl
  · split <;> rfl

theorem short_shorts (is : List Nat) (y : Lay) : (is.foldl (layShort columns rows b) y).short =
    y.short + (is.filterMap (b.shortAt columns rows)).length := by
  induction is generalizing y with
  | nil => rfl
  | cons i is ih =>
    rw [List.foldl_cons, ih, filterMap_cons_toList, List.length_append, layShort, HangBranch.shortAt]
    by_cases reached : i < b.list.length
    · rw [if_pos reached, if_pos reached, Option.toList_none, List.length_nil, Nat.zero_add]
    · rw [if_neg reached, if_neg reached]
      cases b.route.position columns rows i with
      | none => rw [Option.toList_none, List.length_nil, Nat.zero_add]
      | some p =>
        rw [Option.toList_some, List.length_singleton]
        exact (Nat.add_assoc _ _ _)

theorem countP_beyond (n k : Nat) : (List.range n).countP (fun i => decide (k ≤ i)) = n - k := by
  induction n with
  | zero => simp
  | succ n ih =>
    rw [List.range_succ, List.countP_append, ih, List.countP_singleton]
    by_cases beyond : k ≤ n
    · rw [if_pos (decide_eq_true beyond)]
      omega
    · rw [if_neg (by simpa using beyond)]
      omega

theorem excess_of_sound (sound : b.Sound columns rows) :
    b.list.countP (fun a => decide (b.route.expected ≤ a.chainIndex)) = b.list.length - b.route.expected := by
  rw [← countP_beyond, ← sound.indexed, List.countP_map]
  rfl

theorem length_shorts (sound : b.Sound columns rows) : (b.shorts columns rows).length = b.route.expected - b.list.length := by
  rw [← countP_beyond, HangBranch.shorts, List.length_filterMap_eq_countP]
  refine List.countP_congr fun i mem => ?_
  rw [HangBranch.shortAt]
  by_cases reached : i < b.list.length
  · rw [if_pos reached]
    simpa using reached
  · obtain ⟨p, at_i⟩ := sound.position (List.mem_range.mp mem)
    rw [if_neg reached, at_i]
    simpa using reached

/-- A reported branch adds its answers beyond the route, and the rest of its route, to the counts. -/
theorem excess_layBranch (sound : b.Sound columns rows) (y : Lay) : (layBranch columns rows y b).excess =
    y.excess + (if b.isReported then b.list.length - b.route.expected else 0) := by
  by_cases reported : b.isReported = true
  · rw [layBranch_reported reported, excess_shorts, excess_answers, excess_of_sound sound, if_pos reported]
  · rw [layBranch_unreported (Bool.eq_false_iff.mpr reported), if_neg reported, Nat.add_zero]

theorem short_layBranch (sound : b.Sound columns rows) (y : Lay) : (layBranch columns rows y b).short =
    y.short + (if b.isReported then b.route.expected - b.list.length else 0) := by
  by_cases reported : b.isReported = true
  · rw [layBranch_reported reported, short_shorts, short_answers, if_pos reported]
    exact congrArg (y.short + ·) (length_shorts sound)
  · rw [layBranch_unreported (Bool.eq_false_iff.mpr reported), if_neg reported, Nat.add_zero]

theorem sum_filter_map (p : HangBranch → Bool) (f : HangBranch → Nat) (b : HangBranch) (bs : List HangBranch) :
    (((b :: bs).filter p).map f).sum = (if p b then f b else 0) + ((bs.filter p).map f).sum := by
  cases h : p b <;> simp [h]

theorem excess_layBranches (bs : List HangBranch) (sound : ∀ b ∈ bs, b.Sound columns rows) (y : Lay) :
    (bs.foldl (layBranch columns rows) y).excess =
      y.excess + ((bs.filter HangBranch.isReported).map (fun b => b.list.length - b.route.expected)).sum := by
  induction bs generalizing y with
  | nil => rfl
  | cons b bs ih =>
    rw [List.foldl_cons, ih fun c mem => sound c (List.mem_cons_of_mem _ mem), excess_layBranch (sound b List.mem_cons_self),
      sum_filter_map, Nat.add_assoc]

theorem short_layBranches (bs : List HangBranch) (sound : ∀ b ∈ bs, b.Sound columns rows) (y : Lay) :
    (bs.foldl (layBranch columns rows) y).short =
      y.short + ((bs.filter HangBranch.isReported).map (fun b => b.route.expected - b.list.length)).sum := by
  induction bs generalizing y with
  | nil => rfl
  | cons b bs ih =>
    rw [List.foldl_cons, ih fun c mem => sound c (List.mem_cons_of_mem _ mem), short_layBranch (sound b List.mem_cons_self),
      sum_filter_map, Nat.add_assoc]

end

end Sys2Proof.Machine
end

section
/-! PROOFS. The map that a hang's lists decide (R70 to R73). -/
namespace Sys2Proof.Machine

theorem mem_setAll {α : Type} {ws m : List (Nat × α)} {e : Nat × α} (listed : e ∈ setAll ws m) : e ∈ ws ∨ e ∈ m := by
  induction ws generalizing m with
  | nil => exact .inr listed
  | cons x ws ih =>
    rcases ih listed with later | set
    · exact .inl (List.mem_cons_of_mem _ later)
    · refine (mem_mapSet set).imp_left ?_
      rintro rfl
      exact List.mem_cons_self

theorem mem_laidOf {fs : List FoundTile} {p : Nat} {v : Hung} : (p, v) ∈ laidOf fs ↔ ∃ e ∈ numbered fs, e.2.1 = p ∧
    v = if AgainIn fs e.1 e.2.2.1 then .duplicate e.2.2.1 else .placed e.2.2.1 := by
  rw [laidOf, List.mem_map]
  simp only [Prod.mk.injEq, eq_comm (a := v)]

theorem placed_mem_laidOf {fs : List FoundTile} {p : Nat} {u : TileAt} : (p, .placed u) ∈ laidOf fs ↔
    ∃ e ∈ firstsOf fs, e.2.1 = p ∧ e.2.2.1 = u := by
  rw [mem_laidOf]
  constructor
  · rintro ⟨e, mem, key, value⟩
    by_cases again : AgainIn fs e.1 e.2.2.1
    · rw [if_pos again] at value
      cases value
    · rw [if_neg again] at value
      exact ⟨e, List.mem_filter.mpr ⟨mem, decide_eq_true again⟩, key, (Hung.placed.inj value).symm⟩
  · rintro ⟨e, mem, key, rfl⟩
    obtain ⟨mem, first⟩ := List.mem_filter.mp mem
    exact ⟨e, mem, key, (if_neg (of_decide_eq_true first)).symm⟩

/-- Only first tiles are counted. -/
theorem countP_laidOf (p : Nat × Hung → Bool) (fs : List FoundTile) (others : ∀ i u, p (i, .duplicate u) = false) :
    (laidOf fs).countP p = (firstsOf fs).countP (fun e => p (e.2.1, .placed e.2.2.1)) := by
  rw [laidOf, List.countP_map, firstsOf, List.countP_filter]
  refine List.countP_congr fun e _ => ?_
  rw [Function.comp]
  by_cases again : AgainIn fs e.1 e.2.2.1
  · rw [if_pos again, others]
    simp [again]
  · rw [if_neg again]
    simp [again]

/-- What the tiles of reported branches are laid on: sound lists along routes that do not meet, and an empty map. -/
structure LaysOut (columns rows : Nat) (bs : List HangBranch) (start : List (Nat × Hung)) : Prop where
  sound : ∀ b ∈ bs, b.Sound columns rows
  apart : (bs.flatMap (fun b => b.route.positions columns rows)).Nodup
  sorted : rising (start.map Prod.fst)
  empty : ∀ e ∈ start, e.2 = .empty

/-- The tiles that the reported branches found. -/
def foundBy (columns rows : Nat) (bs : List HangBranch) : List FoundTile :=
  (bs.filter HangBranch.isReported).flatMap (HangBranch.found columns rows)

/-- The positions that the reported branches' lists do not reach. -/
def shortBy (columns rows : Nat) (bs : List HangBranch) : List Nat :=
  (bs.filter HangBranch.isReported).flatMap (HangBranch.shorts columns rows)

/-- The branches laid on a map. -/
def layAll (columns rows : Nat) (bs : List HangBranch) (start : List (Nat × Hung)) : Lay :=
  bs.foldl (layBranch columns rows) { decided := start, seen := [], duplicates := 0, excess := 0, short := 0 }

section
variable {columns rows : Nat} {bs : List HangBranch} {start : List (Nat × Hung)}

theorem layAll_holds : (layAll columns rows bs start).Holds start (foundBy columns rows bs) (shortBy columns rows bs) := by
  have begins : ({ decided := start, seen := [], duplicates := 0, excess := 0, short := 0 } : Lay).Holds start [] [] :=
    ⟨rfl, rfl, [], rfl, List.Perm.refl _⟩
  exact begins.branches bs

/-- The log of the entries set: one for each position of the reported branches. -/
theorem LaysOut.log (lays : LaysOut columns rows bs start) : ∃ ws : List (Nat × Hung),
    (layAll columns rows bs start).decided = setAll ws start ∧
    (∀ e, e ∈ ws ↔ e ∈ laidOf (foundBy columns rows bs) ∨ ∃ p ∈ shortBy columns rows bs, e = (p, .empty)) ∧
    (∀ q : Nat × Hung → Bool, (∀ i, q (i, .empty) = false) → ws.countP q = (laidOf (foundBy columns rows bs)).countP q) ∧
    (ws.map Prod.fst).Nodup ∧
    ∀ p, p ∈ ws.map Prod.fst ↔ ∃ b ∈ bs.filter HangBranch.isReported, p ∈ b.route.positions columns rows := by
  obtain ⟨-, -, ws, decided, log⟩ := layAll_holds (columns := columns) (rows := rows) (bs := bs) (start := start)
  have keys : (ws.map Prod.fst).Perm
      ((bs.filter HangBranch.isReported).flatMap (fun b => b.route.positions columns rows)) := by
    refine (log.map Prod.fst).trans ?_
    rw [List.map_append, keys_laidOf, List.map_map]
    refine List.Perm.trans (List.Perm.of_eq ?_) (perm_found_shorts (bs.filter HangBranch.isReported)
      fun b mem => lays.sound b (mem_of_mem_filter mem))
    exact congrArg (_ ++ ·) (List.map_id _)
  refine ⟨ws, decided, fun e => ?_, fun q silent => ?_, ?_, fun p => ?_⟩
  · rw [log.mem_iff, List.mem_append, List.mem_map]
    simp only [eq_comm (a := e)]
  · rw [log.countP_eq, List.countP_append, List.countP_map]
    exact congrArg (_ + ·) (List.countP_eq_zero.mpr fun p _ => by simp [silent])
  · refine keys.nodup_iff.mpr (List.Nodup.sublist ?_ lays.apart)
    exact sublist_flatMap _ List.filter_sublist
  · rw [keys.mem_iff, List.mem_flatMap]

theorem LaysOut.mapGet_laid (lays : LaysOut columns rows bs start) {p : Nat} {v : Hung}
    (laid : (p, v) ∈ laidOf (foundBy columns rows bs)) : mapGet p (layAll columns rows bs start).decided = some v := by
  obtain ⟨ws, decided, mem, -, distinct, -⟩ := lays.log
  rw [decided]
  exact mapGet_setAll_of_mem distinct start ((mem _).mpr (.inl laid))

theorem LaysOut.mapGet_short (lays : LaysOut columns rows bs start) {p : Nat} (short : p ∈ shortBy columns rows bs) :
    mapGet p (layAll columns rows bs start).decided = some .empty := by
  obtain ⟨ws, decided, mem, -, distinct, -⟩ := lays.log
  rw [decided]
  exact mapGet_setAll_of_mem distinct start ((mem _).mpr (.inr ⟨p, short, rfl⟩))

theorem LaysOut.mapGet_off (lays : LaysOut columns rows bs start) {p : Nat}
    (off : ∀ b ∈ bs.filter HangBranch.isReported, p ∉ b.route.positions columns rows) :
    mapGet p (layAll columns rows bs start).decided = mapGet p start := by
  obtain ⟨ws, decided, -, -, -, keys⟩ := lays.log
  rw [decided]
  exact mapGet_setAll_other p ws start fun set => by
    obtain ⟨b, reported, covers⟩ := (keys p).mp set
    exact off b reported covers

theorem LaysOut.countP_decided (lays : LaysOut columns rows bs start) (q : Nat × Hung → Bool)
    (silent : ∀ i, q (i, .empty) = false) (others : ∀ i u, q (i, .duplicate u) = false) :
    (layAll columns rows bs start).decided.countP q =
      (firstsOf (foundBy columns rows bs)).countP (fun e => q (e.2.1, .placed e.2.2.1)) := by
  obtain ⟨ws, decided, -, counted, distinct, -⟩ := lays.log
  have uncounted : ∀ e ∈ start, q e = false := fun e listed => by
    have entry : e = (e.1, .empty) := Prod.ext rfl (lays.empty e listed)
    rw [entry]
    exact silent e.1
  have none_counted : start.countP q = 0 := List.countP_eq_zero.mpr fun e listed => by
    rw [uncounted e listed]
    exact Bool.false_ne_true
  rw [decided, countP_setAll q distinct start fun e listed _ => uncounted e listed, none_counted, counted q silent, Nat.zero_add,
    countP_laidOf q _ others]

/-- An entry of the decided map is EMPTY or a tile's. -/
theorem LaysOut.of_mem_decided (lays : LaysOut columns rows bs start) {e : Nat × Hung}
    (listed : e ∈ (layAll columns rows bs start).decided) : e.2 = .empty ∨ e ∈ laidOf (foundBy columns rows bs) := by
  obtain ⟨ws, decided, mem, -⟩ := lays.log
  rw [decided] at listed
  rcases mem_setAll listed with set | kept
  · rcases (mem e).mp set with laid | ⟨p, -, rfl⟩
    · exact .inr laid
    · exact .inl rfl
  · exact .inl (lays.empty e kept)

theorem lt_of_mem_foundBy {e : FoundTile} (mem : e ∈ foundBy columns rows bs) : e.1 < columns * rows := by
  obtain ⟨b, -, found⟩ := List.mem_flatMap.mp mem
  obtain ⟨a, -, at_a⟩ := List.mem_filterMap.mp found
  rw [HangBranch.foundAt] at at_a
  split at at_a
  · obtain ⟨p, place, rfl⟩ := Option.map_eq_some_iff.mp at_a
    exact position_lt place
  · cases at_a

theorem lt_of_mem_laidOf {e : Nat × Hung} (mem : e ∈ laidOf (foundBy columns rows bs)) : e.1 < columns * rows := by
  have key := List.mem_map_of_mem (f := Prod.fst) mem
  rw [keys_laidOf] at key
  obtain ⟨f, found, same⟩ := List.mem_map.mp key
  rw [← same]
  exact lt_of_mem_foundBy found

section
variable {β : Type} (lays : LaysOut columns rows bs start) (g : Nat × Hung → Option β)
variable (silent : ∀ i, g (i, .empty) = none) (others : ∀ i u, g (i, .duplicate u) = none) (q : TileAt → Bool) (f : TileAt → β)
variable (placed : ∀ i u, g (i, .placed u) = if q u then some (f u) else none)
include lays silent others placed

/-- A reading of the first tiles, at one position. -/
theorem LaysOut.bind_decided (p : Nat) : (mapGet p (layAll columns rows bs start).decided).bind (fun v => g (p, v)) =
    (((firstsOf (foundBy columns rows bs)).filter (fun e => q e.2.2.1)).find? (fun e => decide (e.2.1 = p))).map
      (fun e => f e.2.2.1) := by
  cases first : ((firstsOf (foundBy columns rows bs)).filter (fun e => q e.2.2.1)).find? (fun e => decide (e.2.1 = p)) with
  | some e =>
    have key : e.2.1 = p := of_decide_eq_true (List.find?_some (p := fun e : Nat × FoundTile => decide (e.2.1 = p)) first)
    obtain ⟨mem, passes⟩ := List.mem_filter.mp (List.mem_of_find?_eq_some first)
    rw [lays.mapGet_laid (placed_mem_laidOf.mpr ⟨e, mem, key, rfl⟩), Option.bind_some, placed, if_pos passes]
    rfl
  | none =>
    cases listed : mapGet p (layAll columns rows bs start).decided with
    | none => rfl
    | some v =>
      rw [Option.bind_some, Option.map_none]
      rcases lays.of_mem_decided (mem_of_mapGet listed) with empty | laid
      · rw [show v = .empty from empty, silent]
      · cases v with
        | empty => exact silent p
        | duplicate u => exact others p u
        | unrecorded u c =>
          obtain ⟨e, -, -, value⟩ := mem_laidOf.mp laid
          split at value
          · cases value
          · cases value
        | placed u =>
          obtain ⟨e, mem, key, rfl⟩ := placed_mem_laidOf.mp laid
          rw [placed, if_neg]
          intro passes
          have absent := List.find?_eq_none.mp first e (List.mem_filter.mpr ⟨mem, passes⟩)
          exact absent (decide_eq_true key)

/-- What a reading of the first tiles finds, in the order of their positions. -/
theorem LaysOut.filterMap_decided : (layAll columns rows bs start).decided.filterMap g =
    (List.range (columns * rows)).filterMap (fun p =>
      (((firstsOf (foundBy columns rows bs)).filter (fun e => q e.2.2.1)).find? (fun e => decide (e.2.1 = p))).map
        (fun e => f e.2.2.1)) := by
  obtain ⟨ws, decided, -⟩ := lays.log
  have sorted : rising (((layAll columns rows bs start).decided.filter (fun e => decide (e.1 < columns * rows))).map Prod.fst) :=
    rising_filter_keys _ _ (decided ▸ rising_setAll ws start lays.sorted)
  have inside : (layAll columns rows bs start).decided.filterMap g =
      ((layAll columns rows bs start).decided.filter (fun e => decide (e.1 < columns * rows))).filterMap g := by
    rw [List.filterMap_filter]
    refine filterMap_congr_of_mem fun e mem => ?_
    rcases lays.of_mem_decided mem with empty | laid
    · rw [show e = (e.1, .empty) from Prod.ext rfl empty, silent, ite_self]
    · rw [if_pos (decide_eq_true (lt_of_mem_laidOf laid))]
  rw [inside, filterMap_eq_range g (columns * rows) sorted fun e mem => of_decide_eq_true (List.mem_filter.mp mem).2]
  refine filterMap_congr_of_mem fun p mem => ?_
  rw [mapGet_filter_key (fun k => decide (k < columns * rows)), if_pos (decide_eq_true (List.mem_range.mp mem))]
  exact lays.bind_decided g silent others q f placed p

end

end

end Sys2Proof.Machine
end

section
/-! PROOFS. The strangers of a hang handled from the front (R74). -/
namespace Sys2Proof.Machine

/-! ### The staged map once strangers have found no space -/

theorem stayHung_occupant {live : List Position} {t : TileAt} {v : Hung} (stays : stayHung live t = some v) :
    v.occupant = some t := by
  rw [stayHung] at stays
  split at stays
  · cases stays
  · split at stays
    · cases stays
      rfl
    · cases stays
      rfl
    · cases stays
    · cases stays
    · cases stays

theorem noSpace_occupant (s : State) (t : TileAt) : (s.noSpace t).occupant = some t := by
  rw [State.noSpace]
  split
  · next stays => exact stayHung_occupant stays
  · rfl

/-- A staged state once these strangers have found no space. -/
def State.settle (s : State) (tags : List Nat) (v : Hung) : Hung :=
  match v.occupant with
  | none => v
  | some t => if t.tag ∈ tags then s.noSpace t else v

/-- The staged map once these strangers have found no space. -/
def State.settleAll (s : State) (tags : List Nat) (staged : List (Nat × Hung)) : List (Nat × Hung) :=
  staged.map (fun e => (e.1, s.settle tags e.2))

section
variable (s : State)

theorem settle_of_occupant {v : Hung} {t : TileAt} (occupied : v.occupant = some t) (tags : List Nat) :
    s.settle tags v = if t.tag ∈ tags then s.noSpace t else v := by
  rw [State.settle, occupied]

theorem settle_of_vacant {v : Hung} (vacant : v.occupant = none) (tags : List Nat) : s.settle tags v = v := by
  rw [State.settle, vacant]

theorem settleAll_nil (staged : List (Nat × Hung)) : s.settleAll [] staged = staged := by
  have same : ∀ e ∈ staged, (e.1, s.settle [] e.2) = id e := fun e _ => by
    cases vacant : e.2.occupant with
    | none => rw [settle_of_vacant s vacant]; rfl
    | some t => rw [settle_of_occupant s vacant, if_neg List.not_mem_nil]; rfl
  rw [State.settleAll, List.map_congr_left same, List.map_id]

theorem settleAll_cons (tag : Nat) (tags : List Nat) (staged : List (Nat × Hung)) :
    s.settleAll tags (settleTag tag s.noSpace staged) = s.settleAll (tag :: tags) staged := by
  rw [State.settleAll, settleTag, List.map_map, State.settleAll]
  refine List.map_congr_left fun e _ => ?_
  have occupied (v : Hung) (t : TileAt) (tile : v.occupant = some t) :
      s.settle tags (if t.tag = tag then s.noSpace t else v) = s.settle (tag :: tags) v := by
    rw [settle_of_occupant s tile]
    by_cases same : t.tag = tag
    · rw [if_pos same, if_pos (same ▸ List.mem_cons_self), settle_of_occupant s (noSpace_occupant s t), ite_self]
    · have later : t.tag ∈ tag :: tags ↔ t.tag ∈ tags := by rw [List.mem_cons, or_iff_right same]
      rw [if_neg same, settle_of_occupant s tile, ite_congr_iff later rfl rfl]
  obtain ⟨i, v⟩ := e
  cases v with
  | empty => rfl
  | duplicate t => rfl
  | placed t =>
    rw [← occupied (.placed t) t rfl, Function.comp]
    dsimp only
    split <;> rfl
  | unrecorded t c =>
    rw [← occupied (.unrecorded t c) t rfl, Function.comp]
    dsimp only
    split <;> rfl

theorem mapGet_settleAll (tags : List Nat) (p : Nat) (staged : List (Nat × Hung)) :
    mapGet p (s.settleAll tags staged) = (mapGet p staged).map (s.settle tags) :=
  mapGet_map_entry (fun e => (e.1, s.settle tags e.2)) (fun _ => rfl) p staged

end

/-! ### The strangers handled -/

theorem worksOn_noSpace (u : State) (l : Link) (j : Job) (h : HangWork) : (u.worksOn l j h).noSpace = u.noSpace := by
  cases l <;> rfl

theorem worksOn_findEntry (u : State) (l : Link) (j : Job) (h : HangWork) : (u.worksOn l j h).findEntry = u.findEntry := by
  cases l <;> rfl

/-- A hang with some of its strangers handled, those of `done` without finding space. -/
def State.handled (u : State) (h : HangWork) (rest done : List Nat) : HangWork :=
  { h with strangers := rest, staged := u.settleAll done h.staged }

/-- RECORDING has ended with POSTING, or has stopped at a stranger whose record is to be written. -/
def State.StopsIn (u : State) (l : Link) (j : Job) (h : HangWork) (tags : List Nat) (t : State) : Prop :=
  ∃ rest done : List Nat, rest <:+ tags ∧ (∀ tag ∈ done, tag ∈ tags) ∧ (rest = tags → done = []) ∧
    ((rest = [] ∧ t = (u.worksOn l j (u.handled h rest done)).enterPosting l) ∨
      ∃ tag more c, rest = tag :: more ∧
        t = (u.worksOn l j (u.handled h rest done)).beginProvisional l (u.handled h rest done) tag c)

section
variable {u t : State} {l : Link} {j : Job} {h : HangWork} {tag : Nat} {tags : List Nat}

theorem ne_cons_of_suffix {rest : List Nat} (left : rest <:+ tags) : rest ≠ tag :: tags := fun same => by
  have short := left.length_le
  rw [same, List.length_cons] at short
  omega

/-- A stranger passed over. -/
theorem State.StopsIn.cons_passed (stops : u.StopsIn l j { h with strangers := tags } tags t) : u.StopsIn l j h (tag :: tags) t := by
  obtain ⟨rest, done, left, among, -, ends⟩ := stops
  exact ⟨rest, done, left.trans (List.suffix_cons tag tags), fun x mem => List.mem_cons_of_mem _ (among x mem),
    fun same => absurd same (ne_cons_of_suffix left), ends⟩

/-- A stranger that finds no space. -/
theorem State.StopsIn.cons_settled (stops : u.StopsIn l j
    { h with strangers := tags, staged := settleTag tag u.noSpace h.staged } tags t) : u.StopsIn l j h (tag :: tags) t := by
  obtain ⟨rest, done, left, among, -, ends⟩ := stops
  have handled : u.handled { h with strangers := tags, staged := settleTag tag u.noSpace h.staged } rest done =
      u.handled h rest (tag :: done) := congrArg (fun sg => ({ h with strangers := rest, staged := sg } : HangWork))
    (settleAll_cons u tag done h.staged)
  rw [handled] at ends
  refine ⟨rest, tag :: done, left.trans (List.suffix_cons tag tags), fun x mem => ?_,
    fun same => absurd same (ne_cons_of_suffix left), ends⟩
  rcases List.mem_cons.mp mem with rfl | later
  · exact List.mem_cons_self
  · exact List.mem_cons_of_mem _ (among x later)

/-- A stranger without an entry, at the front (R74). -/
theorem recordStrangers_front (unknown : u.findEntry tag = none) : recordStrangers l (tag :: tags) (u.worksOn l j h) =
    if (u.worksOn l j h).isLocked tag then recordStrangers l tags (u.worksOn l j { h with strangers := tags })
    else if 512 ≤ u.pool.index.length + (u.worksOn l j h).reservations then
      recordStrangers l tags (u.worksOn l j { h with strangers := tags, staged := settleTag tag u.noSpace h.staged })
    else match (generalizing := false) u.pool.free with
      | [] => recordStrangers l tags (u.worksOn l j { h with strangers := tags, staged := settleTag tag u.noSpace h.staged })
      | c :: _ => (u.worksOn l j h).beginProvisional l h tag c := by
  have absent : (u.worksOn l j h).findEntry tag = none := by rw [worksOn_findEntry, unknown]
  have pool : (u.worksOn l j h).pool = u.pool := State.setPort_pool u l _
  rw [recordStrangers, hangOf_worksOn]
  dsimp only
  rw [absent]
  dsimp only
  rw [setHang_worksOn, setHang_worksOn, worksOn_noSpace, pool]
  rfl

/-- RECORDING runs through the strangers (R74). -/
theorem recordStrangers_stops (tags : List Nat) (h : HangWork) (front : h.strangers = tags)
    (unknown : ∀ tag ∈ tags, u.findEntry tag = none) : u.StopsIn l j h tags (recordStrangers l tags (u.worksOn l j h)) := by
  induction tags generalizing h with
  | nil =>
    have handled : u.handled h [] [] = h := by rw [State.handled, settleAll_nil, ← front]
    exact ⟨[], [], List.suffix_rfl, nofun, fun _ => rfl, .inl ⟨rfl, by rw [handled]; rfl⟩⟩
  | cons tag tags ih =>
    have later : ∀ x ∈ tags, u.findEntry x = none := fun x mem => unknown x (List.mem_cons_of_mem _ mem)
    have passed := (ih { h with strangers := tags } rfl later).cons_passed (tag := tag)
    have settled := (ih { h with strangers := tags, staged := settleTag tag u.noSpace h.staged } rfl later).cons_settled
    rw [recordStrangers_front (unknown tag List.mem_cons_self)]
    split
    · exact passed
    · split
      · exact settled
      · cases u.pool.free with
        | nil => exact settled
        | cons c cs =>
          have handled : u.handled h (tag :: tags) [] = h := by rw [State.handled, settleAll_nil, ← front]
          exact ⟨tag :: tags, [], List.suffix_rfl, nofun, fun _ => rfl, .inr ⟨tag, tags, c, rfl, by rw [handled]⟩⟩

end

end Sys2Proof.Machine
end

section
/-! PROOFS. Where RECORDING stops (R17, R74, R75). -/
namespace Sys2Proof.Machine

/-- `t` has the wire's orders, the idle waits and the STRANGER flags of `u`. -/
structure State.Undisturbed (u t : State) : Prop where
  flags : ∀ m, (t.port m).hasFlag .stranger = (u.port m).hasFlag .stranger
  orders : t.orders = u.orders
  idleWaits : t.idleWaits = u.idleWaits

section
variable {u t : State} {l : Link} {j : Job} {h k : HangWork} {tag c : Nat} {tags : List Nat}

theorem State.Undisturbed.trans {s : State} (first : s.Undisturbed u) (second : u.Undisturbed t) : s.Undisturbed t :=
  ⟨fun m => (second.flags m).trans (first.flags m), second.orders.trans first.orders, second.idleWaits.trans first.idleWaits⟩

theorem undisturbed_worksOn (u : State) (l : Link) (j : Job) (h : HangWork) : u.Undisturbed (u.worksOn l j h) := by
  refine ⟨fun m => ?_, State.setPort_orders _ _ _, State.setPort_idleWaits _ _ _⟩
  cases l <;> cases m <;> rfl

/-! ### Posting (R75) -/

/-- A hang that passes to POSTING. -/
structure State.PostsIn (u : State) (l : Link) (j : Job) (k : HangWork) (t : State) : Prop where
  posts : u.changes.length < 16 → (t.port l).job = some { j with committed := true, work := .hang { k with phase := .posted } } ∧
    t.changes = u.changes ++ [.place l k.ramp k.staged k.seen]
  waits : 16 ≤ u.changes.length → (t.port l).job = some { j with work := .hang { k with phase := .posting } } ∧
    t.changes = u.changes ∧ l ∈ t.postWaiters
  quiet : u.Undisturbed t

theorem enterPosting_postsIn : u.PostsIn l j k ((u.worksOn l j k).enterPosting l) := by
  have queue : (u.worksOn l j k).changes = u.changes := State.setPort_changes _ _ _
  have job := job_worksOn u l j k
  have quiet (j' : Job) (k' : HangWork) : u.Undisturbed ((u.worksOn l j k).worksOn l j' k') :=
    (undisturbed_worksOn u l j k).trans (undisturbed_worksOn _ l j' k')
  rcases Nat.lt_or_ge u.changes.length 16 with room | full
  · have enters := enterPosting_posts job rfl (by rw [queue]; exact room)
    refine ⟨fun _ => ⟨?_, ?_⟩, fun more => absurd room (Nat.not_lt.mpr more), ?_⟩
    · rw [enters]
      cases l <;> rfl
    · rw [enters, queue]
    · obtain ⟨flags, orders, waits⟩ := quiet { j with committed := true } { k with phase := .posted }
      rw [enters]
      refine ⟨fun m => ?_, orders, waits⟩
      rw [← flags m]
      cases m <;> rfl
  · have enters := enterPosting_waits job rfl (by rw [queue]; exact full)
    refine ⟨fun room => absurd room (Nat.not_lt.mpr full), fun _ => ⟨?_, ?_, ?_⟩, ?_⟩
    · rw [enters]
      cases l <;> rfl
    · rw [enters]
      cases l <;> rfl
    · rw [enters]
      dsimp only
      split
      · next listed => exact List.contains_iff_mem.mp listed
      · exact List.mem_append_right _ (List.mem_singleton_self l)
    · obtain ⟨flags, orders, waits⟩ := quiet j { k with phase := .posting }
      rw [enters]
      refine ⟨fun m => ?_, orders, waits⟩
      rw [← flags m]
      cases m <;> rfl

/-! ### A provisional write begun (R17) -/

/-- The HEAD that a provisional write gives a stranger. -/
def State.strangerHead (u : State) (seen : List TileSeen) (tag : Nat) : Group :=
  .head tag (seenBatch seen tag) (u.batchDefault (seenBatch seen tag)).base ⟨false, false, false⟩

/-- The provisional write of a stranger, at its beginning. -/
def State.strangerWrite (u : State) (seen : List TileSeen) (tag c : Nat) : RecWrite :=
  ⟨tag, [u.strangerHead seen tag], [], [c], .cells, 0, 0, 0, true, true, none⟩

/-- A hang whose front stranger's record is being written. -/
structure State.WritesIn (u : State) (l : Link) (j : Job) (k : HangWork) (tag c : Nat) (t : State) : Prop where
  job : (t.port l).job = some { j with work := .hang { k with prov := some (u.strangerWrite k.seen tag c) } }
  changes : t.changes = u.changes
  free : t.pool.free = u.pool.free.drop 1
  waiting : t.nvPort.waiting = u.nvPort.waiting ++ [⟨l, .cellWrite c (u.strangerHead k.seen tag)⟩]
  quiet : u.Undisturbed t

theorem beginProvisional_eq : (u.worksOn l j k).beginProvisional l k tag c =
    ((u.claimCells 1).worksOn l j { k with prov := some (u.strangerWrite k.seen tag c) }).request l
      (.cellWrite c (u.strangerHead k.seen tag)) := by
  have head : (u.worksOn l j k).batchDefault = u.batchDefault := by cases l <;> rfl
  have claims : (u.worksOn l j k).claimCells 1 = (u.claimCells 1).worksOn l j k := by
    rw [claimCells_eq, claimCells_eq]
    cases l <;> rfl
  rw [State.beginProvisional, head, claims, setHang_worksOn]
  rfl

theorem undisturbed_claimCells (u : State) (n : Nat) : u.Undisturbed (u.claimCells n) := by
  refine ⟨fun m => ?_, by rw [claimCells_eq], by rw [claimCells_eq]⟩
  rw [hasFlag_claimCells]
  simp

theorem beginProvisional_writesIn : u.WritesIn l j k tag c ((u.worksOn l j k).beginProvisional l k tag c) := by
  rw [beginProvisional_eq]
  have changes : (u.claimCells 1).changes = u.changes := by rw [claimCells_eq]
  have free : (u.claimCells 1).pool.free = u.pool.free.drop 1 := by rw [claimCells_eq]
  have waiting : (u.claimCells 1).nvPort.waiting = u.nvPort.waiting := by rw [claimCells_eq]
  obtain ⟨flags, orders, waits⟩ := (undisturbed_claimCells u 1).trans
    (undisturbed_worksOn (u.claimCells 1) l j { k with prov := some (u.strangerWrite k.seen tag c) })
  refine ⟨?_, (State.setPort_changes _ _ _).trans changes, ?_, ?_, fun m => ?_, orders, waits⟩
  · cases l <;> rfl
  · rw [← free]
    cases l <;> rfl
  · rw [← waiting]
    cases l <;> rfl
  · rw [← flags m]
    cases m <;> rfl

/-! ### Where RECORDING stops -/

/-- What RECORDING leaves of a hang: the phase, the write, the strangers and the staged map are all it touches. -/
theorem State.StopsIn.leaves (stops : u.StopsIn l j h tags t) :
    ∃ (jt : Job) (kt : HangWork) (done : List Nat), (t.port l).job = some jt ∧ jt.work = .hang kt ∧
      kt = { h with phase := kt.phase, prov := kt.prov, strangers := kt.strangers, staged := u.settleAll done h.staged } ∧
      (∀ x ∈ done, x ∈ tags) ∧ (kt.phase = .recording → kt.strangers = tags → done = []) ∧ u.Undisturbed t := by
  obtain ⟨rest, done, -, among, untouched, ⟨-, posts⟩ | ⟨tag, more, c, -, writes⟩⟩ := stops
  · obtain ⟨posted, waiting, quiet⟩ := enterPosting_postsIn (u := u) (l := l) (j := j) (k := u.handled h rest done)
    rw [← posts] at posted waiting quiet
    rcases Nat.lt_or_ge u.changes.length 16 with room | full
    · exact ⟨_, _, done, (posted room).1, rfl, rfl, among, nofun, quiet⟩
    · exact ⟨_, _, done, (waiting full).1, rfl, rfl, among, nofun, quiet⟩
  · obtain ⟨job, -, -, -, quiet⟩ := beginProvisional_writesIn (u := u) (l := l) (j := j) (k := u.handled h rest done)
      (tag := tag) (c := c)
    rw [← writes] at job quiet
    exact ⟨_, _, done, job, rfl, rfl, among, fun _ same => untouched same, quiet⟩

end

end Sys2Proof.Machine
end

section
/-! PROOFS. A hang resolved (R70 to R73). -/
namespace Sys2Proof.Machine

/-! ### The state of a first tile (R73) -/

theorem pass_of_placeFrom {α : Type} (p : α → Bool) (l : List α) (k i : Nat) (found : placeFrom p k l = some i) :
    ∃ n a, i = k + n ∧ l[n]? = some a ∧ p a = true := by
  induction l generalizing k with
  | nil => cases found
  | cons x xs ih =>
    rw [placeFrom] at found
    split at found
    · next pass => exact ⟨0, x, (Option.some.inj found).symm, rfl, pass⟩
    · obtain ⟨n, a, place, at_n, pass⟩ := ih (k + 1) found
      exact ⟨n + 1, a, by omega, at_n, pass⟩

theorem tag_of_positionOf {s : State} {tag q : Nat} {p : Position} (placed : s.positionOf tag = some q)
    (at_q : s.positions[q]? = some p) : p.hung.tag = some tag := by
  obtain ⟨n, a, place, at_n, pass⟩ := pass_of_placeFrom (fun p : Position => decide (p.hung.tag = some tag)) s.positions 0 q placed
  rw [Nat.zero_add] at place
  subst place
  rw [Option.some.inj (at_q.symm.trans at_n)]
  exact of_decide_eq_true pass

/-- The state of a tile whose tag is hung: that of its position (R73). -/
def movedHung (u : TileAt) (v : Hung) : Hung :=
  match v.cause with
  | none => .placed u
  | some c => .unrecorded u c

theorem stayHung_of_placed {s : State} {u : TileAt} {q : Nat} {p : Position} (placed : s.positionOf u.tag = some q)
    (at_q : s.positions[q]? = some p) : stayHung s.positions u = some (movedHung u p.hung) := by
  have tagged := tag_of_positionOf placed at_q
  rw [stayHung, show positionIn s.positions u.tag = some q from placed]
  dsimp only
  rw [at_q, Option.map_some]
  cases hung : p.hung with
  | empty =>
    rw [hung] at tagged
    cases tagged
  | duplicate t =>
    rw [hung] at tagged
    cases tagged
  | placed t => rfl
  | unrecorded t c => rfl

theorem classify_of_placed {s : State} {u : TileAt} {q : Nat} {p : Position} (placed : s.positionOf u.tag = some q)
    (at_q : s.positions[q]? = some p) : s.classify u = movedHung u p.hung := by
  rw [State.classify, stayHung_of_placed placed at_q]

theorem noSpace_of_placed {s : State} {u : TileAt} {q : Nat} {p : Position} (placed : s.positionOf u.tag = some q)
    (at_q : s.positions[q]? = some p) : s.noSpace u = movedHung u p.hung := by
  rw [State.noSpace, stayHung_of_placed placed at_q]

theorem classify_occupant (s : State) (u : TileAt) : (s.classify u).occupant = some u := by
  rw [State.classify]
  split
  · next stays => exact stayHung_occupant stays
  · split <;> rfl

/-! ### Resolution as one update -/

/-- The map that a hang's branches decide. -/
def State.layHang (s : State) (h : HangWork) : Lay :=
  layAll s.settings.columns s.settings.rows h.branches (restoreFailed s.positions h.branches h.staged)

/-- The strangers that a hang found, in the order of their positions. -/
def State.strangersOf (s : State) (h : HangWork) : List Nat := (s.layHang h).decided.filterMap s.strangerTag

/-- A hang resolved, RECORDING. -/
def State.resolvedHang (s : State) (h : HangWork) : HangWork :=
  { h with
    phase := .recording
    branches := h.branches.map (fun b => if b.outcome = .reported ∧ b.excess = true then { b with over128 := true } else b)
    staged := (s.layHang h).decided.map s.classifyEntry
    seen := (s.layHang h).seen
    strangers := match h.policy with
      | .record => s.strangersOf h
      | .default => []
    counts := { h.counts with
      moved := ((s.layHang h).decided.filter s.isMove).length
      strangers := (s.strangersOf h).length
      duplicates := (s.layHang h).duplicates, excess := (s.layHang h).excess, short := (s.layHang h).short } }

/-- STRANGER raised when a hang found one (R73). -/
def State.warned (s : State) (h : HangWork) : State := if (s.strangersOf h).isEmpty then s else s.raiseDlSl .stranger

section
variable {s : State} {l : Link} {j : Job} {h : HangWork}

theorem raiseDlSl_worksOn (n : Notice) : (s.worksOn l j h).raiseDlSl n = (s.raiseDlSl n).worksOn l j h := by
  cases l <;> rfl

theorem resolve_worksOn : (s.worksOn l j h).resolve l h =
    recordStrangers l (s.resolvedHang h).strangers ((s.warned h).worksOn l j (s.resolvedHang h)) := by
  have lay : (s.worksOn l j h).layHang = s.layHang := by cases l <;> rfl
  have found : (s.worksOn l j h).strangersOf = s.strangersOf := by cases l <;> rfl
  have resolved : (s.worksOn l j h).resolvedHang = s.resolvedHang := by cases l <;> rfl
  have resolves : (s.worksOn l j h).resolve l h = recordStrangers l ((s.worksOn l j h).resolvedHang h).strangers
      (if ((s.worksOn l j h).strangersOf h).isEmpty then (s.worksOn l j h).setHang l ((s.worksOn l j h).resolvedHang h)
       else ((s.worksOn l j h).setHang l ((s.worksOn l j h).resolvedHang h)).raiseDlSl .stranger) := rfl
  rw [resolves, found, resolved, setHang_worksOn, raiseDlSl_worksOn, State.warned]
  split <;> rfl

theorem warned_findEntry (s : State) (h : HangWork) : (s.warned h).findEntry = s.findEntry := by
  rw [State.warned]
  split <;> rfl

theorem strangerTag_eq_some {e : Nat × Hung} {tag : Nat} (stranger : s.strangerTag e = some tag) :
    s.findEntry tag = none := by
  obtain ⟨i, v⟩ := e
  cases v with
  | placed u =>
    have unknown : (if (s.findEntry u.tag).isNone then some u.tag else none) = some tag := stranger
    split at unknown
    · next absent => rw [← Option.some.inj unknown, Option.isNone_iff_eq_none.mp absent]
    · cases unknown
  | empty => cases stranger
  | unrecorded u c => cases stranger
  | duplicate u => cases stranger

/-- The strangers to be recorded have no entry. -/
theorem findEntry_of_mem_strangers {tag : Nat} (mem : tag ∈ (s.resolvedHang h).strangers) : s.findEntry tag = none := by
  rw [State.resolvedHang] at mem
  dsimp only at mem
  cases policy : h.policy with
  | record =>
    rw [policy] at mem
    obtain ⟨e, -, stranger⟩ := List.mem_filterMap.mp mem
    exact strangerTag_eq_some stranger
  | default =>
    rw [policy] at mem
    cases mem

/-- A hang resolved, where RECORDING stops. -/
theorem resolve_stops : (s.warned h).StopsIn l j (s.resolvedHang h) (s.resolvedHang h).strangers ((s.worksOn l j h).resolve l h) := by
  rw [resolve_worksOn]
  exact recordStrangers_stops _ _ rfl fun tag mem => by
    rw [warned_findEntry]
    exact findEntry_of_mem_strangers mem

end

end Sys2Proof.Machine
end

section
/-! PROOFS. What a resolved hang holds (R70 to R74). -/
namespace Sys2Proof.Machine

/-- What a hang must hold when it is resolved: sound lists, routes that do not meet, and an empty map. -/
def State.Resolvable (s : State) (h : HangWork) : Prop :=
  LaysOut s.settings.columns s.settings.rows h.branches (restoreFailed s.positions h.branches h.staged)

/-- The tiles that a hang's reported branches found, in order. -/
def State.foundIn (s : State) (h : HangWork) : List FoundTile := foundBy s.settings.columns s.settings.rows h.branches

/-- The first tiles found whose tag has no entry. -/
def State.unknownIn (s : State) (h : HangWork) : List (Nat × FoundTile) :=
  (firstsOf (s.foundIn h)).filter (fun e => decide (s.findEntry e.2.2.1.tag = none))

section
variable {s : State} {h : HangWork}

theorem warned_settleAll (s : State) (h : HangWork) : (s.warned h).settleAll = s.settleAll := by
  rw [State.warned]
  split <;> rfl

/-! ### The counts (R70 to R73) -/

theorem strangerTag_placed (i : Nat) (u : TileAt) :
    s.strangerTag (i, .placed u) = if decide (s.findEntry u.tag = none) then some u.tag else none := by
  rw [State.strangerTag]
  dsimp only
  cases s.findEntry u.tag <;> rfl

theorem layHang_seen : (s.layHang h).seen =
    (firstsOf (s.foundIn h)).map (fun e => ⟨e.2.2.1.tag, e.2.2.2, e.2.2.1.orientation⟩) := layAll_holds.seen

theorem layHang_duplicates : (s.layHang h).duplicates = (s.foundIn h).length - (firstsOf (s.foundIn h)).length :=
  Nat.eq_sub_of_add_eq layAll_holds.duplicates

theorem layHang_excess (lays : s.Resolvable h) : (s.layHang h).excess =
    ((h.branches.filter HangBranch.isReported).map (fun b => b.list.length - b.route.expected)).sum :=
  (excess_layBranches h.branches lays.sound _).trans (Nat.zero_add _)

theorem layHang_short (lays : s.Resolvable h) : (s.layHang h).short =
    ((h.branches.filter HangBranch.isReported).map (fun b => b.route.expected - b.list.length)).sum :=
  (short_layBranches h.branches lays.sound _).trans (Nat.zero_add _)

theorem layHang_moved (lays : s.Resolvable h) : ((s.layHang h).decided.filter s.isMove).length =
    ((firstsOf (s.foundIn h)).filter (fun e => (s.positionOf e.2.2.1.tag).any (fun q => decide (q ≠ e.2.1)))).length := by
  have moves (e : Nat × FoundTile) : s.isMove (e.2.1, .placed e.2.2.1) =
      (s.positionOf e.2.2.1.tag).any (fun q => decide (q ≠ e.2.1)) := by
    rw [State.isMove]
    dsimp only
    cases s.positionOf e.2.2.1.tag <;> rfl
  rw [← List.countP_eq_length_filter, ← List.countP_eq_length_filter]
  exact (lays.countP_decided s.isMove (fun _ => rfl) fun _ _ => rfl).trans
    (List.countP_congr fun e _ => by rw [moves])

theorem length_strangersOf (lays : s.Resolvable h) : (s.strangersOf h).length = (s.unknownIn h).length := by
  rw [State.strangersOf, List.length_filterMap_eq_countP, State.unknownIn, ← List.countP_eq_length_filter]
  refine (lays.countP_decided (fun e => (s.strangerTag e).isSome) (fun _ => rfl) fun _ _ => rfl).trans
    (List.countP_congr fun e _ => ?_)
  rw [strangerTag_placed]
  by_cases absent : s.findEntry e.2.2.1.tag = none <;> simp [absent]

/-- The strangers, by the positions of their tiles. -/
theorem strangersOf_eq (lays : s.Resolvable h) : s.strangersOf h =
    (List.range (s.settings.columns * s.settings.rows)).filterMap (fun p =>
      ((s.unknownIn h).find? (fun e => decide (e.2.1 = p))).map (fun e => e.2.2.1.tag)) :=
  lays.filterMap_decided s.strangerTag (fun _ => rfl) (fun _ _ => rfl) (fun u => decide (s.findEntry u.tag = none)) TileAt.tag
    fun i u => strangerTag_placed i u

theorem strangersOf_isEmpty (lays : s.Resolvable h) : (s.strangersOf h).isEmpty = !decide (s.unknownIn h ≠ []) := by
  have length := length_strangersOf lays
  cases found : s.strangersOf h with
  | nil =>
    rw [found, List.length_nil] at length
    simp [List.eq_nil_of_length_eq_zero length.symm]
  | cons tag tags =>
    have some_unknown : s.unknownIn h ≠ [] := fun none_unknown => by
      rw [found, none_unknown] at length
      cases length
    simp [some_unknown]

/-! ### The staged map -/

/-- The staged map of a hang whose strangers `done` have found no space. -/
def State.stagedWith (s : State) (h : HangWork) (done : List Nat) : List (Nat × Hung) :=
  s.settleAll done (s.resolvedHang h).staged

theorem mapGet_stagedWith (done : List Nat) (p : Nat) : mapGet p (s.stagedWith h done) =
    (mapGet p (s.layHang h).decided).map (fun v => s.settle done (s.classifyEntry (p, v)).2) := by
  have keeps : ∀ e : Nat × Hung, (s.classifyEntry e).1 = e.1 := fun e => by
    obtain ⟨i, v⟩ := e
    cases v <;> rfl
  rw [State.stagedWith, mapGet_settleAll]
  exact (congrArg (Option.map _) (mapGet_map_entry s.classifyEntry keeps p _)).trans (Option.map_map _ _ _)

/-- A tile whose tag was found before. -/
theorem staged_again (lays : s.Resolvable h) (done : List Nat) {n i batch : Nat} {u : TileAt}
    (found : (s.foundIn h)[n]? = some (i, u, batch)) (again : AgainIn (s.foundIn h) n u) :
    mapGet i (s.stagedWith h done) = some (.duplicate u) := by
  have laid : (i, .duplicate u) ∈ laidOf (s.foundIn h) :=
    mem_laidOf.mpr ⟨(n, i, u, batch), mem_numbered.mpr found, rfl, (if_pos again).symm⟩
  rw [mapGet_stagedWith, show mapGet i (s.layHang h).decided = some _ from lays.mapGet_laid laid]
  rfl

/-- A first tile. -/
theorem staged_first (lays : s.Resolvable h) (done : List Nat) {n i batch : Nat} {u : TileAt}
    (found : (s.foundIn h)[n]? = some (i, u, batch)) (first : ¬AgainIn (s.foundIn h) n u) :
    mapGet i (s.stagedWith h done) = some (if u.tag ∈ done then s.noSpace u else s.classify u) := by
  have laid : (i, .placed u) ∈ laidOf (s.foundIn h) :=
    mem_laidOf.mpr ⟨(n, i, u, batch), mem_numbered.mpr found, rfl, (if_neg first).symm⟩
  rw [mapGet_stagedWith, show mapGet i (s.layHang h).decided = some _ from lays.mapGet_laid laid, Option.map_some]
  exact congrArg some (settle_of_occupant s (classify_occupant s u) done)

/-- A position that its branch's list does not reach. -/
theorem staged_short (lays : s.Resolvable h) (done : List Nat) {b : HangBranch} (mem : b ∈ h.branches) (reported : b.isReported = true)
    {i p : Nat} (short : b.list.length ≤ i) (inside : i < b.route.expected)
    (place : b.route.position s.settings.columns s.settings.rows i = some p) :
    mapGet p (s.stagedWith h done) = some .empty := by
  have listed : p ∈ shortBy s.settings.columns s.settings.rows h.branches :=
    List.mem_flatMap.mpr ⟨b, List.mem_filter.mpr ⟨mem, reported⟩, List.mem_filterMap.mpr ⟨i, List.mem_range.mpr inside,
      (if_neg (Nat.not_lt.mpr short)).trans place⟩⟩
  rw [mapGet_stagedWith, show mapGet p (s.layHang h).decided = some .empty from lays.mapGet_short listed]
  rfl

/-- A decided position keeps its entry: no failed branch shows a tile there (R70). -/
def keepsEntry (live : List Position) (bs : List HangBranch) (p : Nat) : Bool :=
  match (live[p]?).bind (fun q => q.hung.tile) with
  | none => true
  | some u => !((bs.filter (fun b => b.outcome.isFailed)).map HangBranch.branch).contains u.branch

theorem keepsEntry_iff (live : List Position) (bs : List HangBranch) (p : Nat) : keepsEntry live bs p = true ↔
    ¬∃ q ∈ live[p]?, ∃ u ∈ q.hung.tile, ∃ y ∈ bs, y.branch = u.branch ∧ y.outcome.isFailed = true := by
  rw [keepsEntry]
  cases at_p : live[p]? with
  | none => simp
  | some q =>
    cases tile : q.hung.tile with
    | none => simp [tile]
    | some u =>
      simp only [Option.bind_some, tile, Bool.not_eq_true', ← Bool.not_eq_true, List.contains_iff_mem, List.mem_map, List.mem_filter,
        Option.mem_some_iff, exists_eq_left']
      exact not_congr ⟨fun ⟨y, ⟨mem, failed⟩, named⟩ => ⟨y, mem, named, failed⟩,
        fun ⟨y, mem, named, failed⟩ => ⟨y, ⟨mem, failed⟩, named⟩⟩

theorem restoreFailed_eq (live : List Position) (bs : List HangBranch) (staged : List (Nat × Hung)) :
    restoreFailed live bs staged = staged.filter (fun e => keepsEntry live bs e.1) := rfl

theorem mapGet_restoreFailed (live : List Position) (bs : List HangBranch) (staged : List (Nat × Hung)) (p : Nat) :
    mapGet p (restoreFailed live bs staged) =
      if ∃ q ∈ live[p]?, ∃ u ∈ q.hung.tile, ∃ y ∈ bs, y.branch = u.branch ∧ y.outcome.isFailed = true
      then none else mapGet p staged := by
  rw [restoreFailed_eq, mapGet_filter_key]
  by_cases kept : keepsEntry live bs p = true
  · rw [if_pos kept, if_neg ((keepsEntry_iff live bs p).mp kept)]
  · rw [if_neg kept, if_pos (Classical.not_not.mp fun none_failed => kept ((keepsEntry_iff live bs p).mpr none_failed))]

/-- A position off the reported routes. -/
theorem staged_off (lays : s.Resolvable h) (done : List Nat) {p : Nat}
    (off : ∀ b ∈ h.branches.filter HangBranch.isReported, p ∉ s.routePositions b.route) :
    mapGet p (s.stagedWith h done) = mapGet p (restoreFailed s.positions h.branches h.staged) := by
  rw [mapGet_stagedWith, show mapGet p (s.layHang h).decided = _ from lays.mapGet_off off]
  cases listed : mapGet p (restoreFailed s.positions h.branches h.staged) with
  | none => rfl
  | some v =>
    have empty : v = .empty := lays.empty (p, v) (mem_of_mapGet listed)
    rw [empty]
    rfl

end

end Sys2Proof.Machine
end

section
/-! PROOFS. The last roll call of a hang ends (R50, R69 to R75). -/
namespace Sys2Proof.Machine

/-! ### The resolution entered -/

/-- A branch of a hang whose roll call has been reported. -/
def HangWork.heard (h : HangWork) (b : Nat) (w : Wire) : HangWork :=
  h.modBranch b (fun y => { y with outcome := .reported, list := w.rolls, excess := decide (128 < w.count) })

/-- The state in which the hang resolves: the branch IDLE and counted (R50, R63). -/
def State.streamOver (s : State) (b : Nat) (w : Wire) (x : Branch) : State :=
  { s with branches := s.branches.set b (x.counted w.count) }

section
variable {s : State} {l : Link} {j : Job} {h : HangWork} {b : Nat} {w : Wire} {x : Branch}

theorem warned_orders (s : State) (h : HangWork) : (s.warned h).orders = s.orders := by
  rw [State.warned]
  split <;> rfl

theorem warned_idleWaits (s : State) (h : HangWork) : (s.warned h).idleWaits = s.idleWaits := by
  rw [State.warned]
  split <;> rfl

theorem warned_changes (s : State) (h : HangWork) : (s.warned h).changes = s.changes := by
  rw [State.warned]
  split <;> rfl

theorem warned_pool (s : State) (h : HangWork) : (s.warned h).pool = s.pool := by
  rw [State.warned]
  split <;> rfl

theorem warned_nvPort (s : State) (h : HangWork) : (s.warned h).nvPort = s.nvPort := by
  rw [State.warned]
  split <;> rfl

theorem warned_job (s : State) (h : HangWork) (l : Link) : ((s.warned h).port l).job = (s.port l).job := by
  rw [State.warned]
  split
  · rfl
  · cases l <;> rfl

/-- STRANGER is raised when a tile found has no record (R73). -/
theorem hasFlag_warned (lays : s.Resolvable h) {m : Link} (off_pl : m ≠ .pl) : ((s.warned h).port m).hasFlag .stranger =
    ((s.port m).hasFlag .stranger || decide (s.unknownIn h ≠ [])) := by
  rw [State.warned, strangersOf_isEmpty lays]
  by_cases some_unknown : s.unknownIn h ≠ []
  · have raised : ((s.raiseDlSl .stranger).port m).hasFlag .stranger = true := by
      cases m with
      | pl => exact absurd rfl off_pl
      | dl => exact hasFlag_raise_same _ _
      | sl => exact hasFlag_raise_same _ _
    rw [decide_eq_true some_unknown, Bool.not_true, if_neg Bool.false_ne_true, raised, Bool.or_true]
  · rw [decide_eq_false some_unknown, Bool.not_false, if_pos rfl, Bool.or_false]

/-- The last roll call reported resolves the hang. -/
theorem tell_reported_resolves (job : (s.port l).job = some j) (work : j.work = .hang h) (calling : h.phase = .calling)
    (others : ∀ y ∈ h.branches, y.branch ≠ b → y.outcome.isFinal = true) (sound : w.bad = false) :
    s.tell (.hang l) b (rollReport w false) = (s.worksOn l j (h.heard b w)).resolve l (h.heard b w) := by
  have report : rollReport w false = .reported w.rolls (decide (128 < w.count)) := by
    rw [rollReport, sound]
    rfl
  have final : (h.heard b w).branches.all (fun y => y.outcome.isFinal) = true := by
    refine List.all_eq_true.mpr fun y mem => ?_
    obtain ⟨z, listed, rfl⟩ := List.mem_map.mp mem
    by_cases named : z.branch = b
    · rw [if_pos named]
      rfl
    · rw [if_neg named]
      exact others z listed named
  have tells : s.tell (.hang l) b (rollReport w false) = s.hangOutcome l b
      (fun y => { y with outcome := .reported, list := w.rolls, excess := decide (128 < w.count) }) := by
    rw [report]
    rfl
  rw [tells, State.hangOutcome, hangOf_of_job job work]
  dsimp only
  rw [setHang_of_job job]
  exact if_pos ⟨calling, final⟩

/-- The end marker of a hang's last roll call. -/
theorem exec_endMarker_resolves (job : (s.port l).job = some j) (work : j.work = .hang h) (calling : h.phase = .calling)
    (others : ∀ y ∈ h.branches, y.branch ≠ b → y.outcome.isFinal = true) (wire : s.wire = some w)
    (order : w.order = ⟨.rollCall, b, .hang l⟩) (echoed : w.echoed = true) (kept : w.dropped = false) (sound : w.bad = false)
    (empty : s.orders = []) (nobody : ∀ e ∈ s.idleWaits, e.1 ≠ b) (at_b : s.branches[b]? = some x) :
    exec (.endMarker b) s = .next
      { ((s.streamOver b w x).worksOn l j (h.heard b w)).resolve l (h.heard b w) with wire := none } := by
  have branch : w.order.branch = b := by rw [order]
  have runs : ((s.streamOver b w x).port l).job = some j := by
    rw [← job]
    cases l <;> rfl
  obtain ⟨-, -, -, -, -, -, -, -, quiet⟩ :=
    (resolve_stops (s := s.streamOver b w x) (l := l) (j := j) (h := h.heard b w)).leaves
  have orders := quiet.orders.trans ((warned_orders _ _).trans empty)
  have waits := quiet.idleWaits.trans (warned_idleWaits _ _)
  have tells := tell_reported_resolves (s := s.streamOver b w x) runs work calling others sound
  rw [exec_endMarker wire branch echoed, endStream_rollCall (by rw [order]) branch at_b, kept, if_neg Bool.false_ne_true, order]
  refine congrArg Host.Outcome.next ?_
  refine (congrArg (fun u : State => (u.tellIdle b).freeWire) tells).trans ?_
  dsimp only
  rw [tellIdle_none (by rw [waits]; exact nobody), freeWire_of_empty orders]

end

end Sys2Proof.Machine
end

section
/-! PROOFS. The last roll call of a hang: what it may be resolved on, and how it goes on (R70 to R75). -/
namespace Sys2Proof.Machine

section
variable {s : State} {l : Link} {j : Job} {h k : HangWork} {b : Nat} {w : Wire} {x : Branch}

/-- A hang that keeps its branches' lists and routes in order can be resolved. -/
theorem resolvable_heard
    (lists : ∀ y ∈ h.branches, y.list.map RollAnswer.chainIndex = List.range y.list.length ∧
      y.route.inside s.settings.columns s.settings.rows = true)
    (apart : (h.branches.flatMap (fun y => s.routePositions y.route)).Nodup) (sorted : rising (h.staged.map Prod.fst))
    (empty : ∀ e ∈ h.staged, e.2 = .empty) (rolls : w.rolls.map RollAnswer.chainIndex = List.range w.rolls.length) :
    (s.streamOver b w x).Resolvable (h.heard b w) := by
  refine ⟨fun y mem => ?_, ?_, rising_filter_keys _ _ sorted, fun e mem => empty e (mem_of_mem_filter mem)⟩
  · obtain ⟨z, listed, rfl⟩ := List.mem_map.mp mem
    obtain ⟨indexed, inside⟩ := lists z listed
    split
    · exact ⟨rolls, inside⟩
    · exact ⟨indexed, inside⟩
  · have same : (h.heard b w).branches.flatMap (fun y => y.route.positions s.settings.columns s.settings.rows) =
        h.branches.flatMap (fun y => s.routePositions y.route) := by
      rw [HangWork.heard, HangWork.modBranch, List.flatMap_map]
      refine flatMap_congr_of_mem fun y _ => ?_
      split <;> rfl
    exact same ▸ apart

/-- With no stranger to record the hang passes to POSTING (R74, R75). -/
theorem resolve_postsIn (none_left : (s.resolvedHang h).strangers = []) :
    (s.warned h).PostsIn l j (s.resolvedHang h) ((s.worksOn l j h).resolve l h) := by
  rw [resolve_worksOn, none_left]
  exact enterPosting_postsIn

/-- A hang without a write of its own locks nothing and reserves nothing. -/
theorem works_worksOn {β : Type} (f : JobWork → Option β) (job : (s.port l).job = some j) (work : j.work = .hang h)
    (before : f (.hang h) = none) (after : f (.hang k) = none) :
    (s.worksOn l j k).works.filterMap f = s.works.filterMap f := by
  cases l with
  | pl =>
    have job : s.pl.job = some j := job
    simp [State.works, State.worksOn, State.setPort, job, work, before, after]
  | dl =>
    have job : s.dl.job = some j := job
    simp [State.works, State.worksOn, State.setPort, job, work, before, after]
  | sl =>
    have job : s.sl.job = some j := job
    simp [State.works, State.worksOn, State.setPort, job, work, before, after]

theorem isLocked_worksOn (job : (s.port l).job = some j) (work : j.work = .hang h) (before : h.prov = none)
    (after : k.prov = none) (tag : Nat) : (s.worksOn l j k).isLocked tag = s.isLocked tag := by
  have works := works_worksOn (k := k) JobWork.lock job work (by rw [JobWork.lock, before]; rfl) (by rw [JobWork.lock, after]; rfl)
  have orphan : (s.worksOn l j k).nvPort = s.nvPort := State.setPort_nvPort _ _ _
  rw [State.isLocked, State.locks, works, orphan, State.isLocked, State.locks]

theorem reservations_worksOn (job : (s.port l).job = some j) (work : j.work = .hang h) (before : h.prov = none)
    (after : k.prov = none) : (s.worksOn l j k).reservations = s.reservations := by
  have works := works_worksOn (k := k) JobWork.recWrite job work before after
  have orphan : (s.worksOn l j k).nvPort = s.nvPort := State.setPort_nvPort _ _ _
  rw [State.reservations, State.recWrites, works, orphan, State.reservations, State.recWrites]

theorem warned_isLocked (s : State) (h : HangWork) : (s.warned h).isLocked = s.isLocked := by
  rw [State.warned]
  split <;> rfl

theorem warned_reservations (s : State) (h : HangWork) : (s.warned h).reservations = s.reservations := by
  rw [State.warned]
  split <;> rfl

/-- With a place in the Tag Index and a free cell the first stranger's record is written (R17, R74). -/
theorem resolve_writesIn (job : (s.port l).job = some j) (work : j.work = .hang k) (before : k.prov = none) (idle : h.prov = none)
    {tag c : Nat} {more cs : List Nat} (front : (s.resolvedHang h).strangers = tag :: more) (unlocked : s.isLocked tag = false)
    (room : s.pool.index.length + s.reservations < 512) (free : s.pool.free = c :: cs) :
    (s.warned h).WritesIn l j (s.resolvedHang h) tag c ((s.worksOn l j h).resolve l h) := by
  have runs : ((s.warned h).port l).job = some j := (warned_job s h l).trans job
  have idle' : (s.resolvedHang h).prov = none := idle
  have unknown : (s.warned h).findEntry tag = none := by
    rw [warned_findEntry]
    exact findEntry_of_mem_strangers (front ▸ List.mem_cons_self)
  have locked : ¬((s.warned h).worksOn l j (s.resolvedHang h)).isLocked tag = true := by
    rw [isLocked_worksOn runs work before idle', warned_isLocked, unlocked]
    exact Bool.false_ne_true
  have crowded : ¬512 ≤ (s.warned h).pool.index.length + ((s.warned h).worksOn l j (s.resolvedHang h)).reservations := by
    rw [reservations_worksOn runs work before idle', warned_reservations, warned_pool]
    exact Nat.not_le.mpr room
  have begins : (s.worksOn l j h).resolve l h =
      ((s.warned h).worksOn l j (s.resolvedHang h)).beginProvisional l (s.resolvedHang h) tag c := by
    rw [resolve_worksOn, front, recordStrangers_front unknown, if_neg locked, if_neg crowded, warned_pool, free]
  rw [begins]
  exact beginProvisional_writesIn

end

end Sys2Proof.Machine
end

section
/-! PROOFS. A waiting hang goes on (O35). -/
namespace Sys2Proof.Machine

section
variable {s t : State} {l : Link} {j jt : Job} {h kt : HangWork} {done : List Nat}

/-! ### The resolved hang, field by field -/

/-- The mark of a branch whose report had more than 128 tiles (log 39). -/
theorem over128_eq (y : HangBranch) :
    (if y.outcome = .reported ∧ y.excess = true then { y with over128 := true } else y) =
      { y with over128 := y.over128 || (decide (y.outcome = .reported) && y.excess) } := by
  by_cases marks : y.outcome = .reported ∧ y.excess = true
  · rw [if_pos marks, decide_eq_true marks.1, marks.2, Bool.true_and, Bool.or_true]
  · have none_marked : (decide (y.outcome = .reported) && y.excess) = false := by
      rw [← Bool.not_eq_true, Bool.and_eq_true, decide_eq_true_iff]
      exact marks
    rw [if_neg marks, none_marked, Bool.or_false]

theorem counts_resolvedHang (lays : s.Resolvable h) : (s.resolvedHang h).counts = { h.counts with
    moved := ((firstsOf (s.foundIn h)).filter
      (fun e => (s.positionOf e.2.2.1.tag).any (fun q => decide (q ≠ e.2.1)))).length
    strangers := (s.unknownIn h).length, duplicates := (s.foundIn h).length - (firstsOf (s.foundIn h)).length
    excess := ((h.branches.filter HangBranch.isReported).map (fun y => y.list.length - y.route.expected)).sum
    short := ((h.branches.filter HangBranch.isReported).map (fun y => y.route.expected - y.list.length)).sum } := by
  rw [State.resolvedHang, layHang_moved lays, length_strangersOf lays, layHang_duplicates, layHang_excess lays, layHang_short lays]

theorem strangers_resolvedHang_record (record : h.policy = .record) : (s.resolvedHang h).strangers = s.strangersOf h := by
  rw [State.resolvedHang]
  dsimp only
  rw [record]

theorem strangers_resolvedHang_default (default : h.policy = .default) : (s.resolvedHang h).strangers = [] := by
  rw [State.resolvedHang]
  dsimp only
  rw [default]

/-- Nothing is left to record: the policy does not record, or every tile found has a record. -/
theorem strangers_resolvedHang_nil (lays : s.Resolvable h) (nothing : h.policy = .default ∨ s.unknownIn h = []) :
    (s.resolvedHang h).strangers = [] := by
  cases policy : h.policy with
  | default => exact strangers_resolvedHang_default policy
  | record =>
    have all_known := nothing.resolve_left (by rw [policy]; nofun)
    rw [strangers_resolvedHang_record policy]
    exact List.eq_nil_of_length_eq_zero ((length_strangersOf lays).trans (by rw [all_known]; rfl))

/-- No stranger has been handled: the policy does not record, or RECORDING is still at the first. -/
theorem done_eq_nil (among : ∀ x ∈ done, x ∈ (s.resolvedHang h).strangers)
    (untouched : kt.phase = .recording → kt.strangers = (s.resolvedHang h).strangers → done = [])
    (front : h.policy = .default ∨ (kt.phase = .recording ∧ kt.strangers = s.strangersOf h)) : done = [] := by
  cases policy : h.policy with
  | default =>
    rw [strangers_resolvedHang_default policy] at among
    exact List.eq_nil_iff_forall_not_mem.mpr fun x mem => List.not_mem_nil (among x mem)
  | record =>
    obtain ⟨recording, same⟩ := front.resolve_left (by rw [policy]; nofun)
    exact untouched recording (same.trans (strangers_resolvedHang_record policy).symm)

/-! ### A first tile, by what is known of its tag (R73) -/

section
variable (lays : s.Resolvable h) {n i batch : Nat} {u : TileAt} (found : (s.foundIn h)[n]? = some (i, u, batch))
variable (first : ¬AgainIn (s.foundIn h) n u)
include lays found first

/-- A tile whose tag is hung. -/
theorem staged_placed {q : Nat} {p : Position} (placed : s.positionOf u.tag = some q) (at_q : s.positions[q]? = some p) :
    mapGet i (s.stagedWith h done) = some (movedHung u p.hung) := by
  rw [staged_first lays done found first, noSpace_of_placed placed at_q, classify_of_placed placed at_q, ite_self]

/-- A tile with a record that is not hung. -/
theorem staged_known {e : IndexEntry} (among : ∀ x ∈ done, s.findEntry x = none) (unplaced : s.positionOf u.tag = none)
    (known : s.findEntry u.tag = some e) :
    mapGet i (s.stagedWith h done) = some (if e.status = .damaged then .unrecorded u .damaged else .placed u) := by
  have spared : u.tag ∉ done := fun mem => by
    rw [among _ mem] at known
    cases known
  rw [staged_first lays done found first, if_neg spared, classify_of_unplaced unplaced, known]

/-- A stranger not yet handled. -/
theorem staged_unknown (untouched : done = []) (unplaced : s.positionOf u.tag = none) (unknown : s.findEntry u.tag = none) :
    mapGet i (s.stagedWith h done) = some (.unrecorded u .noRecord) := by
  rw [staged_first lays done found first, untouched, if_neg List.not_mem_nil, classify_of_unplaced unplaced, unknown]

end

/-! ### The hang that has posted, and the hang that writes -/

theorem work_of_job {u : State} (job : (u.port l).job = some jt) (work : jt.work = .hang kt) {j' : Job} {k : HangWork}
    (job' : (u.port l).job = some j') (work' : j'.work = .hang k) : jt = j' ∧ kt = k := by
  obtain rfl := Option.some.inj (job.symm.trans job')
  exact ⟨rfl, JobWork.hang.inj (work.symm.trans work')⟩

theorem warned_strangerHead (s : State) (h : HangWork) : (s.warned h).strangerHead = s.strangerHead := by
  rw [State.warned]
  split <;> rfl

theorem warned_strangerWrite (s : State) (h : HangWork) : (s.warned h).strangerWrite = s.strangerWrite := by
  rw [State.warned]
  split <;> rfl

end

/-- Settles O35: the last outcome resolves the hang, whose map is read off the log of the entries set; the outcome of the last
provisional write, the word that a branch is IDLE and PLACE_POST each take it on. -/
theorem waitingHangGoesOn : Obligations.WaitingHangGoesOn := by
  refine ⟨?_, ?_, ?_⟩
  · intro s l j h b w x job work calling no_write _ _ others lists apart sorted empty wire order echoed kept sound rolls orders
      nobody at_b heard reported found again firsts unknown strangers
    have lays : (s.streamOver b w x).Resolvable (h.heard b w) := resolvable_heard lists apart sorted empty rolls
    have ordered : strangers = (s.streamOver b w x).strangersOf (h.heard b w) := (strangersOf_eq lays).symm
    have runs : ((s.streamOver b w x).port l).job = some j := by
      rw [← job]
      cases l <;> rfl
    obtain ⟨jt, kt, done, job_t, work_t, hang, among, untouched, quiet⟩ :=
      (resolve_stops (s := s.streamOver b w x) (l := l) (j := j) (h := h.heard b w)).leaves
    have staged : kt.staged = (s.streamOver b w x).stagedWith (h.heard b w) done := by
      rw [hang, warned_settleAll]
      rfl
    have unrecorded : ∀ tag ∈ done, s.findEntry tag = none := fun tag mem =>
      findEntry_of_mem_strangers (s := s.streamOver b w x) (among tag mem)
    refine ⟨_, jt, kt, exec_endMarker_resolves job work calling others wire order echoed kept sound orders nobody at_b, ?_, work_t,
      (congrArg HangWork.ramp hang :), (congrArg HangWork.policy hang :), ?_, ?_, ?_, ?_, ?_, ?_, ?_, ?_, ?_, ?_⟩
    · rw [← job_t]
      cases l <;> rfl
    · exact (congrArg HangWork.branches hang).trans (List.map_congr_left fun y _ => over128_eq y)
    · intro n i u batch at_n
      rw [staged]
      refine ⟨staged_again lays done at_n, fun first => ⟨fun q p => staged_placed lays at_n first,
        fun e => staged_known lays at_n first unrecorded, fun unplaced absent front => ?_⟩⟩
      rw [ordered] at front
      exact staged_unknown lays at_n first (done_eq_nil among untouched front) unplaced absent
    · intro y mem i p short inside place
      obtain ⟨listed, reports⟩ := List.mem_filter.mp mem
      rw [staged]
      exact staged_short lays done listed reports short inside place
    · intro p off
      rw [staged, staged_off lays done off]
      exact mapGet_restoreFailed s.positions heard h.staged p
    · exact (congrArg HangWork.seen hang).trans layHang_seen
    · exact (congrArg HangWork.counts hang).trans (counts_resolvedHang lays)
    · exact (quiet.flags .dl).trans (hasFlag_warned lays nofun)
    · exact (quiet.flags .sl).trans (hasFlag_warned lays nofun)
    · intro nothing
      obtain ⟨posts, waits, -⟩ := resolve_postsIn (l := l) (j := j) (strangers_resolvedHang_nil lays nothing)
      rw [warned_changes] at posts waits
      rcases Nat.lt_or_ge s.changes.length 16 with room | full
      · obtain ⟨job_posted, changes⟩ := posts room
        obtain ⟨rfl, rfl⟩ := work_of_job job_t work_t job_posted rfl
        exact ⟨strangers_resolvedHang_nil lays nothing, no_write, fun _ => ⟨rfl, rfl, changes⟩,
          fun more => absurd room (Nat.not_lt.mpr more)⟩
      · obtain ⟨job_waits, changes, waiting⟩ := waits full
        obtain ⟨rfl, rfl⟩ := work_of_job job_t work_t job_waits rfl
        exact ⟨strangers_resolvedHang_nil lays nothing, no_write, fun room => absurd room (Nat.not_lt.mpr full),
          fun _ => ⟨rfl, rfl, changes, waiting⟩⟩
    · intro tag more c cs record front unlocked room free batch g
      have first : ((s.streamOver b w x).resolvedHang (h.heard b w)).strangers = tag :: more := by
        rw [strangers_resolvedHang_record (h := h.heard b w) record, ← ordered, front]
      obtain ⟨job_writes, changes, left, waiting, -⟩ :=
        resolve_writesIn (h := h.heard b w) (j := j) runs work no_write no_write first unlocked room free
      obtain ⟨rfl, rfl⟩ := work_of_job job_t work_t job_writes rfl
      rw [warned_changes] at changes
      rw [warned_pool, show (s.streamOver b w x).pool.free = c :: cs from free] at left
      rw [warned_nvPort, warned_strangerHead] at waiting
      refine ⟨rfl, first.trans front.symm, changes, left, waiting, ?_⟩
      exact congrArg (fun writes => some (writes ((s.streamOver b w x).resolvedHang (h.heard b w)).seen tag c))
        (warned_strangerWrite (s.streamOver b w x) (h.heard b w))
  · intro s l j h p c job work prov provisional front _ room unplaced settled done failed full staged ends
    have last : h.strangers.tail = [] := by
      rw [front]
      rfl
    have settles (f : TileAt → Hung) : settled f = settleTag p.tag f h.staged := List.map_congr_left fun e _ => by
      cases e.2 <;> rfl
    have gives_up (other : c ≠ .indexSwapComplete) {t : State} (exits : exec c s = .next t) (gave : s.GaveUp l j h p staged t) :
        ∃ t, exec c s = .next t ∧ (t.port l).job = some { j with committed := true, work := .hang { h with
            phase := .posted, prov := none, strangers := [], staged := staged
            counts := { h.counts with provisional := h.counts.provisional + (if c = .indexSwapComplete then 1 else 0) } } } ∧
          t.changes = s.changes ++ [.place l h.ramp staged h.seen] ∧
          (c ≠ .indexSwapComplete → ∀ k, k ∈ t.pool.free ↔ k ∈ s.pool.free ∨ k ∈ p.written ∨ k ∈ p.unwritten) := by
      obtain ⟨⟨e, nothing, job_t, changes⟩, freed⟩ := gave
      rw [HangWork.postedAfter, nothing] at job_t
      exact ⟨t, exits, by rw [if_neg other]; exact job_t, changes, fun _ => freed⟩
    rcases ends with ⟨⟨rfl, current, revised⟩, rfl⟩ | ⟨(⟨rfl, ⟨cell, current⟩, spent⟩ | ⟨rfl, free, first, spent⟩), rfl⟩ |
      ⟨⟨rfl, ⟨cell, current⟩, left, none_free⟩, rfl⟩
    · obtain ⟨t, exits, job_t, changes⟩ :=
        exec_indexSwapComplete_posts job work prov provisional last room unplaced current revised
      rw [← settles] at job_t changes
      exact ⟨t, exits, by rw [if_pos rfl]; exact job_t, changes, fun other => absurd rfl other⟩
    · obtain ⟨t, exits, gave⟩ := exec_retiredWriteComplete_spent job work prov provisional last room unplaced current spent
      exact gives_up nofun exits gave
    · obtain ⟨t, exits, gave⟩ := exec_nvRequestBegin_spent job work prov provisional last room unplaced free first spent
      exact gives_up nofun exits gave
    · obtain ⟨t, exits, gave⟩ :=
        exec_retiredWriteComplete_full job work prov provisional last room unplaced current left none_free
      rw [← settles] at gave
      exact gives_up nofun exits gave
  · intro l j h s job work
    exact ⟨fun b w waiting idle waits settled wire room =>
      exec_waitingHangToldIdle job work waiting idle waits settled wire room,
      fun rest first room => exec_placePost job work first room⟩

end Sys2Proof.Machine
end
